-- ==== Sys2Proof/Word.lean ====
section
/-! DEFINITION. The word types of the A32 model and the plain table type: bytes, register words, and sparse tables
(lists of key and value pairs in one canonical form, `Machine/Tab.lean` has their operations). -/
namespace Sys2Proof

/-- A byte. -/
abbrev Byte := BitVec 8

/-- A 64-bit word: every management register and every scalar register is one (R4, R65). -/
abbrev Word := BitVec 64

/-- A sparse table: key and value pairs, keys strictly rising, no entry equal to what an unlisted key reads as. -/
abbrev Tab (α : Type) := List (Nat × α)

/-- A memory: bytes by address, a table whose unlisted addresses read as 0 (R36, R45, R337). -/
abbrev Mem := Tab Byte

end Sys2Proof
end

