-- ==== Sys2Proof/Syntax.lean ====
section
/-! DEFINITION. The commands of the A32: one constructor per row of the operation table, with the row's operands.
A command stands for one whole, indivisible step of the device (95_what_each_step_holds): a message that arrives, an
instruction a logical tile's sequencer has fetched, an event inside a unit, a pin, a register write. -/
namespace Sys2Proof

/-- A launch endpoint request: flow and Table 2-1 header, body as bytes (Table 2-3). -/
structure Req where
  part : Fin 8
  flow : BitVec 16
  typ : Byte
  version : Byte
  bodyLen : BitVec 16
  jobId : BitVec 32
  reqSeq : BitVec 32
  rsvd : BitVec 32
  body : List Byte
  deriving DecidableEq, Repr

/-- A mismatch in a pass (R121, R367): the array and its physical column group, the row, whether it is a parity failure of the weight
store and not a residue's, and whether the replay or recast disagrees too. -/
structure RowFind where
  array : Fin 4
  group : Fin 33
  row : BitVec 10
  failed : Bool
  weight : Bool := false
  deriving DecidableEq, Repr

/-- A word among those that a read meets which ECC corrects, or cannot correct: the handle and the byte offset (R267, R367, Table 10-8). -/
structure WordFind where
  handle : BitVec 32
  off : BitVec 38
  corrected : Bool := false
  deriving DecidableEq, Repr

/-- The same of a read of one handle: the byte offset. -/
structure OffFind where
  off : BitVec 38
  corrected : Bool := false
  deriving DecidableEq, Repr

/-- What the checks of a tile find as an operation of it ends, or as its retained SRAM is read back (R367, R370): nothing; a residue mismatch
of a lane group of the vector unit, and whether the repeat disagrees too; a scratchpad word of a bank and row, or a word of the registers, event
counters, group state, pass record or stacks, single or double. -/
inductive TileFind where
  | none
  | vector (group : Fin 32) (again : Bool)
  | spad (bank : Fin 64) (row : BitVec 12) (double : Bool)
  | sram (part : Fin 5) (double : Bool)
  deriving DecidableEq, Repr

/-- An operation of a unit of a logical tile ends, with what it met (R267, R367). -/
structure UnitEnd where
  lt : Fin 32
  found : TileFind := .none
  bad : Option WordFind := .none
  deriving DecidableEq, Repr

/-- A pass ends, with the mismatches of its rows, what else the tile's checks found, and a word that ECC met in its reads (R121, R267, R367). -/
structure PassEnd where
  rows : List RowFind
  found : TileFind := .none
  bad : Option WordFind := .none
  deriving DecidableEq, Repr

/-- Work of a partition ends, with a word that ECC met in its reads (R267, R367). -/
structure PartWork where
  p : Fin 8
  bad : Option WordFind := .none
  deriving DecidableEq, Repr

/-- What an exchange engine reports of an operation: its number, and a word that ECC met in what it has read for it (R267, R275). -/
structure ExchEnd where
  op : Nat
  bad : Option WordFind := .none
  deriving DecidableEq, Repr

/-- A gauge contribution: what its norm's reads met (R267), and the sums, by cable id, whose final link lies on a stopped device that never
formed it, so that no segment of them will come (R425). -/
structure GaugeWork where
  p : Fin 8
  bad : Option WordFind := .none
  unformed : List (BitVec 16) := []
  deriving DecidableEq, Repr

/-- An error of a support unit (Table 15-3): X0's pools, X1's, supervisor, power controller, MRAM, fuses; single, or double or a hang; the
partition whose data a pool's word held, if any. -/
structure SupportFind where
  unit : Fin 6
  double : Bool
  part : Option (Fin 8) := none
  deriving DecidableEq, Repr

/-- What a mesh or bridge link reports (R367): the link, the attempts of its retry less one, whether the last of them succeeded; a retry that
does not succeed has made all eight. -/
structure LinkRetry where
  link : Fin 16
  attempts : Fin 8
  ok : Bool
  deriving DecidableEq, Repr

/-- The readings of the temperature sensors (R402), and the errors that the support units' own checks have found since the last sample (R367). -/
structure SensorReport where
  temps : List (BitVec 8)
  support : List SupportFind := []
  deriving DecidableEq, Repr

/-- How a meter record fares on the isolator (R365): it crosses whole; input is lost meanwhile and it is partial; the link is lost. -/
inductive IsoPath where
  | whole | torn | lost
  deriving DecidableEq, Repr

/-- What becomes of a meter record: the power controller's estimates of the domains' shares, and its way over the isolator (R364, R365). -/
structure RecordPath where
  shares : List Nat
  path : IsoPath := .whole
  deriving DecidableEq, Repr

/-- A residue mismatch of a tension op (R121). -/
structure TensionFind where
  array : Fin 4
  group : Fin 33
  deriving DecidableEq, Repr

/-- A tension step of a logical tile's arrays and the mismatches it meets (R110, R121). -/
structure TensionOps where
  lt : Fin 32
  bad : List TensionFind
  deriving DecidableEq, Repr

/-- A GET and a word that ECC met among those it reads, if any (R60, R267, R367). -/
structure GetReq where
  req : Req
  bad : Option OffFind
  deriving DecidableEq, Repr

/-- The engine whose MOVE completes, a word of the source that ECC met, if any (R267, R367), and what the tile's checks
found (R367). -/
structure MoveEnd where
  eng : Fin 8
  bad : Option OffFind
  found : TileFind := .none
  deriving DecidableEq, Repr

/-- What the port finds of a Neighbor Solicitation's frame: its FCS, whether it carries a valid SecTAG and ICV, its packet number, the MAC
address it came from (R284, R322). -/
structure FrameFind where
  fcsOk : Bool
  secTag : Bool
  pn : Word
  srcMac : BitVec 48 := 0
  deriving DecidableEq, Repr

/-- The stack whose row copy is done, and the frames of the row with a word that ECC could not correct, and with one that it corrected
(R265, R367). -/
structure RowCopy where
  stack : Fin 32
  bad : List (BitVec 20)
  fixed : List (BitVec 20) := []
  deriving DecidableEq, Repr

/-- A phase of a domain's exit; with a stack's training, the channels that failed twice and those that passed only in degraded form
(R268, R343); with a tile's memory ready, an error found in its retained SRAM (R352). -/
structure ExitPhase where
  d : Fin 80
  failed : List (Fin 32)
  degraded : List (Fin 32)
  found : TileFind := .none
  deriving DecidableEq, Repr

/-- What a patrol read finds in the frame whose turn it is (R274): nothing, a corrected error, an uncorrectable word. -/
inductive PatrolFind where
  | clean
  | corrected
  | uncorrectable
  deriving DecidableEq, Repr

/-- What a ledger block meets (R219, R220, R267, R367): nothing; a staged block that is corrected as it is read back, or cannot be (a double
error); a residue mismatch of the Purl engine, and whether the repeat disagrees too; a word that ECC cannot correct, or corrects, at a
byte offset of the shard, or of the gradient's handle, as it is read. -/
inductive BlockFind where
  | good
  | corrected
  | unreadable
  | residue (again : Bool)
  | shardUe (off : BitVec 38)
  | gradUe (off : BitVec 38)
  | shardCe (off : BitVec 38)
  | gradCe (off : BitVec 38)
  deriving DecidableEq, Repr

/-- A channel's tracked margin as its controller reports it at a retrain window (R263, R264): whether it lies below the
retrain threshold, and whether it has fallen to the failure limit. -/
structure Margin where
  stack : Fin 32
  ch : Fin 32
  margin : Byte
  below : Bool
  failing : Bool
  deriving DecidableEq, Repr

/-- A gauge message (Table 8-4) at the partition it reaches. -/
structure GaugeMsg where
  part : Fin 8
  flags : Byte
  cause : Byte
  step : BitVec 32
  jobId : BitVec 32
  srcDev : BitVec 12
  norm2 : Word
  limit : Word
  deriving DecidableEq, Repr

/-- A cable or fan message (Table 6-5) at the partition it reaches; `peer` is the device it came from, `values` is a SEG
message's data (binary32 in the low half for FMT 0x0). -/
structure CableMsg where
  part : Fin 8
  peer : BitVec 12
  fmt : Byte
  cableId : BitVec 16
  step : BitVec 32
  src : BitVec 16
  dest : BitVec 16
  links : BitVec 16
  epoch : Byte
  flags : Byte
  bias : BitVec 32
  seg : BitVec 32
  level : Byte
  mbNext : BitVec 32
  values : List Word
  deriving DecidableEq, Repr

/-- A skein message (Table 7-13) at the partition it reaches. -/
structure SkeinMsg where
  part : Fin 8
  mode : Byte
  exch : BitVec 16
  step : BitVec 32
  src : BitVec 12
  dst : BitVec 12
  rows : BitVec 32
  offset : BitVec 64
  fmt : Byte
  bsz : Byte
  dataBytes : BitVec 32
  payload : List Byte
  deriving DecidableEq, Repr

/-- An envelope header and tag (Table 12-6). -/
structure Envelope where
  ver : Byte
  kind : Byte
  epoch : BitVec 16
  rsvd : BitVec 32
  sender : Word
  counter : Word
  rsvd2 : Word
  tag : BitVec 128
  deriving DecidableEq, Repr

/-- A received Chind packet: what the port's checks of R284 find of the frame, its source address, the Chind header of Table 11-3, and the
envelope, if the packet carries one. The row fixes the TYPE, unless `rsvdType` says that the header's TYPE is a reserved one. `secTag`: a
valid SecTAG and ICV, with packet number `pn` (R322). `payload`: as it stands on the wire, so encrypted under an envelope (R320). -/
structure Packet where
  port : Fin 8
  fcsOk : Bool
  ipv6 : Bool
  extHdr : Bool
  ownAddr : Bool
  udpOk : Bool
  ce : Bool
  secTag : Bool
  srcAddr : BitVec 128
  ver : BitVec 4
  flags : Byte
  dstFlow : BitVec 16
  srcFlow : BitVec 16
  path : Byte
  ports : Byte
  psn : BitVec 32
  ackPsn : BitVec 32
  sack : BitVec 32
  credit : BitVec 32
  srcDev : BitVec 16
  incarn : BitVec 32
  env : Option Envelope
  payload : List Byte
  rsvdType : Bool := false
  pn : Word := 0xFFFFFFFFFFFFFFFF#64
  deriving DecidableEq, Repr

/-- A swatch ACK (R248). -/
structure SwatchAck where
  part : Fin 8
  swatchId : BitVec 32
  imageBytes : BitVec 64
  digest : List Byte
  result : Byte
  deriving DecidableEq, Repr

/-- A Weneus message (Table 16-5), its body as it stands on the wire: encrypted in an open session, with its tag (R396); whether it came
over IPv6 and UDP intact, its UDP port and the address it was sent to (R393). -/
structure WenMsg where
  ver : Byte
  code : BitVec 16
  session : BitVec 32
  seq : BitVec 64
  rsvd : BitVec 48
  body : List Byte
  tag : BitVec 128
  dst : BitVec 128
  udpPort : BitVec 16 := 0xC1D1#16
  ipv6 : Bool := true
  deriving DecidableEq, Repr

/-- What an MKA frame carries that the port acts on (R322): whether it completes an agreement under the CAK, the sender's key server priority
and SCI, and the SAK wrapped under the CAK, which counts where the sender is the key server. -/
structure MkaPdu where
  agreed : Bool
  prio : Byte := 0xFF#8
  sci : Word := 0
  wrapped : List Byte := []
  deriving DecidableEq, Repr

/-- How a self-test is commanded (R378): by a write to TEST_CMD or by the Weneus request. -/
inductive TestVia where
  | reg (value : Word)
  | weneus (m : WenMsg)
  deriving DecidableEq, Repr

/-- Entry requesters of Table 13-2. -/
inductive Requester where
  | hint | tileIdle | workItemEnd | placementRet | stackIdle | placementOff | security | portIdle | portDisable
  | fabricIdle
  deriving DecidableEq, Repr

/-- What the meter's self-check finds (R365): nothing, a failed self-check, a failed measurement path. -/
inductive MeterCheck where
  | pass | selftest | invalid
  deriving DecidableEq, Repr

/-- Straps (R412). -/
structure Straps where
  boardMode : Bool
  brdPos : BitVec 2
  slotId : BitVec 6
  deriving DecidableEq, Repr

/-- What a start-up step reports when it completes (Table 16-1): the straps it samples (step 1), whether each configuration set's digest holds, the
channels whose initial training failed twice or passed only in degraded form (R266, R268), and errors of support units, such as copies of
the fuses that disagree (R367). -/
structure BootReport where
  step : Fin 10
  straps : Straps
  activeOk : Bool
  shadowOk : Bool
  failed : List (Fin 32 × Fin 32)
  degraded : List (Fin 32 × Fin 32)
  support : List SupportFind := []
  deriving DecidableEq, Repr

/-- The commands, one constructor per row of the operation table, in the table's order. Instruction commands name the
partition and logical tile whose sequencer issues the word `w`; the row fixes the word's CLASS and OPCODE (and FN of
CTL.AOP, MODE of PWR.TENSION), whatever `w` holds there. -/
inductive Instr where
  /-- LAUNCH (R51) -/
  | launch (r : Req)
  /-- ABORT (R57) -/
  | abort (r : Req)
  /-- ALLOC (R35) -/
  | alloc (r : Req)
  /-- FREE (R39) -/
  | free (r : Req)
  /-- PUT (R40) -/
  | put (r : Req)
  /-- GET (R60) -/
  | get (r : GetReq)
  /-- QUERY (R25) -/
  | query (r : Req)
  /-- CLOSE (R29) -/
  | close (r : Req)
  /-- PUT_EVENT_POST (R40) -/
  | putEventPost (p : Fin 8) (flow : BitVec 16)
  /-- HOST_NOTICE (R50) -/
  | hostNotice (p : Fin 8) (lt : Fin 32)
  /-- WORK_ITEM_START (R33) -/
  | workItemStart (p : Fin 8)
  /-- TILE_STOP (R55) -/
  | tileStop (p : Fin 8) (lt : Fin 32)
  /-- CTL_NOP (R70) -/
  | ctlNop (p : Fin 8) (lt : Fin 32) (w : BitVec 128)
  /-- CTL_BR (R70) -/
  | ctlBr (p : Fin 8) (lt : Fin 32) (w : BitVec 128)
  /-- CTL_CALL (R73) -/
  | ctlCall (p : Fin 8) (lt : Fin 32) (w : BitVec 128)
  /-- CTL_RET (R73) -/
  | ctlRet (p : Fin 8) (lt : Fin 32) (w : BitVec 128)
  /-- CTL_LOOP (R74) -/
  | ctlLoop (p : Fin 8) (lt : Fin 32) (w : BitVec 128)
  /-- CTL_SEAM (R75) -/
  | ctlSeam (p : Fin 8) (lt : Fin 32) (w : BitVec 128)
  /-- CTL_MOVI (R70) -/
  | ctlMovi (p : Fin 8) (lt : Fin 32) (w : BitVec 128)
  /-- CTL_SOP (R72) -/
  | ctlSop (p : Fin 8) (lt : Fin 32) (w : BitVec 128)
  /-- CTL_SCMP (R72) -/
  | ctlScmp (p : Fin 8) (lt : Fin 32) (w : BitVec 128)
  /-- CTL_AOP_SET (R72) -/
  | ctlAopSet (p : Fin 8) (lt : Fin 32) (w : BitVec 128)
  /-- CTL_AOP_ADD (R72) -/
  | ctlAopAdd (p : Fin 8) (lt : Fin 32) (w : BitVec 128)
  /-- CTL_AOP_GET (R72) -/
  | ctlAopGet (p : Fin 8) (lt : Fin 32) (w : BitVec 128)
  /-- SYNC_POST (R77) -/
  | syncPost (p : Fin 8) (lt : Fin 32) (w : BitVec 128)
  /-- SYNC_WAIT (R49) -/
  | syncWait (p : Fin 8) (lt : Fin 32) (w : BitVec 128)
  /-- SYNC_RD (R76) -/
  | syncRd (p : Fin 8) (lt : Fin 32) (w : BitVec 128)
  /-- EVENT_POST_ARRIVE (R48) -/
  | eventPostArrive (p : Fin 8) (lt : Fin 32)
  /-- MOVE_LD (R78) -/
  | moveLd (p : Fin 8) (lt : Fin 32) (w : BitVec 128)
  /-- MOVE_ST (R78) -/
  | moveSt (p : Fin 8) (lt : Fin 32) (w : BitVec 128)
  /-- MOVE_GATHER (R79) -/
  | moveGather (p : Fin 8) (lt : Fin 32) (w : BitVec 128)
  /-- MOVE_SCATTER (R79) -/
  | moveScatter (p : Fin 8) (lt : Fin 32) (w : BitVec 128)
  /-- MOVE_WIN (R80) -/
  | moveWin (p : Fin 8) (lt : Fin 32) (w : BitVec 128)
  /-- MOVE_COMPLETE (R66) -/
  | moveComplete (p : Fin 8) (lt : Fin 32) (eng : MoveEnd)
  /-- MMA_OPEN (R151) -/
  | mmaOpen (p : Fin 8) (lt : Fin 32) (w : BitVec 128)
  /-- MMA_PASS (R83) -/
  | mmaPass (p : Fin 8) (lt : Fin 32) (w : BitVec 128)
  /-- MMA_CONV (R111) -/
  | mmaConv (p : Fin 8) (lt : Fin 32) (w : BitVec 128)
  /-- MMA_CLOSE (R84) -/
  | mmaClose (p : Fin 8) (lt : Fin 32) (w : BitVec 128)
  /-- WEIGHT_FLIP (R101) -/
  | weightFlip (p : Fin 8) (lt : Fin 32)
  /-- ARRAY_PASS_DONE (R105) -/
  | arrayPassDone (p : Fin 8) (lt : Fin 32) (x : PassEnd)
  /-- MMA_CLOSE_DONE (R84) -/
  | mmaCloseDone (p : Fin 8) (lt : Fin 32)
  /-- TENSION_LEVEL_STEP (R110) -/
  | tensionLevelStep (p : Fin 8) (x : TensionOps)
  /-- GRP_WALK (R85) -/
  | grpWalk (p : Fin 8) (lt : Fin 32) (w : BitVec 128)
  /-- GRP_UNIT_DEAL (R116) -/
  | grpUnitDeal (p : Fin 8) (lt : Fin 32)
  /-- GRP_WALK_DONE (R85) -/
  | grpWalkDone (p : Fin 8) (lt : Fin 32)
  /-- VEC_LD (R86) -/
  | vecLd (p : Fin 8) (lt : Fin 32) (w : BitVec 128)
  /-- VEC_ST (R86) -/
  | vecSt (p : Fin 8) (lt : Fin 32) (w : BitVec 128)
  /-- VEC_ADD (R87) -/
  | vecAdd (p : Fin 8) (lt : Fin 32) (w : BitVec 128)
  /-- VEC_SUB (R87) -/
  | vecSub (p : Fin 8) (lt : Fin 32) (w : BitVec 128)
  /-- VEC_MUL (R87) -/
  | vecMul (p : Fin 8) (lt : Fin 32) (w : BitVec 128)
  /-- VEC_FMA (R87) -/
  | vecFma (p : Fin 8) (lt : Fin 32) (w : BitVec 128)
  /-- VEC_MAX (R134) -/
  | vecMax (p : Fin 8) (lt : Fin 32) (w : BitVec 128)
  /-- VEC_MIN (R134) -/
  | vecMin (p : Fin 8) (lt : Fin 32) (w : BitVec 128)
  /-- VEC_ABS (R86) -/
  | vecAbs (p : Fin 8) (lt : Fin 32) (w : BitVec 128)
  /-- VEC_NEG (R86) -/
  | vecNeg (p : Fin 8) (lt : Fin 32) (w : BitVec 128)
  /-- VEC_EXP (R87) -/
  | vecExp (p : Fin 8) (lt : Fin 32) (w : BitVec 128)
  /-- VEC_RCP (R87) -/
  | vecRcp (p : Fin 8) (lt : Fin 32) (w : BitVec 128)
  /-- VEC_RSQ (R87) -/
  | vecRsq (p : Fin 8) (lt : Fin 32) (w : BitVec 128)
  /-- VEC_SQRT (R87) -/
  | vecSqrt (p : Fin 8) (lt : Fin 32) (w : BitVec 128)
  /-- VEC_CMPLT (R134) -/
  | vecCmplt (p : Fin 8) (lt : Fin 32) (w : BitVec 128)
  /-- VEC_SEL (R86) -/
  | vecSel (p : Fin 8) (lt : Fin 32) (w : BitVec 128)
  /-- VEC_REDSUM (R87) -/
  | vecRedsum (p : Fin 8) (lt : Fin 32) (w : BitVec 128)
  /-- VEC_REDMAX (R87) -/
  | vecRedmax (p : Fin 8) (lt : Fin 32) (w : BitVec 128)
  /-- VEC_NFIN (R87) -/
  | vecNfin (p : Fin 8) (lt : Fin 32) (w : BitVec 128)
  /-- VEC_BCAST (R86) -/
  | vecBcast (p : Fin 8) (lt : Fin 32) (w : BitVec 128)
  /-- CVT_BS (R130) -/
  | cvtBs (p : Fin 8) (lt : Fin 32) (w : BitVec 128)
  /-- CVT_SR (R132) -/
  | cvtSr (p : Fin 8) (lt : Fin 32) (w : BitVec 128)
  /-- CVT_UP (R133) -/
  | cvtUp (p : Fin 8) (lt : Fin 32) (w : BitVec 128)
  /-- CVT_RN (R88) -/
  | cvtRn (p : Fin 8) (lt : Fin 32) (w : BitVec 128)
  /-- CVT_DONE (R66) -/
  | cvtDone (p : Fin 8) (x : UnitEnd)
  /-- ROUTE_TOPK (R174) -/
  | routeTopk (p : Fin 8) (lt : Fin 32) (w : BitVec 128)
  /-- ROUTE_SCAN (R176) -/
  | routeScan (p : Fin 8) (lt : Fin 32) (w : BitVec 128)
  /-- ROUTE_SORT (R178) -/
  | routeSort (p : Fin 8) (lt : Fin 32) (w : BitVec 128)
  /-- ROUTE_UNPERM (R189) -/
  | routeUnperm (p : Fin 8) (lt : Fin 32) (w : BitVec 128)
  /-- ROUTE_DONE (R66) -/
  | routeDone (p : Fin 8) (x : UnitEnd)
  /-- XCHG_SKEIN (R181) -/
  | xchgSkein (p : Fin 8) (lt : Fin 32) (w : BitVec 128)
  /-- XCHG_CABLE (R157) -/
  | xchgCable (p : Fin 8) (lt : Fin 32) (w : BitVec 128)
  /-- XCHG_FAN (R170) -/
  | xchgFan (p : Fin 8) (lt : Fin 32) (w : BitVec 128)
  /-- SKEIN_COMPLETE (R186) -/
  | skeinComplete (p : Fin 8) (lt : Fin 32) (x : ExchEnd)
  /-- CABLE_COMPLETE (R165) -/
  | cableComplete (p : Fin 8) (lt : Fin 32) (x : ExchEnd)
  /-- UPD_APPLY (R205) -/
  | updApply (p : Fin 8) (lt : Fin 32) (w : BitVec 128)
  /-- UPD_GAUGE (R91) -/
  | updGauge (p : Fin 8) (lt : Fin 32) (w : BitVec 128)
  /-- PWR_TENSION_HOLD (R110) -/
  | pwrTensionHold (p : Fin 8) (lt : Fin 32) (w : BitVec 128)
  /-- PWR_TENSION_RAMP (R110) -/
  | pwrTensionRamp (p : Fin 8) (lt : Fin 32) (w : BitVec 128)
  /-- PWR_TENSION_RELEASE (R110) -/
  | pwrTensionRelease (p : Fin 8) (lt : Fin 32) (w : BitVec 128)
  /-- PWR_HINT (R338) -/
  | pwrHint (p : Fin 8) (lt : Fin 32) (w : BitVec 128)
  /-- TIMESLICE_EXPIRY (R43) -/
  | timesliceExpiry (t : Fin 32)
  /-- TILE_SWITCH_DONE (R43) -/
  | tileSwitchDone (t : Fin 32)
  /-- SLOT_GRANT (R236) -/
  | slotGrant (p : Fin 8)
  /-- GAUGE_CONTRIBUTION (R209) -/
  | gaugeContribution (x : GaugeWork)
  /-- GAUGE (R211) -/
  | gauge (m : GaugeMsg)
  /-- SEAM_RECORD (R226) -/
  | seamRecord (p : Fin 8)
  /-- SEAM_WORK_DONE (R22) -/
  | seamWorkDone (x : PartWork)
  /-- LEDGER_BLOCK_WRITE (R219) -/
  | ledgerBlockWrite (p : Fin 8) (shard : BitVec 32) (found : BlockFind)
  /-- SEG (R166) -/
  | seg (m : CableMsg)
  /-- RESTART (R167) -/
  | restart (m : CableMsg)
  /-- FINISH (R165) -/
  | finish (m : CableMsg)
  /-- HELD (R206) -/
  | held (m : CableMsg)
  /-- HEAD (R183) -/
  | head (m : SkeinMsg)
  /-- ROWS (R184) -/
  | rows (m : SkeinMsg)
  /-- VOID (R195) -/
  | void (m : SkeinMsg)
  /-- DATA (R298) -/
  | chindData (k : Packet)
  /-- ACK (R299) -/
  | chindAck (k : Packet)
  /-- PROBE (R300) -/
  | chindProbe (k : Packet)
  /-- OPEN (R293) -/
  | chindOpen (k : Packet)
  /-- OPEN_ACK (R296) -/
  | chindOpenAck (k : Packet)
  /-- OPEN_NAK (R296) -/
  | chindOpenNak (k : Packet)
  /-- CHIND_CLOSE (R296) -/
  | chindClose (k : Packet)
  /-- HELLO (R287) -/
  | chindHello (k : Packet)
  /-- WAKE (R305) -/
  | chindWake (k : Packet)
  /-- NEIGHBOR_SOLICITATION (R284) -/
  | neighborSolicitation (port : Fin 9) (target : BitVec 128) (found : FrameFind)
  /-- ACK_DELAY (R299) -/
  | ackDelay (flow : BitVec 16)
  /-- RTO_EXPIRY (R301) -/
  | rtoExpiry (flow : BitVec 16)
  /-- FLOW_DEAD (R302) -/
  | flowDead (flow : BitVec 16)
  /-- LINK_UP (R287) -/
  | linkUp (port : Fin 8)
  /-- LINK_DOWN (R306) -/
  | linkDown (port : Fin 8)
  /-- PORT_DRAIN_DONE (R288) -/
  | portDrainDone (port : Fin 8)
  /-- PORT_FEC_BURST (R367) -/
  | portFecBurst (port : Fin 8)
  /-- SWATCH_COPY_DONE (R246) -/
  | swatchCopyDone (x : PartWork)
  /-- SWATCH_DATA_SEND (R247) -/
  | swatchDataSend (x : PartWork)
  /-- SWATCH_ACK (R248) -/
  | swatchAck (a : SwatchAck)
  /-- RETRAIN_WINDOW (R264) -/
  | retrainWindow (ms : List Margin)
  /-- RETRAIN_DONE (R264) -/
  | retrainDone (stack : Fin 32) (ch : Fin 32) (ok : Bool)
  /-- ROW_REPAIR_DONE (R265) -/
  | rowRepairDone (copy : RowCopy)
  /-- PATROL_READ (R274) -/
  | patrolRead (stack : Fin 32) (found : PatrolFind)
  /-- SCRUB_START (R273) -/
  | scrubStart (stack : Fin 32)
  /-- SCRUB_DONE (R273) -/
  | scrubDone (stack : Fin 32)
  /-- DROP_CHECK_START (R372) -/
  | dropCheckStart
  /-- DROP_CHECK_VERDICT (R371) -/
  | dropCheckVerdict (seq : BitVec 64) (fails : Bool)
  /-- ERROR_LOG_COMMIT (R375) -/
  | errorLogCommit
  /-- FABRIC_RETRY_EXHAUSTED (R367) -/
  | fabricRetryExhausted (die : Fin 6) (link : LinkRetry)
  /-- POWER_ENTRY_REQUEST (R338) -/
  | powerEntryRequest (d : Fin 80) (who : Requester)
  /-- ENTRY_STEP_DONE (R341) -/
  | entryStepDone (d : Fin 80)
  /-- WAKE_SOURCE (R345) -/
  | wakeSource (d : Fin 80) (code : Fin 14)
  /-- EXIT_PHASE_DONE (R343) -/
  | exitPhaseDone (x : ExitPhase)
  /-- TILE_IDLE_TIMER (R338) -/
  | tileIdleTimer (t : Fin 32)
  /-- STACK_IDLE_TIMER (R338) -/
  | stackIdleTimer (stack : Fin 32)
  /-- PORT_IDLE_TIMER (R338) -/
  | portIdleTimer (port : Fin 8)
  /-- REFUSAL_REEVALUATE (R340) -/
  | refusalReevaluate (d : Fin 80)
  /-- CAP_WINDOW (R350) -/
  | capWindow (watts vin iin : BitVec 16)
  /-- SENSOR_SAMPLE (R402) -/
  | sensorSample (x : SensorReport)
  /-- METER_RECORD (R362) -/
  | meterRecord (energy : Nat) (mw : BitVec 32) (x : RecordPath)
  /-- METER_PULSE_END (R361) -/
  | meterPulseEnd
  /-- METER_CALIBRATION (R358) -/
  | meterCalibration
  /-- METER_INPUT_LOSS (R360) -/
  | meterInputLoss (energy : Nat)
  /-- KEY_EPOCH_ROLLOVER (R319) -/
  | keyEpochRollover (p : Fin 8)
  /-- KEY_DERIVATION_DONE (R321) -/
  | keyDerivationDone (die : Fin 2)
  /-- PASSAGE_STEP_DONE (R312) -/
  | passageStepDone
  /-- PARTITION_CLEANSED (R316) -/
  | partitionCleansed (p : Fin 8)
  /-- PARTITION_ERASED (R316) -/
  | partitionErased (p : Fin 8)
  /-- WENEUS_HELLO (R395) -/
  | weneusHello (m : WenMsg)
  /-- RESPONSE (R395) -/
  | weneusResponse (m : WenMsg)
  /-- READ (R400) -/
  | weneusRead (m : WenMsg)
  /-- WRITE (R400) -/
  | weneusWrite (m : WenMsg)
  /-- SWAP (R390) -/
  | swap (via : Option WenMsg)
  /-- CANCEL (R391) -/
  | cancel (via : Option WenMsg)
  /-- REVERT (R389) -/
  | revert (via : Option WenMsg)
  /-- TELEMETRY (R402) -/
  | telemetry (m : WenMsg)
  /-- LOG_READ (R375) -/
  | logRead (m : WenMsg)
  /-- LOG_CLEAR (R375) -/
  | logClear (m : WenMsg)
  /-- ENTER_SERVICE (R311) -/
  | enterService (m : WenMsg)
  /-- ENTER_ADMITTED (R311) -/
  | enterAdmitted (m : WenMsg)
  /-- ATTEST (R329) -/
  | attest (m : WenMsg)
  /-- KEY_INSTALL (R318) -/
  | keyInstall (m : WenMsg)
  /-- SET_ROLE_KEY (R394) -/
  | setRoleKey (m : WenMsg)
  /-- SET_CAK (R322) -/
  | setCak (m : WenMsg)
  /-- RAISE_SVN (R326) -/
  | raiseSvn (m : WenMsg)
  /-- GET_CERT (R328) -/
  | getCert (m : WenMsg)
  /-- FW_BEGIN (R401) -/
  | fwBegin (m : WenMsg)
  /-- FW_DATA (R398) -/
  | fwData (m : WenMsg)
  /-- FW_END (R398) -/
  | fwEnd (m : WenMsg)
  /-- TEST (R378) -/
  | test (via : TestVia)
  /-- SELF_TEST_DONE (R381) -/
  | selfTestDone
  /-- WARM_RESET (R385) -/
  | warmReset (m : WenMsg)
  /-- FULL_RESET (R384) -/
  | fullReset (m : WenMsg)
  /-- METER_READ (R363) -/
  | meterRead (m : WenMsg)
  /-- WENEUS_CLOSE (R397) -/
  | weneusClose (m : WenMsg)
  /-- SESSION_TIMEOUT (R397) -/
  | sessionTimeout (session : BitVec 32)
  /-- LOCKOUT_EXPIRY (R395) -/
  | lockoutExpiry (role : Byte) (part : Byte)
  /-- ALERT_CLEAR (R382) -/
  | alertClear
  /-- SHADOW_WRITE (R388) -/
  | shadowWrite (addr : BitVec 32) (value : Word)
  /-- REGISTER_WRITE (R6) -/
  | registerWrite (addr : BitVec 32) (value : Word)
  /-- STARTUP_STEP_DONE (R384) -/
  | startupStepDone (r : BootReport)
  /-- VIN_RISE (R414) -/
  | vinRise (mv : Nat)
  /-- VIN_LOW (R414) -/
  | vinLow (mv : Nat)
  /-- VIN_OVER (R414) -/
  | vinOver (mv : Nat)
  /-- RESET_N_FALL (R413) -/
  | resetNFall
  /-- RESET_N_RISE (R413) -/
  | resetNRise (straps : Straps)
  /-- TEST_EN_RISE (R417) -/
  | testEnRise
  /-- TEST_EN_FALL (R417) -/
  | testEnFall
  /-- TAP_RESET (R416) -/
  | tapReset
  /-- EXTEST (R416) -/
  | extest (cells : BitVec 13)
  /-- SAMPLE_PRELOAD (R416) -/
  | samplePreload (cells : BitVec 13)
  /-- IDCODE (R416) -/
  | idcode
  /-- USERCODE (R416) -/
  | usercode
  /-- TLANEA_TEST (R416) -/
  | tlaneaTest (code : BitVec 8)
  /-- BYPASS (R416) -/
  | bypass (code : BitVec 8)
  /-- VEC_DONE (R69) -/
  | vecDone (p : Fin 8) (x : UnitEnd)
  /-- TENSION_HOLD_END (R110) -/
  | tensionHoldEnd (p : Fin 8) (lt : Fin 32)
  /-- OVER_VOLTAGE_LOCKOUT_END (R414) -/
  | overVoltageLockoutEnd (mv : Nat)
  /-- METER_START (R360) -/
  | meterStart (fw : List Byte) (fwVer : BitVec 32) (sig : List Byte)
  /-- METER_SELF_CHECK (R365) -/
  | meterSelfCheck (found : MeterCheck)
  /-- MET_PULSE_START (R361) -/
  | metPulseStart
  /-- MKA (R322) -/
  | mka (port : Fin 8) (icvOk : Bool) (pdu : MkaPdu)
  deriving DecidableEq, Repr

end Sys2Proof
end

