-- ==== Sys2Proof/Decode.lean ====
section
/-! DEFINITION. Commands from table words. The operation table gives no row any bits, so no word spells a command. The
instruction word of R61 to R64 is decoded where a sequencer takes it (`Machine/Operands.lean`). -/
namespace Sys2Proof

/-- The command that a word of the operation table spells: none, as no row gives bits. -/
def decodeTableWord (_nbits _w : Nat) : Option Instr := none

end Sys2Proof
end

