-- ==== Sys2Proof/Config.lean ====
section
/-! DEFINITION. What the spec leaves outside the machine it describes: values fixed at manufacture, algorithms it names
by standard without giving them, and free values. Every constant here is opaque: no proof can see its value, so a claim
holds whatever it is. -/
namespace Sys2Proof.Config

/-- Serial number in the fuses (R406, R319). -/
opaque serial : BitVec 48
/-- MAC of the management port, fused (R406). -/
opaque mgtMac : BitVec 48
/-- Identity certificate of the DEV block's identity store (R328), at most 4,096 bytes by the spec. -/
opaque certificate : List Byte
/-- Fused SVN at manufacture, per component (R326). -/
opaque fusedSvn : Nat → Nat
/-- BOOT_COUNT in MRAM when the model's run begins (R329). -/
opaque bootCount : BitVec 32
/-- NEXT_SEQ in MRAM when the model's run begins (R369). -/
opaque nextSeq : BitVec 64
/-- OPERATOR role key delivered with the module (R394). -/
opaque operatorKey : List Byte
/-- Meter serial number (Table 14-2). -/
opaque meterId : BitVec 32

/-- KMAC256 of NIST SP 800-185 (R318): key, input, output bits, customisation string. -/
opaque kmac256 : List Byte → List Byte → Nat → String → List Byte
/-- SHAKE256 with the given number of output bits. -/
opaque shake256 : List Byte → Nat → List Byte
/-- AES-256-GCM tag: key, nonce, additional data, plaintext (R320, R396). -/
opaque gcmTag : List Byte → List Byte → List Byte → List Byte → BitVec 128
/-- Byte of the AES-256-GCM key stream (counter mode, NIST SP 800-38D): key, nonce, its place. -/
opaque gcmStream : List Byte → List Byte → Nat → Byte
/-- Exclusive or of bytes with a stream from a place on. -/
def xorStream (f : Nat → Byte) : Nat → List Byte → List Byte
  | _, [] => []
  | i, b :: bs => (b ^^^ f i) :: xorStream f (i + 1) bs
/-- AES-256-GCM encryption without the tag, and its decryption, which is the same function: key, nonce, text (R318, R320). -/
def gcmCrypt (key nonce text : List Byte) : List Byte := xorStream (gcmStream key nonce) 0 text
/-- Byte of the AES-256 counter-mode key stream of an I/O die (R317): buffer key, slot address and write count of the counter block, its place. -/
opaque ctrStream : List Byte → Nat → Nat → Nat → Byte
/-- Address of the slot that a write to an I/O die goes to, by the number of the write (R317). -/
opaque slotAddr : Nat → Nat
/-- Nonce of a MACsec frame under GCM-AES-XPN-256 (R322): SAK with its salt, SCI, packet number. -/
opaque xpnNonce : List Byte → BitVec 64 → BitVec 64 → List Byte
/-- A SAK as an MKA frame carries it, wrapped under the key that the CAK gives (R322): CAK, its name, the wrapped key. -/
opaque mkaUnwrap : List Byte → List Byte → List Byte → List Byte
/-- Key derived from the unique device secret that seals the CAK in MRAM (R322). -/
opaque cakKey : List Byte → List Byte
/-- Nonce that the CAK is sealed under (R322). -/
opaque cakNonce : List Byte
/-- Bytes of a Neighbor Advertisement (RFC 4861) behind its MAC addresses: source MAC and source address. -/
opaque advertBytes : Nat → List Byte → List Byte
/-- ML-KEM-1024 key pair from a seed: encapsulation key, decapsulation key (R316). -/
opaque mlkemKeys : List Byte → List Byte × List Byte
/-- ML-KEM-1024 decapsulation: decapsulation key, ciphertext (R318). -/
opaque mlkemDecaps : List Byte → List Byte → List Byte
/-- FN-DSA verification with Falcon-1024 parameters: ROM key slot, message, signature (R324). -/
opaque fndsaVerify : Nat → List Byte → List Byte → Bool
/-- FN-DSA verification with Falcon-1024 parameters under the Tlanea meter key: image, signature (R357). -/
opaque meterVerify : List Byte → List Byte → Bool
/-- The device's unique device secret, in its fuses (R328). -/
opaque uds : List Byte
/-- FN-DSA signature (R329): seed of the key pair, signature nonce, message. -/
opaque fndsaSign : List Byte → List Byte → List Byte → List Byte
/-- The n-th output of the root of trust's CTR_DRBG (R318): 32 bytes. -/
opaque drbg : Nat → List Byte
/-- The meter's read key, under which its records are tagged (R362). -/
opaque meterReadKey : List Byte
/-- Image of component c the module is delivered with (R324). -/
opaque firmware : Nat → List Byte
/-- Contents of the boot ROM (R327). -/
opaque romImage : List Byte
/-- Scan response of a target under self-test: target kind, index, mode, seed, number of the pattern (R379). -/
opaque bistResponse : Nat → Nat → Nat → Nat → Nat → BitVec 128

/-- Free values: the n-th value the spec leaves open in a run (`Device.free` counts them). -/
opaque freeByte : Nat → Byte
/-- Free 64-bit value. -/
opaque freeWord : Nat → BitVec 64
/-- Free choice among finitely many (a Nat the use reduces). -/
opaque freeNat : Nat → Nat

end Sys2Proof.Config
end

