-- ==== Sys2Proof/Machine/Tab.lean ====
section
/-! DEFINITION. Operations on sparse tables and on little-endian bytes: the one place where reading, writing and the
canonical form of a table are fixed, and where byte order is decided (R4, R24: little-endian). -/
namespace Sys2Proof.Machine

/-- The entry of key `k`, or `d` where the table lists none. -/
def tget {α : Type} (d : α) : Tab α → Nat → α
  | [], _ => d
  | (j, v) :: t, k => if j = k then v else tget d t k

/-- Put `v` at `k`, keeping the keys in rising order. -/
def tput {α : Type} (k : Nat) (v : α) : Tab α → Tab α
  | [] => [(k, v)]
  | (j, w) :: t => if k < j then (k, v) :: (j, w) :: t
                   else if k = j then (k, v) :: t
                   else (j, w) :: tput k v t

/-- Take the entry of `k` out. -/
def tdel {α : Type} (k : Nat) : Tab α → Tab α
  | [] => []
  | (j, w) :: t => if j = k then tdel k t else (j, w) :: tdel k t

/-- Write `v` at `k`: the value an unlisted key reads as is not listed. -/
def tset {α : Type} [DecidableEq α] (d : α) (m : Tab α) (k : Nat) (v : α) : Tab α :=
  if v = d then tdel k m else tput k v m

/-- The canonical form: keys strictly rising from `lo` on, no entry equal to the default. -/
def twfFrom {α : Type} [DecidableEq α] (d : α) : Nat → Tab α → Bool
  | _, [] => true
  | lo, (k, v) :: t => decide (lo ≤ k) && decide (v ≠ d) && twfFrom d (k + 1) t

/-- The table is in canonical form. -/
def twf {α : Type} [DecidableEq α] (d : α) (m : Tab α) : Bool := twfFrom d 0 m

/-- Drop every entry whose key the test names. -/
def tdrop {α : Type} (f : Nat → Bool) (m : Tab α) : Tab α := m.filter (fun e => !f e.1)

/-- A table of entries that may be absent: set the entry of `k`. -/
def oset {α : Type} [DecidableEq α] (m : Tab (Option α)) (k : Nat) (v : Option α) : Tab (Option α) := tset none m k v

/-- One byte of a memory: an unlisted address reads as 0. -/
def mget (m : Mem) (a : Nat) : Byte := tget 0#8 m a

/-- Write one byte. -/
def mset (m : Mem) (a : Nat) (b : Byte) : Mem := tset 0#8 m a b

/-- `Memory.wf`: addresses strictly rising, no entry equal to 0. -/
def mwf (m : Mem) : Bool := twf 0#8 m

/-- `n` bytes from address `a` on. -/
def mread (m : Mem) (a n : Nat) : List Byte := (List.range n).map (fun i => mget m (a + i))

/-- Write bytes from address `a` on, in ascending order. -/
def mwrite (m : Mem) : Nat → List Byte → Mem
  | _, [] => m
  | a, b :: bs => mwrite (mset m a b) (a + 1) bs

/-- Every byte of `n` addresses from `a` on becomes 0 (what an unlisted address reads as). -/
def mclear (m : Mem) (a n : Nat) : Mem := tdrop (fun k => decide (a ≤ k) && decide (k < a + n)) m

/-- The bytes of `n` addresses from `a` on, by their place there. -/
def mslice (m : Mem) (a n : Nat) : Mem :=
  (m.filter (fun e => decide (a ≤ e.1) && decide (e.1 < a + n))).map (fun e => (e.1 - a, e.2))

/-- The unsigned value of little-endian bytes. -/
def leNat : List Byte → Nat
  | [] => 0
  | b :: bs => b.toNat + 256 * leNat bs

/-- `n` little-endian bytes of a value (taken mod 2^(8n)). -/
def toLe : Nat → Nat → List Byte
  | 0, _ => []
  | n + 1, v => BitVec.ofNat 8 v :: toLe n (v / 256)

/-- The little-endian value of `n` bytes at offset `o` of a byte list (bytes past its end read as 0). -/
def fld (bs : List Byte) (o n : Nat) : Nat := leNat ((List.range n).map (fun i => bs.getD (o + i) 0#8))

/-- Are the `n` bytes at offset `o` all zero (reserved bytes, R24)? -/
def zeros (bs : List Byte) (o n : Nat) : Bool := (List.range n).all (fun i => decide (bs.getD (o + i) 0#8 = 0#8))

/-- Bits [hi:lo] of a value. -/
def bits (v hi lo : Nat) : Nat := (v / 2 ^ lo) % 2 ^ (hi - lo + 1)

/-- Bit `i` of a value. -/
def bit (v i : Nat) : Bool := decide (bits v i i = 1)

/-- x rounded up to a multiple of 64 (ceil64 of R99). -/
def ceil64 (x : Nat) : Nat := (x + 63) / 64 * 64

/-- Quotient rounded up. -/
def cdiv (a b : Nat) : Nat := (a + b - 1) / b

/-- Add, saturating at `top` (counters of the register space saturate). -/
def satAdd (top a b : Nat) : Nat := if a + b ≤ top then a + b else top

/-- The value of `w`-bit two's complement `v`. -/
def toInt (w v : Nat) : Int := if v % 2 ^ w < 2 ^ (w - 1) then (v % 2 ^ w : Nat) else (v % 2 ^ w : Nat) - (2 ^ w : Nat)

/-- `w`-bit two's complement of an integer. -/
def ofInt (w : Nat) (i : Int) : Nat := (i % (2 ^ w : Nat)).toNat

/-- Are a list's numbers strictly ascending? -/
def ascending : List Nat → Bool
  | [] => true
  | [_] => true
  | a :: b :: t => decide (a < b) && ascending (b :: t)

/-- Replace the first element that the test names. -/
def replaceFirst {α : Type} (f : α → Bool) (g : α → α) : List α → List α
  | [] => []
  | a :: t => if f a then g a :: t else a :: replaceFirst f g t

/-- Take out the first element that the test names. -/
def dropFirst {α : Type} (f : α → Bool) : List α → List α
  | [] => []
  | a :: t => if f a then t else a :: dropFirst f t

/-- Index of the first element that the test names. -/
def indexOf? {α : Type} (f : α → Bool) : List α → Option Nat
  | [] => none
  | a :: t => if f a then some 0 else (indexOf? f t).map (· + 1)

end Sys2Proof.Machine
end

