-- ==== Sys2Proof/Machine/Num.lean ====
section
/-! DEFINITION. Numbers: exact values (sign, magnitude m * 2^e, signed zero, infinities, NaN), the formats of Table 5-1,
the rounding helpers rn and sr of R128, block scales (R130, R131), the group sum and accumulation of R135 to R140,
ply (R147), and the exact operations the pseudocode of the chapters composes (R8: exact until a named helper rounds). -/
namespace Sys2Proof.Machine

/-- An exact value of the pseudocode: a NaN, an infinity, or sign and magnitude m * 2^e (m = 0 is a signed zero). -/
inductive Val where
  | nan
  | inf (neg : Bool)
  | fin (neg : Bool) (m : Nat) (e : Int)
  deriving DecidableEq, Repr

/-- +0. -/
def vzero : Val := .fin false 0 0
/-- An integer as a value. -/
def vnat (n : Nat) : Val := .fin false n 0
/-- 1. -/
def vone : Val := vnat 1

/-- m * 2^e scaled to the exponent `x` (x ≤ e). -/
def scaleTo (m : Nat) (e x : Int) : Nat := m * 2 ^ (e - x).toNat

/-- Compare the magnitudes m * 2^e and n * 2^f. -/
def magLt (m : Nat) (e : Int) (n : Nat) (f : Int) : Bool :=
  let x := min e f
  decide (scaleTo m e x < scaleTo n f x)

/-- Is the value zero? -/
def vIsZero : Val → Bool
  | .fin _ m _ => decide (m = 0)
  | _ => false
/-- Is the value a NaN? -/
def vIsNan : Val → Bool
  | .nan => true
  | _ => false
/-- Is the value an infinity? -/
def vIsInf : Val → Bool
  | .inf _ => true
  | _ => false
/-- Is the value NaN or infinite? -/
def vNonfin (v : Val) : Bool := vIsNan v || vIsInf v

/-- Sign bit of a value (false for NaN). -/
def vNeg : Val → Bool
  | .nan => false
  | .inf n => n
  | .fin n _ _ => n

/-- -x, sign changed. -/
def vneg : Val → Val
  | .nan => .nan
  | .inf n => .inf (!n)
  | .fin n m e => .fin (!n) m e

/-- abs(x). -/
def vabs : Val → Val
  | .nan => .nan
  | .inf _ => .inf false
  | .fin _ m e => .fin false m e

/-- Exact product; infinity times zero is NaN (R134). -/
def vmul : Val → Val → Val
  | .nan, _ => .nan
  | _, .nan => .nan
  | .inf a, .inf b => .inf (a != b)
  | .inf a, .fin b m _ => if m = 0 then .nan else .inf (a != b)
  | .fin a m _, .inf b => if m = 0 then .nan else .inf (a != b)
  | .fin a m e, .fin b n f => .fin (a != b) (m * n) (e + f)

/-- The signed integer of a finite value at exponent x. -/
def signedAt (n : Bool) (m : Nat) (e x : Int) : Int := if n then -(scaleTo m e x : Nat) else (scaleTo m e x : Nat)

/-- Exact sum of two finite values; an exact zero gets the sign `z`. -/
def finAdd (z : Bool) (a : Bool) (m : Nat) (e : Int) (b : Bool) (n : Nat) (f : Int) : Val :=
  let x := min e f
  let s := signedAt a m e x + signedAt b n f x
  if s = 0 then .fin z 0 0 else .fin (decide (s < 0)) s.natAbs x

/-- Exact sum in the reference order: infinities of opposite signs give NaN, a zero sum is +0 (R129, R134). -/
def vadd : Val → Val → Val
  | .nan, _ => .nan
  | _, .nan => .nan
  | .inf a, .inf b => if a = b then .inf a else .nan
  | .inf a, .fin _ _ _ => .inf a
  | .fin _ _ _, .inf b => .inf b
  | .fin a m e, .fin b n f => finAdd false a m e b n f

/-- Exact sum by IEEE 754 (the vector unit, R134): as `vadd`, but -0 + -0 is -0. -/
def vaddIeee : Val → Val → Val
  | .fin a m e, .fin b n f => if m = 0 ∧ n = 0 then .fin (a && b) 0 0 else finAdd false a m e b n f
  | a, b => vadd a b

/-- a - b in the reference order. -/
def vsub (a b : Val) : Val := vadd a (vneg b)

/-- a < b as real values (NaN: false; +0 and -0 equal). -/
def vlt : Val → Val → Bool
  | .nan, _ => false
  | _, .nan => false
  | .inf a, .inf b => a && !b
  | .inf a, .fin _ _ _ => a
  | .fin _ _ _, .inf b => !b
  | .fin a m e, .fin b n f =>
    let x := min e f
    decide (signedAt a m e x < signedAt b n f x)

/-- a ≤ b as real values. -/
def vle (a b : Val) : Bool := !vIsNan a && !vIsNan b && !vlt b a

/-- floor(log2(num / den)) for positive num and den. -/
def ratLog2 (num den : Nat) : Int :=
  let k : Int := (Nat.log2 num : Int) - (Nat.log2 den : Int)
  if den * 2 ^ k.toNat ≤ num * 2 ^ (-k).toNat then k else k - 1

/-- floor(log2(abs(x))) of a finite nonzero value. -/
def vLog2 : Val → Int
  | .fin _ m e => (Nat.log2 m : Int) + e
  | _ => 0

/-- Rounding parameters of a format (Table 5-2): p, emin, largest finite lm * 2^le, and what exceeds it. -/
structure RFmt where
  p : Nat
  emin : Int
  lm : Nat
  le : Int
  toInf : Bool
  deriving DecidableEq, Repr

/-- Table 5-2 by format code (R124). Codes 0xA to 0xF are reserved. -/
def rfmt : Nat → RFmt
  | 0x0 => ⟨24, -126, 2 ^ 24 - 1, 104, true⟩
  | 0x1 => ⟨8, -126, 2 ^ 8 - 1, 120, true⟩
  | 0x2 => ⟨11, -14, 2 ^ 11 - 1, 5, true⟩
  | 0x3 => ⟨4, -6, 448, 0, false⟩
  | 0x4 => ⟨3, -14, 57344, 0, false⟩
  | 0x5 => ⟨3, -2, 28, 0, false⟩
  | 0x6 => ⟨4, 0, 15, -1, false⟩
  | 0x7 => ⟨2, 0, 6, 0, false⟩
  | 0x8 => ⟨7, 0, 127, -6, false⟩
  | _ => ⟨53, -1022, 2 ^ 53 - 1, 971, true⟩

/-- emax of a narrow format (Table 5-2), used by choose_scale. -/
def emaxOf : Nat → Int
  | 0x3 => 8
  | 0x4 => 15
  | 0x5 => 4
  | 0x6 => 2
  | 0x7 => 2
  | 0x8 => 0
  | 0x1 => 127
  | 0x2 => 15
  | 0x0 => 127
  | _ => 1023

/-- overflow of R128: beyond the largest finite, infinity in wide formats and the largest finite in narrow ones. -/
def overflow (neg : Bool) (n : Nat) (q : Int) (f : RFmt) : Val :=
  if magLt f.lm f.le n q then (if f.toInf then .inf neg else .fin neg f.lm f.le) else .fin neg n q

/-- A rounding: to nearest even, or stochastic with `nb` random bits `r` (R128). -/
inductive Rounding where
  | nearest
  | stochastic (r nb : Nat)
  deriving DecidableEq, Repr

/-- Round the positive rational num / den * 2^e to a format, with the sign `neg` (rn and sr of R128). -/
def roundRat (f : RFmt) (md : Rounding) (neg : Bool) (num den : Nat) (e : Int) : Val :=
  let lg := max (ratLog2 num den + e) f.emin
  let q := lg - (f.p : Int) + 1
  let sh := e - q
  let a := num * 2 ^ sh.toNat
  let d := den * 2 ^ (-sh).toNat
  let n := a / d
  let r := a % d
  let up := match md with
    | .nearest => decide (d < 2 * r) || (decide (2 * r = d) && decide (n % 2 = 1))
    | .stochastic rb nb => decide (2 ^ nb ≤ r * 2 ^ nb / d + rb)
  overflow neg (if up then n + 1 else n) q f

/-- Round a value to a format: a zero keeps its sign, NaN and infinities pass (R128, R134). -/
def vround (f : RFmt) (md : Rounding) : Val → Val
  | .fin n m e => if m = 0 then .fin n 0 0 else roundRat f md n m 1 e
  | v => v

/-- rn(x, f) of R128. -/
def rn (code : Nat) (v : Val) : Val := vround (rfmt code) .nearest v
/-- sr(x, f, r, nb) of R128. -/
def sr (code r nb : Nat) (v : Val) : Val := vround (rfmt code) (.stochastic r nb) v
/-- rn32. -/
def rn32 (v : Val) : Val := rn 0x0 v
/-- rn64. -/
def rn64 (v : Val) : Val := rn 0x9 v

/-- x * 2^k. -/
def vscale (v : Val) (k : Int) : Val :=
  match v with
  | .fin n m e => .fin n m (e + k)
  | w => w

/-- The quotient a / b rounded once to a format (IEEE 754 for zeros and infinities). -/
def rnDiv (code : Nat) : Val → Val → Val
  | .nan, _ => .nan
  | _, .nan => .nan
  | .inf _, .inf _ => .nan
  | .inf a, .fin b _ _ => .inf (a != b)
  | .fin a _ _, .inf b => .fin (a != b) 0 0
  | .fin a m e, .fin b n f =>
    if n = 0 then (if m = 0 then .nan else .inf (a != b))
    else if m = 0 then .fin (a != b) 0 0
    else roundRat (rfmt code) .nearest (a != b) m n (e - f)

/-- Integer square root by bits: the largest r below 2^k with r * r ≤ n, built from the top bit down. -/
def isqrtBits (n : Nat) : Nat → Nat → Nat
  | 0, r => r
  | k + 1, r => let t := r + 2 ^ k
                if t * t ≤ n then isqrtBits n k t else isqrtBits n k r

/-- floor(sqrt(n)). -/
def isqrt (n : Nat) : Nat := isqrtBits n (Nat.log2 n / 2 + 1) 0

/-- sqrt(num / den * 2^(2h)), rounded once: the root is taken to 130 or more bits, and a root that is not exact is
stood for by the middle of the interval it lies in, which no format boundary meets. -/
def rootRat (code : Nat) (neg : Bool) (num den : Nat) (h : Int) : Val :=
  let k := 140 + Nat.log2 den
  let n := num * 2 ^ (2 * k)
  let s := isqrt (n / den)
  if s * s * den = n then roundRat (rfmt code) .nearest neg s 1 (h - (k : Int))
  else roundRat (rfmt code) .nearest neg (2 * s + 1) 1 (h - (k : Int) - 1)

/-- sqrt(x) rounded once (R87, R214): -0 keeps its sign, a negative gives NaN (Table 5-3, R134). -/
def rnSqrt (code : Nat) : Val → Val
  | .nan => .nan
  | .inf n => if n then .nan else .inf false
  | .fin n m e =>
    if m = 0 then .fin n 0 0
    else if n then .nan
    else if e % 2 = 0 then rootRat code false m 1 (e / 2) else rootRat code false (2 * m) 1 ((e - 1) / 2)

/-- 1 / sqrt(x) rounded once (Table 5-3). -/
def rnRsqrt (code : Nat) : Val → Val
  | .nan => .nan
  | .inf n => if n then .nan else .fin false 0 0
  | .fin n m e =>
    if m = 0 then .inf n
    else if n then .nan
    else if e % 2 = 0 then rootRat code false 1 m (-(e / 2)) else rootRat code false 1 (2 * m) (-((e - 1) / 2))

/-- 1 / x rounded once (Table 5-3). -/
def rnRcp (code : Nat) (v : Val) : Val := rnDiv code vone v

/-- sum for i ≤ n of a^i * b^(n-i) * n! / i!, with n! * b^n as its common denominator, by Horner from the last term. -/
def expHorner (a b : Nat) : Nat → Nat → Nat → Nat × Nat
  | 0, num, den => (num, den)
  | i + 1, num, den => expHorner a b i (den * b * (i + 1) + a * num) (den * b * (i + 1))

/-- Bounds of e^y for y = a / b ≥ 0 by 600 terms of the series: lower bound num / den, and the same with the
remainder bound 1 / 2^200 of it added (for y ≤ 128 the remainder is far below that). -/
def expBounds (a b : Nat) : (Nat × Nat) × (Nat × Nat) :=
  let lo := expHorner a b 600 1 1
  (lo, (lo.1 * (2 ^ 200 + 1), lo.2 * 2 ^ 200))

/-- e^x rounded once to binary32 (R87): exact for 0, limits outside -110 to 90, the series' bounds between. Where the
two bounds would round apart the lower one is taken (DEDUCED: for binary32 operands they never do). -/
def rnExp32 : Val → Val
  | .nan => .nan
  | .inf n => if n then .fin false 0 0 else .inf false
  | .fin n m e =>
    if m = 0 then vone
    else if magLt 110 0 m e then (if n then .fin false 0 0 else .inf false)
    else
      let b := expBounds (m * 2 ^ e.toNat) (2 ^ (-e).toNat)
      if n then roundRat (rfmt 0) .nearest false b.1.2 b.1.1 0
      else roundRat (rfmt 0) .nearest false b.1.1 b.1.2 0

/-- Exponent bits, mantissa bits and bias of a floating format (Table 5-1). -/
def fmtShape : Nat → Nat × Nat × Int
  | 0x0 => (8, 23, 127)
  | 0x1 => (8, 7, 127)
  | 0x2 => (5, 10, 15)
  | 0x3 => (4, 3, 7)
  | 0x4 => (5, 2, 15)
  | 0x5 => (3, 2, 3)
  | 0x6 => (2, 3, 1)
  | 0x7 => (2, 1, 1)
  | _ => (11, 52, 1023)

/-- Value of a code (Table 5-1, R125): without its block scale. -/
def decodeFmt (code v : Nat) : Val :=
  if code = 0x8 then
    let i := toInt 8 v
    .fin (decide (i < 0)) i.natAbs (-6)
  else
    let (eb, mb, bias) := fmtShape code
    let mant := v % 2 ^ mb
    let ex := v / 2 ^ mb % 2 ^ eb
    let neg := decide (v / 2 ^ (mb + eb) % 2 = 1)
    let special := ex = 2 ^ eb - 1 ∧ (code = 0x0 ∨ code = 0x1 ∨ code = 0x2 ∨ code = 0x4 ∨ code = 0x9)
    if special then (if mant = 0 then .inf neg else .nan)
    else if code = 0x3 ∧ ex = 15 ∧ mant = 7 then .nan
    else if ex = 0 then .fin neg mant (1 - bias - (mb : Int))
    else .fin neg (mant + 2 ^ mb) ((ex : Int) - bias - (mb : Int))

/-- The canonical quiet NaN of a format (R134). -/
def nanCode : Nat → Nat
  | 0x0 => 0x7FC00000
  | 0x1 => 0x7FC0
  | 0x2 => 0x7E00
  | 0x3 => 0x7F
  | 0x4 => 0x7E
  | 0x9 => 0x7FF8000000000000
  | _ => 0

/-- Code of a value that the format holds (a value already rounded to it). -/
def encodeFmt (code : Nat) : Val → Nat
  | .nan => nanCode code
  | .inf n =>
    let (eb, mb, _) := fmtShape code
    (if n then 2 ^ (mb + eb) else 0) + (2 ^ eb - 1) * 2 ^ mb
  | .fin n m e =>
    if code = 0x8 then
      let k := m * 2 ^ (e + 6).toNat / 2 ^ (-(e + 6)).toNat
      ofInt 8 (if n then -(k : Int) else k)
    else
      let (eb, mb, bias) := fmtShape code
      let s := if n then 2 ^ (mb + eb) else 0
      if m = 0 then s
      else
        let lg := (Nat.log2 m : Int) + e
        let x := max lg (1 - bias)
        let k := m * 2 ^ (e - (x - (mb : Int))).toNat / 2 ^ ((x - (mb : Int)) - e).toNat
        if lg < 1 - bias then s + k else s + ((lg + bias).toNat) * 2 ^ mb + (k - 2 ^ mb)

/-- Round to nearest even and encode. -/
def enc (code : Nat) (v : Val) : Nat := encodeFmt code (rn code v)

/-- Bytes per element times two (E2M1 takes half a byte, R99). -/
def halfBytes : Nat → Nat
  | 0x0 => 8
  | 0x1 => 4
  | 0x2 => 4
  | 0x7 => 1
  | 0x9 => 16
  | _ => 2

/-- Bytes that n elements take. -/
def elemBytes (code n : Nat) : Nat := (n * halfBytes code + 1) / 2

/-- Is the format block-scaled (R126)? -/
def scaled (code : Nat) : Bool := decide (3 ≤ code) && decide (code ≤ 8)

/-- Block size of a block size code (R126). -/
def blockOf (bsz : Nat) : Nat := 16 * 2 ^ bsz

/-- Value of an E8M0 scale byte; 0xFF is NaN (R126). -/
def scaleVal (s : Nat) : Val := if s = 0xFF then .nan else .fin false 1 ((s : Int) - 127)

/-- Raw code of element i of a packed data plane given as bytes (R125). -/
def rawElem (code : Nat) (bs : List Byte) (i : Nat) : Nat :=
  if code = 0x7 then (fld bs (i / 2) 1) / (if i % 2 = 0 then 1 else 16) % 16
  else if code = 0x5 ∨ code = 0x6 then fld bs i 1 % 64
  else fld bs (i * (halfBytes code / 2)) (halfBytes code / 2)

/-- Value of an element with its block's scale byte, taken exactly (R126). -/
def scaledVal (code raw s : Nat) : Val :=
  if scaled code then (if s = 0xFF then .nan else vscale (decodeFmt code raw) ((s : Int) - 127)) else decodeFmt code raw

/-- Least power-of-two bound used by choose_scale. -/
def maxMag : List Val → Val
  | [] => vzero
  | v :: t => let w := maxMag t
              if vlt w (vabs v) then vabs v else w

/-- choose_scale of R130. -/
def chooseScale (vs : List Val) (code : Nat) : Nat :=
  if vs.any vNonfin then 0xFF
  else
    let a := maxMag vs
    if vIsZero a then 0x7F
    else (min (max (vLog2 a - emaxOf code) (-127)) 127 + 127).toNat

/-- quantize of R130: the scale byte and the codes of one block; `rs i` is the rounding of element i. -/
def quantize (vs : List Val) (code : Nat) (rs : Nat → Rounding) : Nat × List Nat :=
  let c := chooseScale vs code
  if c = 0xFF then (c, vs.map (fun _ => 0))
  else (c, vs.zipIdx.map (fun (v, i) => encodeFmt code (vround (rfmt code) (rs i) (vscale v (127 - (c : Int))))))

/-- Pack raw codes into bytes (R125); an odd E2M1 count leaves the high nibble of the last byte 0. -/
def packElems (code : Nat) : List Nat → List Byte
  | [] => []
  | [a] => toLe ((halfBytes code + 1) / 2) a
  | a :: b :: t => if code = 0x7 then BitVec.ofNat 8 (a % 16 + 16 * (b % 16)) :: packElems code t
                   else toLe (halfBytes code / 2) a ++ packElems code (b :: t)

/-- ply_round of R147. -/
def plyRound (x v m : Nat) : Nat :=
  let y := (x ^^^ v) * m % 2 ^ 64
  y ^^^ (y / 2 ^ 28)

/-- ply of R147: 16 random bits. -/
def ply (seed step tid idx : Nat) : Nat :=
  let x := plyRound 0 seed 0x0000100000100001
  let x := plyRound x (step * 2 ^ 32 + tid) 0x0000001000001001
  let x := plyRound x idx 0x0010000001000001
  let x := plyRound x 0 0x0000010000010001
  x / 2 ^ 48

/-- The stochastic rounding of an element under ply: 16 bits, or 8 bits under COMPAT (R150). -/
def plyRounding (compat : Bool) (seed step tid idx : Nat) : Rounding :=
  let r := ply seed step (tid % 2 ^ 32) (idx % 2 ^ 64)
  if compat then .stochastic (r / 256) 8 else .stochastic r 16

/-- tag_check of R179. -/
def tagCheck (tag exch step : Nat) : Nat :=
  let w := exch * 2 ^ 48 + tag % 2 ^ 48
  let x := plyRound 0 w 0x0000100000100001
  let x := plyRound x step 0x0000001000001001
  x / 2 ^ 48

/-- floor(v / 2^k) as an integer, toward minus infinity. -/
def floorAt (k : Int) : Val → Int
  | .fin n m e => (signedAt n (m * 2 ^ (e - k).toNat) 0 0) / ((2 : Int) ^ (k - e).toNat)
  | _ => 0

/-- Greatest exponent of the nonzero products. -/
def topExp : List Val → Option Int
  | [] => none
  | v :: t => match v, topExp t with
    | .fin _ m e, o => if m = 0 then o else some (match o with
        | some x => max x ((Nat.log2 m : Int) + e)
        | none => (Nat.log2 m : Int) + e)
    | _, o => o

/-- groupsum of R135 over element pairs; `code` is the accumulator's format, 0x0 for A32 and 0x9 for A64. -/
def groupsum (ab : List (Val × Val)) (code : Nat) (bias : Int) : Val :=
  if ab.any (fun p => vIsNan p.1 || vIsNan p.2) then .nan
  else
    let ps := ab.map (fun p => vmul p.1 p.2)
    if ps.any vIsNan then .nan
    else if ps.contains (.inf true) && ps.contains (.inf false) then .nan
    else if ps.contains (.inf true) then .inf true
    else if ps.contains (.inf false) then .inf false
    else match topExp ps with
      | none => vzero
      | some e =>
        let s := (ps.map (floorAt (e - 48))).sum
        rn code (if s = 0 then vzero else .fin (decide (s < 0)) s.natAbs (e - 48 + bias))

/-- One addition of the reference order, rounded once (R137). -/
def accAdd (code : Nat) (a t : Val) : Val := rn code (vadd a t)

/-- Does a result overflow (R139)? For A64, a magnitude of at least 2^128 - 2^103 does. -/
def overflows (code : Nat) (v : Val) : Bool :=
  match v with
  | .inf _ => true
  | .nan => false
  | .fin _ m e => decide (code = 0x9) && !magLt m e (2 ^ 25 - 1) 103

/-- An accumulator with its overflow watch (R139): the value, whether an operand or the accumulator was NaN or
infinite before, and whether an overflow was found. -/
structure Acc where
  v : Val
  dirty : Bool
  ovf : Bool
  deriving DecidableEq, Repr

/-- Enter one group sum into an accumulator (R137, R139). -/
def accGroup (code : Nat) (bias : Int) (a : Acc) (ab : List (Val × Val)) : Acc :=
  let dirty := a.dirty || vNonfin a.v || ab.any (fun p => vNonfin p.1 || vNonfin p.2)
  let t := groupsum ab code bias
  let r := accAdd code a.v t
  ⟨r, dirty, a.ovf || (!dirty && (overflows code t || overflows code r))⟩

/-- Enter one already rounded term (R140, step 4; R142): its stored value times 2^k, rounded, then added; the addition is
tested for overflow (R139, R160). -/
def accTerm (code : Nat) (k : Int) (a : Acc) (x : Val) : Acc :=
  let dirty := a.dirty || vNonfin a.v || vNonfin x
  let r := accAdd code a.v (rn code (vscale x k))
  ⟨r, dirty, a.ovf || (!dirty && overflows code r)⟩

/-- Cut a list into pieces of n, the last one padded with (0, 0) pairs to n (R98). -/
def groups32 (ab : List (Val × Val)) : List (List (Val × Val)) :=
  (List.range (cdiv ab.length 32)).map (fun g => (List.range 32).map (fun j => ab.getD (32 * g + j) (vzero, vzero)))

/-- powi of R214: n ≥ 0, each product rounded with rn64. -/
def powi (x : Val) (n : Nat) : Val := powiGo (Nat.log2 n + 1) n x vone
where
  /-- the loop: fuel, n, x, r -/
  powiGo : Nat → Nat → Val → Val → Val
    | 0, _, _, r => r
    | k + 1, n, x, r =>
      if n = 0 then r
      else powiGo k (n / 2) (rn64 (vmul x x)) (if n % 2 = 1 then rn64 (vmul r x) else r)

/-- sign of R214: +1, -1, or 0 (NaN stays NaN). -/
def vsign : Val → Val
  | .nan => .nan
  | .inf n => .fin n 1 0
  | .fin n m _ => if m = 0 then vzero else .fin n 1 0

end Sys2Proof.Machine
end

