-- ==== Sys2Proof/Machine/State.lean ====
section
/-! DEFINITION. The state of the A32: everything the spec gives the machine, as plain data. The management registers of
R405 stand in `Device.regs` by address, each word whole; what the units hold beside them stands in the structures below.
A field cites the rule that names it. -/
namespace Sys2Proof.Machine

/-- Why the machine stops with a fault. No command raises one: every fault the spec describes is recorded at the
completion arbiter, in an error record or in a reply, and the machine goes on; so the one constructor is raised by
nobody (safe). -/
inductive Fault where
  /-- Raised by no command (safe). -/
  | unraised
  deriving DecidableEq, Repr

/-- Why a command has no meaning. -/
inductive Refusal where
  /-- An arm of `exec` that has no meaning yet: raised only by such an arm (safe). -/
  | notModelled (mnemonic : String)
  deriving DecidableEq, Repr

/-- Cause codes of Table 2-12. -/
inductive Cause where
  | none | hostAbort | peerFault | tileRetired | ue | stale | bounds | poisonRead | illegalInstr | evtOverflow
  | torn | queueFlush | fatal
  deriving DecidableEq, Repr

/-- Work-item states of Table 2-11. -/
inductive WiState where
  | queued | running | completed | aborted | retry | faulted
  deriving DecidableEq, Repr

/-- Where a handle's granules lie (R259): in the partition's spread space, or in one stack, under the channel list
current when it was mapped (channel c of stack s is 32 * s + c). `segs`: first index and number of the granule indexes the
handle holds in that space, in the order of its granules. -/
structure Placement where
  spread : Bool
  stack : Nat
  list : List Nat
  segs : List (Nat × Nat)
  deriving DecidableEq, Repr

/-- A handle table entry (Table 2-6) with its placement. -/
structure HEntry where
  cls : Nat
  access : Nat
  localLt : Nat
  size : Nat
  place : Placement
  deriving DecidableEq, Repr

/-- A work item (R51 to R53): its LAUNCH, its steps, its state and first cause, the granules poisoned; `later` counts the
causes recorded after the first; `mute`: its LAUNCH flow is gone, and unsolicited messages for it are dropped (R304). -/
structure WorkItem where
  id : Nat
  flow : BitVec 16
  reqSeq : BitVec 32
  jobId : BitVec 32
  startStep : Nat
  stepCount : Nat
  state : WiState
  cause : Cause
  later : Nat
  lastStep : Nat
  poisoned : Nat
  mute : Bool
  deriving DecidableEq, Repr

/-- The open job of a partition (R29 to R32): its descriptor, NEXT_STEP and LAST_STEP. -/
structure Job where
  jobId : BitVec 32
  desc : List Byte
  nextStep : Nat
  lastStep : Nat
  deriving DecidableEq, Repr

/-- An operation's completion field (R66): the counter to post, if any. -/
abbrev CF := Option Nat

/-- A MOVE in a stream engine's queue, with the values read at issue (R65, R78). -/
structure MoveOp where
  id : Nat
  kind : Nat
  lease : Nat
  as : Word
  ad : Word
  ai : Word
  len : Nat
  rows : Nat
  sstr : Nat
  dstr : Nat
  cf : CF
  deriving DecidableEq, Repr

/-- A matrix pass (R81): `conv` names the engine of a window stream and `win` the addresses MOVE.WIN armed it with;
`first`: issued while no other pass stood in the queue (Table 4-11). -/
structure Pass where
  id : Nat
  ag : Nat
  fa : Nat
  fb : Nat
  bsz : Nat
  kch : Nat
  aa : Word
  ab : Word
  conv : Option Nat
  win : Option (Word × Word)
  first : Bool
  cf : CF
  deriving DecidableEq, Repr

/-- What a register set of the weight store holds (R101): the operand of pass `op`, which stands at `base` in the
scratchpad, its bytes by their place in the operand, and how bytes of the partial-sum region read when it was cast on
(`psFree` of the logical tile). `both`: a wide pass's weights, which fill the two sets together (R102). -/
structure WSet where
  op : Nat
  base : Nat
  data : Mem
  psFree : Option Nat
  both : Bool
  deriving DecidableEq, Repr

/-- A pass that has begun and whose results are not written, with the weights it computes from. -/
structure Begun where
  q : Pass
  w : WSet
  deriving DecidableEq, Repr

/-- An operation in the arrays' queue (R67): open, pass, close, grouped walk. -/
inductive ArrOp where
  | openG (id ag m acc : Nat) (init : Bool) (ai : Word)
  | pass (p : Pass)
  | close (id ag : Nat) (ad : Word) (cf : CF)
  | walk (id wid : Nat) (cf : CF)
  deriving DecidableEq, Repr

/-- What a vector-unit operation does when it finishes: write a register, store, load, or a conversion. -/
inductive VecDo where
  | reg (vd : Nat) (lanes : List (BitVec 32))
  | scal (sd : Nat) (v : Word)
  | load (vd : Nat) (am : Word)
  | store (am : Word) (lanes : List (BitVec 32))
  | cvt (op fs fd bsz cnt : Nat) (as ad : Word) (stid : Nat) (sidx : Nat) (cf : CF)
  deriving DecidableEq, Repr

/-- An operation in the vector unit's queue, with its opcode. -/
structure VecOp where
  id : Nat
  opc : Nat
  act : VecDo
  deriving DecidableEq, Repr

/-- An operation in the route unit's queue (R89). -/
structure RouteOp where
  id : Nat
  op : Nat
  as : Word
  ad : Word
  ax : Word
  s1 : Nat
  s2 : Nat
  s3 : Nat
  k2 : Bool
  cf : CF
  deriving DecidableEq, Repr

/-- An XCHG or UPD operation that has been issued and has not completed. -/
structure OpenOp where
  id : Nat
  kind : Nat
  au : Word
  cf : CF
  deriving DecidableEq, Repr

/-- An accumulation group (R106, R151, Table 6-1), opened by MMA.OPEN number `oid`: `sums` are its partial sums, value 1024 * m + n at that index. Where
in the partial-sum region the device places them is open (`LTile.psFree`). -/
structure Group where
  oid : Nat
  m : Nat
  acc : Nat
  init : Bool
  ai : Word
  bias : Int
  recomp : Nat
  gauge : Bool
  sums : Tab Word
  deriving DecidableEq, Repr

/-- An active loop (R74): body offsets, iterations still to run, call level. -/
structure Loop where
  first : Nat
  last : Nat
  left : Nat
  level : Nat
  deriving DecidableEq, Repr

/-- A pending post (R48, R50): an increment, or a NOTICE to the host, and the operations it waits for. -/
structure Post where
  host : Bool
  tgt : Nat
  ctr : Nat
  inc : Nat
  value : BitVec 32
  waits : List Nat
  deriving DecidableEq, Repr

/-- Why a logical tile does not go on: nothing, SYNC.WAIT, CTL.SEAM, end of its stream, a stop (R55), its own fault
after the contribution (R56). -/
inductive Blocked where
  | none
  | wait (ctr : Nat) (target : Nat)
  | seam (sd : Nat)
  | ended
  | stopped
  | halted
  deriving DecidableEq, Repr

/-- Why the sequencer holds an instruction at issue: its unit's queue (R67), a register (R69), a stack or channel that does
not serve yet what the exchange or update queue reads as it takes the operation (R346). -/
inductive Hold where
  | queueFull
  | register
  | notRunning
  | memory
  deriving DecidableEq, Repr

/-- A window stream armed in an engine (R80): its MOVE.WIN, input and descriptor addresses, whether an MMA.CONV has
consumed it. -/
structure Window where
  id : Nat
  as : Word
  ai : Word
  used : Bool
  deriving DecidableEq, Repr

/-- A logical tile (R45 to R49, R61 to R94, R151, R152). `ags`: number of the MMA.OPEN, rows and format of the groups open
at issue (R83); `groups`: the groups the arrays hold; `passes`: the pass record; `begun`: passes begun and not yet
written, oldest first, which stand at the front of `arr`; `wact`, `wsh`: the weight store's active and shadow sets
(R101); `wide`: the last pass begun was a wide one (R102); `psFree`:
the partial-sum region's bytes are open since the device placed groups there (R106), free values from that number on. -/
structure LTile where
  s : Tab Word
  a : Tab Word
  v : Tab (List (BitVec 32))
  ctr : Tab (BitVec 32)
  pc : Nat
  calls : List Nat
  loops : List Loop
  block : Blocked
  hold : Option Hold
  nextOp : Nat
  moves : Tab (List MoveOp)
  arr : List ArrOp
  vec : List VecOp
  rte : List RouteOp
  xch : List OpenOp
  upd : List OpenOp
  ags : Tab (Option (Nat × Nat × Nat))
  groups : Tab (Option Group)
  passes : List Pass
  armed : Tab (Option Window)
  posts : List Post
  gaugePart : Option Word
  gaugeFlag : Bool
  hinted : Bool
  begun : List Begun
  wact : Option WSet
  wsh : Option WSet
  flips : Nat
  wide : Bool
  psFree : Option Nat
  deriving DecidableEq, Repr

/-- A physical tile: the logical tiles it hosts (LT_A first), which of them runs, retirement, and the array current
(R109, R110: level 4 is full, 0 idle); `remaps`: the DPU remaps of its arrays, newest first (R120): array, logical DPU, number
of the spare DPU of that array it maps to; `area`: the stack whose tile save area it borrows (R43); `held`: a unit of a walk stands between
two passes, and the next begins once no drop check of the arrays waits (R121). -/
structure PTile where
  part : Option Nat
  hosted : List Nat
  run : Nat
  switching : Bool
  retired : Bool
  retiring : Bool
  level : Nat
  gap : Nat
  holdCyc : Nat
  ramping : Bool
  release : Bool
  paused : Bool
  tcyc : Nat
  remaps : List (Nat × Nat × Nat)
  area : Option Nat
  held : Bool
  deriving DecidableEq, Repr

/-- An update descriptor taken in a step (Table 8-3) with the state of its gradient. -/
structure UDesc where
  rule : Nat
  gated : Bool
  flags : Nat
  gfmt : Nat
  shard : Nat
  cable : Nat
  inst : Nat
  gH : Nat
  gOff : Nat
  lr : Nat
  b1 : Nat
  b2 : Nat
  eps : Nat
  wd : Nat
  clip : Nat
  gscale : Nat
  landed : Bool
  void : Bool
  got : List Nat
  deriving DecidableEq, Repr

/-- A shard of a committed step whose update is not yet written (R219): the step's norm, the ledger block to come, the
stack of the Purl engine that has it, JOB_SEED and COMPAT of the step's job, which a CLOSE does not take from it (R203). -/
structure ShardUpd where
  desc : UDesc
  step : Nat
  norm : Word
  block : Nat
  eng : Nat
  seed : Nat
  compat : Bool
  deriving DecidableEq, Repr

/-- A segment of a sum parked in a deferral area (R223): the shard, the stack that was not ON, handle, offset, bytes, and the ready stack
whose deferral area holds them; `due`: its step commits, and it lands once what it lands in serves. -/
structure ParkedSeg where
  shard : Nat
  stack : Nat
  area : Nat
  h : Nat
  off : Nat
  bytes : List Byte
  due : Bool
  deriving DecidableEq, Repr

/-- Outcome of a gauge round (R211). -/
inductive Outcome where
  | commit | skipData | skipFault
  deriving DecidableEq, Repr

/-- The gauge result kept for a step (Table 8-5). -/
structure GaugeRes where
  step : Nat
  outcome : Outcome
  norm : Word
  limit : Word
  firstCause : Nat
  flagged : Nat
  firstDev : Nat
  deriving DecidableEq, Repr

/-- A formed link of a cable or leaf of a fan (R157 to R171, R425): its descriptor, and its running sum's epoch, bias
and flags. `halt`: an overflow stopped its work at this epoch (R167). `got`: segments of the running sum received;
`done`: segments it has added to and sent on; `vals`: final values by segment; `nodes`: a fan's nodes (level, number,
segment, values, VOID); `stall`: segments that wait for the stack of the link's part (R346); `ready`: its bound group holds the running sum; `sent`: the bound group's values have left;
`delivered`: the final link has delivered its last segment (in another link: FINISH has come, R165); `fin`: it may complete (R165); `gid`: number of the MMA.OPEN whose group a relay link binds (R162); `mbNext`: the MB_NEXT it received (R161);
`descH`: handle that its descriptor stood in. -/
structure Link where
  lt : Nat
  op : Nat
  cf : CF
  fan : Bool
  relay : Bool
  cable : Nat
  step : Nat
  fmt : Nat
  mode : Nat
  s1 : Nat
  links : Nat
  this : Nat
  ag : Nat
  gid : Nat
  pfmt : Nat
  bsz : Nat
  trailers : Bool
  destDev : Nat
  npass : Nat
  mbLo : Nat
  mbN : Nat
  pstride : Nat
  as : Word
  ad : Word
  table : List (Nat × Nat)
  epoch : Nat
  bias : Int
  void : Bool
  zero : Bool
  gauge : Bool
  halt : Bool
  mbNext : Nat
  got : Tab (List Word)
  done : List Nat
  vals : Tab (List Word)
  nodes : List (Nat × Nat × Nat × List Word)
  stall : List (Nat × List Word)
  ready : Bool
  sent : Bool
  delivered : Bool
  fin : Bool
  descH : Nat := 0
  deriving DecidableEq, Repr

/-- A source's part of an exchange: its HEAD's runs and the pieces of its record stream. -/
structure SrcIn where
  dev : Nat
  runs : Option (List (Nat × Nat))
  pieces : List (Nat × List Byte)
  landed : Bool
  void : Bool
  deriving DecidableEq, Repr

/-- An all-to-all exchange in progress (R179 to R195): the plan's header and instance entries as read at issue and where
the plan stands, its sources, and for a RETURN the destination, first row and rows of each skein of the matching send
list with its tags' address and slot; `sentTo`: devices this exchange sent a skein to; `reads`: handles that its plan and the rows it sends
are read from. -/
structure Exch where
  lt : Nat
  op : Nat
  cf : CF
  mode : Nat
  exch : Nat
  step : Nat
  plan : List Byte
  ents : List Byte
  planAt : Word
  srcs : List SrcIn
  slist : List (Nat × Nat × Nat)
  tagsAt : Word
  slot : Nat
  sentTo : List Nat
  reads : List Nat := []
  deriving DecidableEq, Repr

/-- A work unit of a grouped walk: entry, row tile, column tile (R116). -/
structure GUnit where
  entry : Nat
  row : Nat
  col : Nat
  deriving DecidableEq, Repr

/-- A work unit in progress on logical tile `lt`: passes of it reported done, the rows that such a pass left unwritten (pass
number, row; R121), whether an instruction has addressed the partial-sum region meanwhile (R106); `total`: the passes it has (R116). -/
structure UProg where
  lt : Nat
  u : GUnit
  total : Nat
  passes : Nat
  skips : List (Nat × Nat)
  spoiled : Bool
  deriving DecidableEq, Repr

/-- A grouped walk (R85, R114 to R119): who has joined, the table, the units still to deal, those in progress by
tile, the tiles whose walk is complete, whether a unit faulted. -/
structure Walk where
  wid : Nat
  mask : Nat
  at_ : Word
  cnt : Nat
  fa : Nat
  fb : Nat
  bsz : Nat
  acc : Nat
  mode : Nat
  joined : List Nat
  started : Bool
  table : List Byte
  units : List GUnit
  prog : List UProg
  done : List Nat
  failed : Bool
  deriving DecidableEq, Repr

/-- Swatch states of Table 9-9. -/
inductive SwState where
  | idle | pending | copying | streaming | awaitAck | acked | failed | rejected
  deriving DecidableEq, Repr

/-- A partition's swatch (R243 to R250). `job`, `dev`, `desc`, `board`: JOB_ID, DEV_ID, descriptor and swatch board handle of the job it was
requested in, which a CLOSE does not take from a swatch in progress; `next`: NEXT_STEP after the step captured. -/
structure Swatch where
  id : Nat
  kind : Nat
  state : SwState
  cause : Nat
  step : Nat
  bytes : Nat
  ackId : Nat
  ackStep : Nat
  digest : List Byte
  destFlow : Nat
  bufH : Nat
  rate : Nat
  handles : List Nat
  sent : Nat
  take : Nat
  job : BitVec 32
  dev : Nat
  desc : List Byte
  board : Nat
  next : Nat
  deriving DecidableEq, Repr

/-- Bytes of a partition as an I/O die holds them (R317): encrypted under the buffer key, with the number of the write, which gives the slot
and is the count in the counter block. -/
structure Stored where
  count : Nat := 0
  bytes : List Byte := []
  deriving DecidableEq, Repr

/-- A message that waits for its receiver: a SEG or ROWS in the early pool (R166, R185), a RESTART for a leaf not yet formed
(R167, R170), a HEAD, a VOID of a step the device has not reached. Its values or payload stand beside its header as the die holds them. -/
inductive Early where
  | seg (m : CableMsg) (data : Stored)
  | restart (m : CableMsg)
  | rows (m : SkeinMsg) (data : Stored)
  | head (m : SkeinMsg) (data : Stored)
  | void (m : SkeinMsg)
  deriving DecidableEq, Repr

/-- A PUT that has asked for a post (R40): data visible, increment to come. -/
structure PutPost where
  flow : BitVec 16
  reqSeq : BitVec 32
  jobId : BitVec 32
  wi : Nat
  lt : Nat
  ctr : Nat
  deriving DecidableEq, Repr

/-- A request at the launch endpoint that waits (R199, R226, R346) or stands behind one that waits on its flow (R26): its
type, its header, its body as the die holds it, for one already accepted the work item that ran then (0 for none), and for a GET a word that
ECC meets in its read (R267). -/
structure WaitReq where
  typ : Nat
  req : Req
  body : Stored
  taken : Option Nat
  bad : Option OffFind
  deriving DecidableEq, Repr

/-- Seam progress of a partition: no seam; recorded and held by a swap (R390); seam work under way (R22). -/
inductive Seam where
  | none | held | work
  deriving DecidableEq, Repr

/-- A message on the wire or the fabric: raw bytes (launch endpoint, swatch), cable, skein or gauge message; the number
of a cable message is its TYPE. -/
inductive Msg where
  | raw (bs : List Byte)
  | cable (typ : Nat) (m : CableMsg)
  | skein (typ : Nat) (m : SkeinMsg)
  | gauge (m : GaugeMsg)
  deriving DecidableEq, Repr

/-- A partition (R29 to R60, R198 to R226, R230 to R252, R310 to R319). Its state, generation and key epoch stand in
PART_STAT. `poison`, `dead` (in a FAILED channel, R267) and `written` name granules as
handle * 2^27 + granule; `formed`: fan flag, id and number of the
links formed in the step (R157); `peerWait`: devices whose OPEN this device awaits, with the messages that wait for it (R295); `gone`: cable id and step of the sums discarded without a descriptor (R206);
`dirty`: stacks of an erased partition whose scrub is awaited; `uncommitted`: steps decided COMMIT whose commit is not recorded, with their job; `resFlips`: step and shard of the
RES_COMMITs still to come; `flag`: the step's own gauge flag, `carried`: one carried into its contribution from an operation of the step
before, `carry`: one for the next step of the job (R91); `coldGrads`: INST and gradient handle
of the descriptors of the step whose seam work runs (R221); `moving`: tier moves of the seam still to come, shard and whether to the
dormant tier (R222); `swDue`: the swatch board is still to be read at the seam whose work runs (R245); `replay`: a warm reset found updates unfinished, and no launch is accepted before their commit (R220); `woke`: PWR_LAUNCH_WAKE counts the wakes of
the launch that is about to start (R347). -/
structure Part where
  cols : Nat
  ts : List Byte
  ek : List Byte
  dk : List Byte
  bufKey : List Byte
  count0 : Nat
  count1 : Nat
  silent : Bool
  dirty : List Nat
  handles : Tab (Option HEntry)
  poison : Tab Bool
  dead : Tab Bool
  written : Tab Bool
  job : Option Job
  wis : List WorkItem
  ended : List WorkItem
  nextWi : Nat
  step : Nat
  contrib : Bool
  stopping : Bool
  voidSent : Bool
  flag : Bool
  carried : Bool
  carry : Bool
  descs : List UDesc
  gauges : List GaugeMsg
  fataled : List Nat
  result : Option GaugeRes
  updates : List ShardUpd
  uncommitted : List (Nat × BitVec 32)
  resFlips : List (Nat × Nat)
  tornStep : Option Nat
  seam : Seam
  finalWait : List WorkItem
  links : List Link
  formed : List (Bool × Nat × Nat)
  gone : List (Nat × Nat)
  early : List Early
  peerWait : List (Nat × List (Bool × Msg))
  exchs : List Exch
  visitedNow : List Nat
  voids : List Nat
  walks : List Walk
  walkNo : Nat
  steps : Nat
  putPosts : List PutPost
  waitReqs : List WaitReq
  coldGrads : List (Nat × Nat)
  order : Nat
  cbase : Nat
  pool : List Nat
  yieldAt : Tab Nat
  lastGrant : Option Nat
  stalled : Bool
  swatch : Swatch
  parked : List ParkedSeg
  moving : List (Nat × Bool)
  swDue : Bool
  replay : Bool
  woke : Bool
  deriving DecidableEq, Repr

/-- An error record (Table 15-2). `us`: X0_US, a time of day the model has no clock for: a free value. -/
structure ERec where
  cls : Nat
  source : Nat
  kind : Nat
  verdict : Nat
  action : Nat
  part : Nat
  seq : Nat
  boot : Nat
  wi : Nat
  step : Nat
  unit : Nat
  addr : Nat
  us : Word
  refSeq : Nat
  detail : Nat
  deriving DecidableEq, Repr

/-- A staged ledger block (R219, R270): the shard, step and number of the block, the bytes to write by their offset in the
shard, how many elements it stores non-finite or saturated; `overflow`: a statistics block, staged in the reserved area's
update staging overflow (R256) and not in the staging SRAM. -/
structure Staged where
  part : Nat
  shard : Nat
  step : Nat
  block : Nat
  writes : List (Nat × List Byte)
  nonfin : Nat
  overflow : Bool
  deriving DecidableEq, Repr

/-- A stack beside its registers: scrubbed or off since its last partition (`clean`), the channel and row under repair with
the record whose check found it, a zeroing scrub running (`scrubbing`, R273), retrains of a channel that failed one after another, whether the next stack's Purl engine stands in for its own (R373),
frames read in the patrol pass; `staged`: the update staging of its base die's 8 MiB staging SRAM (R253, R269, R270), oldest block first.
The SRAM's other areas (adding, copy, repair buffers) hold only bytes under way, which their readers and writers see at the command that
moves them (log 139). -/
structure Stack where
  staged : List Staged
  clean : Bool
  scrubbing : Bool
  repair : Option (Nat × Nat)
  repairFor : Option ERec
  retrainFails : Tab Nat
  replaced : Bool
  patrolAt : Nat
  deriving DecidableEq, Repr

/-- A power domain beside PWR_DOM: a wake or refuser recorded during an entry (R342), the request that waits (R340,
R344), posts held in its fabric node (R346: partition, logical tile, counter, increment, and the logical tiles whose own instructions
made it), whether its partition assignment is changing (R317), and what the registers
of its tile or stack block read while it is not ON (Table 13-14). -/
structure Dom where
  wake : Option Nat
  refuse : Option Nat
  want : Option (Nat × Requester)
  thenOff : Bool
  changing : Bool
  posts : List (Nat × Nat × Nat × Nat × List Nat)
  shown : Option (Tab Word)
  deriving DecidableEq, Repr

/-- A port beside its registers (R285 to R288, R305, R373); `refused`: entries refused and counted against NET, a counter of the port's
own that no register shows (R340); `rxPn`: next MACsec packet number expected, `txPn`: next one to send, `sak`: the key in use, none without
one (R322). -/
structure Port where
  refused : Nat
  draining : Bool
  failed : Bool
  neighbour : Option (List Byte)
  wakeFirst : Bool
  rxPn : Nat
  txPn : Nat
  sak : List Byte
  deriving DecidableEq, Repr

/-- A packet sent and not yet acknowledged: the path of its newest copy, the path of its first copy, or those of a gauge message's two
(R286, R303), and every path a copy took. -/
structure TxPkt where
  ctrl : Bool
  typ : Nat
  psn : BitVec 32
  path : Nat
  first : List Nat
  tried : List Nat
  retx : Bool
  msg : Msg
  deriving DecidableEq, Repr

/-- Flow states of Table 11-8. -/
inductive FlowSt where
  | free | listen | opening | opened | unreachable | closing
  deriving DecidableEq, Repr

/-- A flow context (Table 11-8) with its queues; `closeDue`: a CLOSE is still to be sent behind what waits (R291, R295); `idle`: a
LAUNCH flow that has carried nothing since its CLOSE of a job (Table 11-7); `closeAt`: PSN of a CLOSE that arrived early (R298); `probing`: a
PROBE is not answered yet (R302); `held`: packets that came early, in the slots of the home die's pools (R298, R317). -/
structure Flow where
  st : FlowSt
  kind : Nat
  part : Nat
  home : Nat
  peerFlow : BitVec 16
  peerDev : BitVec 16
  incarn : BitVec 32
  jobId : BitVec 32
  txNext : BitVec 32
  txUnack : BitVec 32
  txCredit : BitVec 32
  rxNext : BitVec 32
  rxCredit : BitVec 32
  ctlTxNext : BitVec 32
  ctlRxNext : BitVec 32
  srtt : BitVec 32
  rttvar : BitVec 32
  retries : Nat
  farPorts : Byte
  keyIdx : BitVec 16
  addrRef : BitVec 16
  addrs : List Byte
  rto : Nat
  unacked : List TxPkt
  waiting : List (Bool × Msg)
  held : List (Bool × BitVec 32 × Stored)
  eceDue : Bool
  ctlEceDue : Bool
  weights : Tab Nat
  clean : Tab Nat
  planes : Byte
  remotes : Byte
  wport : Tab Int
  wpath : Tab Int
  ackDue : Nat
  ctlAckDue : Nat
  floor : Bool
  epochs : List (Word × Nat)
  closeDue : Bool
  idle : Bool
  closeAt : Option (BitVec 32)
  probing : Bool
  deriving DecidableEq, Repr

/-- A derived-key slot (R321); `key`: the key and nonce prefix derived, as the die holds them (R317). -/
structure KeySlot where
  num : Nat
  part : Nat
  sender : Word
  epoch : Nat
  ready : Bool
  key : Stored := {}
  deriving DecidableEq, Repr

/-- What an I/O die keeps beside its flows (R300, R312, R321): its buffer key, the credit rotation, key slots oldest first. The slots of its
data pool follow from the credit of its flows. -/
structure Die where
  bufKey : List Byte
  rotation : List Nat
  keys : List KeySlot
  deriving DecidableEq, Repr

/-- A gather lease (Table 8-6). -/
structure Lease where
  shard : Nat
  gen : Nat
  step : Nat
  lt : Nat
  part : Nat
  count : Nat
  deriving DecidableEq, Repr

/-- A drop check queued or running (R371, R372): the record that requested it; `hit`: an error of the same source occurred
at the unit while it ran. -/
structure Check where
  req : ERec
  running : Bool
  hit : Bool
  deriving DecidableEq, Repr

/-- A repair list entry (R376): a remap of a DPU (its `unit` holds the logical DPU in bits [31:16]), a scratchpad row or a DRAM
row, or a retirement. -/
structure Repair where
  source : Nat
  unit : Nat
  retire : Bool
  deriving DecidableEq, Repr

/-- A firmware component (Table 12-12): SVN, digest and DEBUG flag measured at its verification, the image that runs (none:
the one the module was delivered with) and the one in the other bank, which runs from the next reset. -/
structure Comp where
  svn : Nat
  digest : List Byte
  debug : Bool
  image : Option (List Byte)
  next : Option (List Byte)
  deriving DecidableEq, Repr

/-- A firmware load in progress (R398, R401). -/
structure FwLoad where
  target : Nat
  chind : Bool
  addr : BitVec 128
  length : Nat
  data : Mem
  deriving DecidableEq, Repr

/-- A Weneus session (R395 to R397). -/
structure Sess where
  id : BitVec 32
  role : Nat
  part : Nat
  opened : Bool
  hello : List Byte
  dnonce : List Byte
  kcd : List Byte
  kdc : List Byte
  seq : Nat
  last : Option (Nat × Nat × List Byte)
  deriving DecidableEq, Repr

/-- A commanded self-test (R378): targets still to test, the mode, who asked. -/
structure Bist where
  targets : List (Nat × Nat)
  mode : Nat
  failed : Bool
  via : Option (BitVec 32 × Nat)
  deriving DecidableEq, Repr

/-- What MACsec makes of a frame (R322): SCI and packet number of its SecTAG, the bytes behind it encrypted, the ICV. -/
structure SecTag where
  sci : Word
  pn : Word
  text : List Byte
  icv : BitVec 128
  deriving DecidableEq, Repr

/-- The frame of a Chind packet below its Chind header: MAC addresses, the 802.1Q tag when one is sent (PCP, VID), IPv6
traffic class, flow label, hop limit and addresses, UDP ports (R283, Table 11-1); `sec`: on a port that MACsec secures, what leaves in place
of everything behind the MAC addresses (R322). -/
structure Frame where
  dstMac : BitVec 48
  srcMac : BitVec 48
  tag : Option (BitVec 3 × BitVec 12)
  tclass : Byte
  label : BitVec 20
  hops : Byte
  srcIp : List Byte
  dstIp : List Byte
  srcPort : BitVec 16
  dstPort : BitVec 16
  sec : Option SecTag := none
  deriving DecidableEq, Repr

/-- What the device sends, in the order it sends it: endpoint messages on a flow, Chind packets with their payload as it stands on the
wire (R320) and the message it carries, messages over the
fabric's exchange class to the device itself, messages a flow hands to its consumer (R298), replies of the management port, Neighbor
Advertisements of a port (8: the management port) with the SecTAG of a secured one. -/
inductive Out where
  | host (part : Nat) (flow : BitVec 16) (bs : List Byte)
  | packet (port : Nat) (frame : Frame) (header : List Byte) (env : Option Envelope) (payload : List Byte) (msg : Msg)
  | fabric (part : Nat) (msg : Msg)
  | deliver (flow : BitVec 16) (ctrl : Bool) (bs : List Byte)
  | weneus (header body : List Byte) (tag : Option (BitVec 128))
  | advert (port : Nat) (sec : Option SecTag)
  deriving DecidableEq, Repr

/-- Everything of the module but the meter chip and the test access port. `warm`: the newest sensor sample had a reading within 3 degrees of
its throttle limit (R403); `kept`: a warm reset keeps the mode ADMITTED, while steps 3 to 6 run again (R385); `cak`: sealed under a key
derived from the device's unique secret (R322); `ioWrites`: writes of partitions' data to the I/O dies (R317). -/
structure Device where
  regs : Tab Word
  shadow : Tab Word
  mramActive : Tab Word
  mem : Mem
  spad : Mem
  parts : Tab Part
  lts : Tab LTile
  tiles : Tab PTile
  stks : Tab Stack
  doms : Tab Dom
  ports : Tab Port
  flows : Tab Flow
  dies : Tab Die
  leases : List Lease
  bootNv : Nat
  seqNv : Nat
  log : List ERec
  staged : List ERec
  repairs : List Repair
  checks : List Check
  transients : Tab Nat
  comps : Tab Comp
  fused : Tab (Option Nat)
  revoked : Bool
  sigTable : List Byte
  load : Option FwLoad
  cak : List Byte
  ckn : List Byte
  roleKeys : Tab (List Byte)
  sess : List Sess
  fails : Tab Nat
  locked : Tab Bool
  drbgN : Nat
  passageVia : Option (BitVec 32 × Nat)
  passageForce : Bool
  thenOut : Bool
  badTargets : List (Nat × Nat)
  bist : Option Bist
  metRecord : List Byte
  strapBoard : Bool
  strapPos : BitVec 2
  strapSlot : BitVec 6
  vinMv : Nat
  powered : Bool
  lockout : Bool
  resetN : Bool
  testEn : Bool
  pwrOk : Bool
  thermTrip : Bool
  recovery : Bool
  halted6 : Bool
  step7 : Bool
  step8 : Bool
  pauseLow : Nat
  warm : Bool
  kept : Bool
  out : List Out
  ioWrites : Nat
  free : Nat
  deriving DecidableEq, Repr

/-- What the meter keeps in non-volatile memory (R360): the register, the sequence count, the pulses given. -/
structure MeterNv where
  energy : Nat
  seq : Nat
  pulses : Nat
  deriving DecidableEq, Repr

/-- The Aethen meter (R354 to R366): its energy register in mJ, record count, pulses started, audit counter, fault,
MET_PULSE driven low, running, the RESTART flag of the next record, the firmware image that runs with its signature and its identity (R357),
committed values. -/
structure Meter where
  energy : Nat
  seq : Nat
  pulses : Nat
  audit : Nat
  fault : Nat
  pulse : Bool
  running : Bool
  restart : Bool
  fw : List Byte
  fwSig : List Byte
  fwVer : BitVec 32
  fwSum : BitVec 32
  nv : MeterNv
  deriving DecidableEq, Repr

/-- The test access port (R416): the instruction in effect, the boundary cells and whether they drive, the data register
selected. -/
structure Tap where
  ir : BitVec 8
  cells : BitVec 13
  driving : Bool
  dr : BitVec 32
  deriving DecidableEq, Repr

/-- The state: the commands that wait, first in, first out, and the machine. -/
structure State where
  pending : List Instr
  dev : Device
  meter : Meter
  tap : Tap
  deriving DecidableEq, Repr

/-- A logical tile before any work item. -/
def LTile.reset : LTile :=
  { s := [], a := [], v := [], ctr := [], pc := 0, calls := [], loops := [], block := .none, hold := none, nextOp := 0,
    moves := [], arr := [], vec := [], rte := [], xch := [], upd := [], ags := [], groups := [], passes := [],
    armed := [], posts := [], gaugePart := none, gaugeFlag := false, hinted := false, begun := [], wact := none, wsh := none, flips := 0,
    wide := false, psFree := none }

/-- A physical tile at reset: in no partition, hosting none, arrays idle. -/
def PTile.reset : PTile :=
  { part := none, hosted := [], run := 0, switching := false, retired := false, retiring := false, level := 0,
    gap := 256, holdCyc := 0, ramping := false, release := false, paused := false, tcyc := 0, remaps := [], area := none, held := false }

/-- No swatch (Table 9-9, IDLE). -/
def Swatch.reset : Swatch :=
  { id := 0, kind := 0, state := .idle, cause := 0, step := 0, bytes := 0, ackId := 0, ackStep := 0, digest := [],
    destFlow := 0, bufH := 0, rate := 0, handles := [], sent := 0, take := 0, job := 0, dev := 0, desc := [], board := 0, next := 0 }

/-- An absent partition. -/
def Part.reset : Part :=
  { cols := 0, ts := [], ek := [], dk := [], bufKey := [], count0 := 1, count1 := 1, silent := false, dirty := [],
    handles := [], poison := [], dead := [], written := [], job := none, wis := [], ended := [], nextWi := 1, step := 0,
    contrib := false, stopping := false, voidSent := false, flag := false, carried := false, carry := false,
    descs := [], gauges := [], fataled := [], result := none, updates := [], uncommitted := [],
    resFlips := [], tornStep := none, seam := .none, finalWait := [], links := [], formed := [], gone := [], early := [], peerWait := [], exchs := [],
    visitedNow := [], voids := [], walks := [], walkNo := 0, steps := 0, putPosts := [], waitReqs := [], coldGrads := [], order := 0, cbase := 0,
    pool := [], yieldAt := [], lastGrant := none, stalled := false, swatch := Swatch.reset, parked := [], moving := [], swDue := false, replay := false, woke := false }

/-- A stack at reset: OFF, so nothing of a former partition is in it (Table 13-1). -/
def Stack.reset : Stack :=
  { staged := [], clean := true, scrubbing := false, repair := none, repairFor := none, retrainFails := [], replaced := false, patrolAt := 0 }

/-- A power domain at reset. -/
def Dom.reset : Dom :=
  { wake := none, refuse := none, want := none, thenOff := false, changing := false, posts := [], shown := none }

/-- A port at reset. -/
def Port.reset : Port :=
  { refused := 0, draining := false, failed := false, neighbour := none, wakeFirst := false, rxPn := 1, txPn := 1, sak := [] }

/-- A free flow context; RTO before the first sample is 100 us (R301), in ns. -/
def Flow.reset : Flow :=
  { st := .free, kind := 0, part := 0, home := 0, peerFlow := 0, peerDev := 0, incarn := 0, jobId := 0, txNext := 0,
    txUnack := 0, txCredit := 0, rxNext := 0, rxCredit := 0, ctlTxNext := 0, ctlRxNext := 0,
    srtt := 0, rttvar := 0, retries := 0, farPorts := 0, keyIdx := 0, addrRef := 0, addrs := [], rto := 100000,
    unacked := [], waiting := [], held := [], eceDue := false, ctlEceDue := false, weights := [], clean := [],
    planes := 0, remotes := 0, wport := [], wpath := [], ackDue := 0, ctlAckDue := 0, floor := false, epochs := [], closeDue := false, idle := false,
    closeAt := none, probing := false }

/-- An I/O die at reset. -/
def Die.reset : Die := { bufKey := [], rotation := [], keys := [] }

/-- A component not yet verified . -/
def Comp.reset : Comp := { svn := 0, digest := [], debug := false, image := none, next := none }

/-- The configuration set Tlanea ships: the factory values of the RWS fields (Tables 8-8, 11-10, 11-11, 13-11, 16-12), each
register whole; a register not listed holds 0. -/
def factorySet : Tab Word :=
  [(0x10010, 0xFF010010#64), (0x10028, 0x5F555F#64), (0x20008, 3400#64), (0x20010, 0x006403E8004000C0#64),
   (0x80000, 0x0000C1D000000000#64)] ++ (List.range 8).map (fun n => (0x80300 + 8 * n, 2#64))

/-- The module before input power: registers at their reset values, every domain but D.AON OFF, straps 0, MRAM as the
model's run finds it. RESET_N is pulled up (Table 17-1), TEST_EN pulled down. -/
def Device.reset : Device :=
  { regs := [], shadow := factorySet, mramActive := factorySet, mem := [], spad := [], parts := [], lts := [], tiles := [],
    stks := [], doms := [], ports := [], flows := [], dies := [], leases := [],
    bootNv := Config.bootCount.toNat, seqNv := Config.nextSeq.toNat, log := [],
    staged := [], repairs := [], checks := [], transients := [], comps := [], fused := [], revoked := false,
    sigTable := [], load := none, cak := [], ckn := [], roleKeys := [], sess := [], fails := [], locked := [],
    drbgN := 0, passageVia := none, passageForce := false, thenOut := false, badTargets := [], bist := none, metRecord := [], strapBoard := false, strapPos := 0, strapSlot := 0, vinMv := 0, powered := false,
    lockout := false, resetN := true, testEn := false, pwrOk := false, thermTrip := false, recovery := false,
    halted6 := false, step7 := false, step8 := false, pauseLow := 0, warm := false, kept := false, out := [], ioWrites := 0, free := 0 }

/-- The meter before its first start: SEQ starts at 1 at manufacture (R362). -/
def Meter.reset : Meter :=
  { energy := 0, seq := 1, pulses := 0, audit := 0, fault := 0, pulse := false, running := false, restart := true,
    fw := [], fwSig := [], fwVer := 0, fwSum := 0, nv := { energy := 0, seq := 1, pulses := 0 } }

/-- The TAP in Test-Logic-Reset: IDCODE selected (R416). -/
def Tap.reset : Tap := { ir := 0x02#8, cells := 0, driving := false, dr := 0x1A32E36F#32 }

/-- The machine right after reset, with no command waiting. -/
def State.reset : State := { pending := [], dev := Device.reset, meter := Meter.reset, tap := Tap.reset }

end Sys2Proof.Machine
end

