-- ==== Sys2Proof/Machine/Regs.lean ====
section
/-! DEFINITION. The management register space (R4 to R6, R405): where each register stands, what it holds at reset, which
bits each access type takes, and the named fields the rules of the chapters read and write. -/
namespace Sys2Proof.Machine

/-- A field of a register: address and bits [hi:lo]. -/
structure Fld where
  addr : Nat
  hi : Nat
  lo : Nat
  deriving DecidableEq, Repr

/-- TILE block of tile t (R44, R405). -/
def tileReg (t off : Nat) : Nat := 0x100000 + t * 0x10000 + off
/-- STK block of stack x (R278, R405). -/
def stkReg (x off : Nat) : Nat := 0x300000 + x * 0x10000 + off

/-- Word that register address `a` holds at reset (the Reset columns of the register tables). Fused fields read 0 until step 3 (R406);
BOOT_COUNT is shown from MRAM (`Device.readReg`). -/
def regReset (a : Nat) : Word :=
  if a = 0x0 then 0x3210000000000000#64
  else if a = 0x8 then 0x10000#64
  else if a = 0x18 then BitVec.ofNat 64 (Config.certificate.length % 2 ^ 13)
  else if 0x100 ≤ a ∧ a < 0x148 then BitVec.allOnes 64
  else if 0x20100 ≤ a ∧ a < 0x20100 + 8 * 79 then 2#64
  else if a = 0x40480 then 0xFF00#64
  else if a = 0x80000 then 0x00140801#64
  else if 0x100000 ≤ a ∧ a < 0x300000 ∧ a % 0x10000 = 0x100 then 0x0000FFFF00000000#64
  else if 0x300000 ≤ a ∧ a < 0x500000 ∧ a % 0x10000 = 0x8 then 0x4001#64
  else if 0x500200 ≤ a ∧ a < 0x500240 then 0x7FF0000000000000#64
  else 0

/-- The mask of bits [hi:lo]. -/
def maskOf (hi lo : Nat) : Nat := (2 ^ (hi - lo + 1) - 1) * 2 ^ lo

/-- Bits a plain write sets (access RW of Table 0-3). -/
def rwMask (a : Nat) : Nat :=
  if a = 0x20 then 0x1FF
  else if a = 0x10100 then 0xFFFFFF
  else if a = 0x40200 then 0x7
  else if a = 0x40480 then maskOf 63 32 + maskOf 15 8
  else if a = 0x80000 then maskOf 31 8 + 1
  else if a = 0x81000 then 0xFFFF
  else if 0x300000 ≤ a ∧ a < 0x500000 ∧ a % 0x10000 = 0x8 then 0xFF01
  else if 0x500200 ≤ a ∧ a < 0x500240 ∧ a % 8 = 0 then maskOf 63 0
  else if a = 0x600018 then maskOf 63 0
  else 0

/-- Bits that belong to the configuration sets (access RWS). -/
def rwsMask (a : Nat) : Nat :=
  if a = 0x10010 then maskOf 31 0
  else if a = 0x10018 ∨ a = 0x10020 ∨ a = 0x10030 ∨ a = 0x10038 then maskOf 63 0
  else if a = 0x10028 then maskOf 23 0
  else if a = 0x20008 then maskOf 15 0
  else if a = 0x20010 then maskOf 63 16 + 0xC0
  else if 0x50000 ≤ a ∧ a < 0x50080 ∧ a % 16 = 0 then maskOf 63 32 + maskOf 15 8 + 1
  else if a = 0x80000 then maskOf 47 32
  else if 0x80100 ≤ a ∧ a < 0x80180 ∧ a % 8 = 0 then maskOf 47 0
  else if 0x80200 ≤ a ∧ a < 0x80280 ∧ a % 8 = 0 then maskOf 63 0
  else if 0x80300 ≤ a ∧ a < 0x80340 ∧ a % 8 = 0 then maskOf 31 16 + 7
  else 0

/-- Bits a 1 clears (access W1C). -/
def w1cMask (a : Nat) : Nat := if a = 0x600000 then 2 else 0

/-- Bits of a register that hold a field a read shows: not the reserved ones, nor those of access WO (R5, R6). An address with no register has
none (R405). -/
def fieldBits (a : Nat) : Nat :=
  let all := maskOf 63 0
  if a < 0x10000 then
    if a = 0x0 ∨ a = 0x28 ∨ (0x100 ≤ a ∧ a < 0x148) then all
    else if a = 0x8 then maskOf 63 32 + maskOf 23 16 + 7
    else if a = 0x10 then maskOf 47 0
    else if a = 0x18 then maskOf 12 0
    else if a = 0x20 then maskOf 8 0
    else 0
  else if a < 0x20000 then
    if a = 0x10000 then maskOf 63 8 + 3
    else if a = 0x10010 then maskOf 31 0
    else if a = 0x10028 ∨ a = 0x10100 then maskOf 23 0
    else if a = 0x10018 ∨ a = 0x10020 ∨ a = 0x10030 ∨ a = 0x10038 ∨ a = 0x10108 ∨ (0x10200 ≤ a ∧ a < 0x10240) then all
    else 0
  else if a < 0x30000 then
    if a = 0x20000 then maskOf 63 16 + maskOf 11 8 + 1
    else if a = 0x20008 then maskOf 15 0
    else if a = 0x20010 then maskOf 63 16 + 0xC0
    else if a = 0x20018 then maskOf 63 29 + maskOf 23 8
    else if 0x20100 ≤ a ∧ a < 0x20380 then maskOf 55 32 + maskOf 23 16 + maskOf 5 4 + 3
    else if 0x20400 ≤ a ∧ a < 0x20C00 then all
    else 0
  else if a < 0x40000 then
    if a = 0x30010 then maskOf 31 0
    else if a = 0x30020 then maskOf 63 32 + maskOf 15 8 + 1
    else if a = 0x30000 ∨ a = 0x30008 ∨ a = 0x30018 ∨ a = 0x30028 ∨ (0x30100 ≤ a ∧ a ≤ 0x30140) then all
    else 0
  else if a < 0x50000 then
    if a = 0x40000 then maskOf 63 24 + maskOf 15 8 + 0xF
    else if 0x40100 ≤ a ∧ a < 0x40140 then maskOf 47 32 + 3
    else if a = 0x40200 then 7
    else if (0x40208 ≤ a ∧ a < 0x40248) ∨ a = 0x40300 then all
    else if 0x40400 ≤ a ∧ a < 0x40440 then maskOf 63 32 + 3
    else if a = 0x40480 then maskOf 63 32 + maskOf 15 8 + 1
    else 0
  else if a < 0x80000 then
    if 0x50000 ≤ a ∧ a < 0x50080 then (if a % 16 = 0 then maskOf 63 32 + maskOf 15 8 + 1 else maskOf 63 16 + 7)
    else if 0x58000 ≤ a ∧ a < 0x58100 then
      let o := a % 0x20
      if o = 0 then maskOf 63 8 + 3 else if o = 0x10 then maskOf 63 8 + 7 else all
    else if 0x59000 ≤ a ∧ a < 0x59080 then (if a % 16 = 0 then maskOf 43 0 else all)
    else 0
  else if a < 0x100000 then
    if a = 0x80000 then maskOf 47 8 + 1
    else if 0x80100 ≤ a ∧ a < 0x80180 then maskOf 47 0
    else if (0x80200 ≤ a ∧ a < 0x80280) ∨ (0x80500 ≤ a ∧ a < 0x80540) ∨ a = 0x80600 ∨ (0x81008 ≤ a ∧ a < 0x81048) then all
    else if 0x80300 ≤ a ∧ a < 0x80340 then maskOf 31 16 + 7
    else if 0x80400 ≤ a ∧ a < 0x80440 then maskOf 47 40 + maskOf 35 32 + 0xF
    else if a = 0x81000 then 0xFFFF
    else 0
  else if a < 0x300000 then
    let o := a % 0x10000
    if o = 0x100 then maskOf 47 32 + maskOf 27 24 + 1
    else if o = 0x108 then maskOf 63 32 + maskOf 15 0
    else if o = 0x200 then maskOf 63 48 + maskOf 39 39 + maskOf 31 0
    else if o = 0x208 ∨ o = 0x210 ∨ o = 0x218 ∨ o = 0x220 ∨ (0x300 ≤ o ∧ o < 0x380) then all
    else 0
  else if a < 0x500000 then
    let o := a % 0x10000
    if o = 0 then maskOf 47 32 + maskOf 11 6 + 3
    else if o = 0x8 then 0xFF01
    else if o = 0x10 then maskOf 63 32 + 0xC
    else if o = 0x18 ∨ o = 0x100 then all
    else if o = 0x20 then maskOf 47 0
    else if 0x200 ≤ o ∧ o < 0x300 then maskOf 63 24 + 0xFFFF
    else 0
  else if a < 0x600000 then
    if 0x500300 ≤ a ∧ a < 0x500340 then maskOf 63 8 + 3
    else if 0x500500 ≤ a ∧ a < 0x500540 then maskOf 63 32 + maskOf 12 0
    else if 0x501000 ≤ a ∧ a < 0x503000 then maskOf 63 16 + 3
    else if a = 0x500000 ∨ (0x500100 ≤ a ∧ a < 0x500640 ∧ a % 0x100 < 0x40) then all
    else 0
  else if a < 0x700000 then
    if a = 0x600000 then maskOf 47 32 + 3
    else if 0x600008 ≤ a ∧ a < 0x600060 then all
    else if a = 0x600060 then 0xFFFF
    else 0
  else if a = 0x700008 then maskOf 63 32 + 7
  else if 0x700010 ≤ a ∧ a < 0x700030 then all
  else 0

/-- Bits of the counters that clear at every reset, a warm one included (R122, R169, R196, R228, R252, R278, R307, R333, R353, R366,
R382, R383, R405). Not among them: the visit counts of UPD_INST, from which a shard's tier follows (R221), the spares and rows in use,
and GEN, which names a partition's creation. -/
def counterBits (a : Nat) : Nat :=
  if 0x100000 ≤ a ∧ a < 0x300000 then
    let o := a % 0x10000
    if o = 0x200 then maskOf 63 48 else if o = 0x208 ∨ o = 0x210 ∨ o = 0x218 ∨ o = 0x220 then maskOf 63 0 else 0
  else if 0x300000 ≤ a ∧ a < 0x500000 then
    let o := a % 0x10000
    if o = 0x18 then maskOf 63 16 else if o = 0x20 then maskOf 31 0 else if 0x200 ≤ o ∧ o < 0x300 then maskOf 63 24 else 0
  else if a = 0x10000 ∨ a = 0x30028 ∨ a = 0x40000 ∨ a = 0x700008 then maskOf 63 32
  else if 0x20100 ≤ a ∧ a < 0x20380 then maskOf 47 32
  else if 0x20400 ≤ a ∧ a < 0x20C00 then maskOf 63 0
  else if 0x30100 ≤ a ∧ a ≤ 0x30140 then maskOf 63 0
  else if a = 0x40300 ∨ a = 0x80600 ∨ a = 0x500000 ∨ a = 0x600008 then maskOf 63 0
  else if 0x40400 ≤ a ∧ a < 0x40440 then maskOf 63 32
  else if 0x58000 ≤ a ∧ a < 0x58100 ∧ a % 0x20 = 8 then maskOf 63 0
  else if 0x58000 ≤ a ∧ a < 0x58100 ∧ a % 0x20 = 0 then maskOf 63 32
  else if 0x80500 ≤ a ∧ a < 0x80540 then maskOf 63 0
  else if 0x500500 ≤ a ∧ a < 0x500540 then maskOf 63 32
  else if 0x500600 ≤ a ∧ a < 0x500640 then maskOf 63 32
  else 0

/-- Addresses of the registers that hold RWS fields, in ascending order (R388, R392). -/
def rwsRegs : List Nat :=
  [0x10010, 0x10018, 0x10020, 0x10028, 0x10030, 0x10038, 0x20008, 0x20010] ++
  (List.range 8).map (fun p => 0x50000 + 16 * p) ++ [0x80000] ++
  (List.range 8).map (fun n => 0x80100 + 8 * n) ++ (List.range 8).map (fun n => 0x80140 + 8 * n) ++
  (List.range 16).map (fun k => 0x80200 + 8 * k) ++ (List.range 8).map (fun n => 0x80300 + 8 * n)

/-- Is the address inside a block of Table 16-10? DESIGN CHOICE (log 131): the table gives bases; a block without a size of its own reaches to
the next base, but PART to 0x5FFFF, NET to 0x8FFFF, and UPD, RAS and TEST 64 KiB. -/
def inBlock (a : Nat) : Bool :=
  decide (a < 0x60000) || (decide (0x80000 ≤ a) && decide (a < 0x90000)) ||
  (decide (0x100000 ≤ a) && decide (a < 0x510000)) ||
  (decide (0x600000 ≤ a) && decide (a < 0x610000)) || (decide (0x700000 ≤ a) && decide (a < 0x710000))

/-- The word a register holds. -/
def Device.reg (d : Device) (a : Nat) : Word := tget (regReset a) d.regs a
/-- Put a word into a register. -/
def Device.setReg (d : Device) (a : Nat) (w : Word) : Device := { d with regs := tset (regReset a) d.regs a w }
/-- Every counter clears. -/
def clearCounters (d : Device) : Device :=
  d.regs.foldl (fun d e => if counterBits e.1 = 0 then d else d.setReg e.1 (e.2 &&& ~~~(BitVec.ofNat 64 (counterBits e.1)))) d
/-- A field's value. -/
def Device.rd (d : Device) (f : Fld) : Nat := bits (d.reg f.addr).toNat f.hi f.lo
/-- A word with bits [hi:lo] replaced. -/
def putBits (w : Word) (hi lo v : Nat) : Word :=
  (w &&& ~~~(BitVec.ofNat 64 (maskOf hi lo))) ||| BitVec.ofNat 64 (v % 2 ^ (hi - lo + 1) * 2 ^ lo)
/-- Set a field. -/
def Device.wr (d : Device) (f : Fld) (v : Nat) : Device := d.setReg f.addr (putBits (d.reg f.addr) f.hi f.lo v)
/-- Add to a counter field, saturating (counters of every chapter saturate). -/
def Device.inc (d : Device) (f : Fld) (n : Nat := 1) : Device := d.wr f (satAdd (2 ^ (f.hi - f.lo + 1) - 1) (d.rd f) n)

-- TILE block (Tables 2-9, 2-10, 4-10, 4-11, 6-6, 7-15, 7-16)
/-- TILE_PLACE.LT_B -/ def fLtB (t : Nat) : Fld := ⟨tileReg t 0x100, 47, 40⟩
/-- TILE_PLACE.LT_A -/ def fLtA (t : Nat) : Fld := ⟨tileReg t 0x100, 39, 32⟩
/-- TILE_PLACE.ASSIGNED -/ def fTAssigned (t : Nat) : Fld := ⟨tileReg t 0x100, 27, 27⟩
/-- TILE_PLACE.PART -/ def fTPart (t : Nat) : Fld := ⟨tileReg t 0x100, 26, 24⟩
/-- TILE_PLACE.RETIRED -/ def fTRetired (t : Nat) : Fld := ⟨tileReg t 0x100, 0, 0⟩
/-- TILE_RUN.WI_ID -/ def fRunWi (t : Nat) : Fld := ⟨tileReg t 0x108, 63, 32⟩
/-- TILE_RUN.SWITCHES -/ def fSwitches (t : Nat) : Fld := ⟨tileReg t 0x108, 15, 0⟩
/-- TILE_ARR_STAT.REPLAYS -/ def fReplays (t : Nat) : Fld := ⟨tileReg t 0x200, 63, 48⟩
/-- TILE_ARR_STAT.SPARE_OUT -/ def fSpareOut (t : Nat) : Fld := ⟨tileReg t 0x200, 39, 39⟩
/-- TILE_ARR_STAT.SPARES_Ai -/ def fSpares (t i : Nat) : Fld := ⟨tileReg t 0x200, 8 * i + 7, 8 * i⟩
/-- TILE_ARR_CNT.TENSION_KCYC -/ def fTension (t : Nat) : Fld := ⟨tileReg t 0x208, 63, 32⟩
/-- TILE_ARR_CNT.RECOMPUTES -/ def fRecomputes (t : Nat) : Fld := ⟨tileReg t 0x208, 31, 16⟩
/-- TILE_ARR_CNT.CASTON_STALLS -/ def fStalls (t : Nat) : Fld := ⟨tileReg t 0x208, 15, 0⟩
/-- TILE_CABLE_CNT.RESTARTS -/ def fRestarts (t : Nat) : Fld := ⟨tileReg t 0x210, 63, 48⟩
/-- TILE_CABLE_CNT.VOIDS -/ def fVoids (t : Nat) : Fld := ⟨tileReg t 0x210, 47, 32⟩
/-- TILE_CABLE_CNT.LINKS_DONE -/ def fLinksDone (t : Nat) : Fld := ⟨tileReg t 0x210, 31, 0⟩

/-- TILE_ROUTE_CNT.NONFINITE -/ def fNonfinite (t : Nat) : Fld := ⟨tileReg t 0x218, 63, 48⟩
/-- TILE_ROUTE_CNT.DROPS_SECOND -/ def fDropsSecond (t : Nat) : Fld := ⟨tileReg t 0x218, 47, 24⟩
/-- TILE_ROUTE_CNT.DROPS_FIRST -/ def fDropsFirst (t : Nat) : Fld := ⟨tileReg t 0x218, 23, 0⟩
/-- TILE_SKEIN_CNT.TAG_FAULTS -/ def fTagFaults (t : Nat) : Fld := ⟨tileReg t 0x220, 63, 48⟩
/-- TILE_SKEIN_CNT.VOIDS -/ def fSkeinVoids (t : Nat) : Fld := ⟨tileReg t 0x220, 47, 32⟩
/-- TILE_SKEIN_CNT.EXCHANGES -/ def fExchanges (t : Nat) : Fld := ⟨tileReg t 0x220, 31, 0⟩

-- DEV, CFG (Tables 16-11, 16-12)
/-- DEV_IDENT.SERIAL -/ def fSerial : Fld := ⟨0x0, 47, 0⟩
/-- DEV_MGT_MAC.MAC -/ def fMgtMac : Fld := ⟨0x10, 47, 0⟩
/-- DEV_STAT.BOOT_COUNT -/ def fBootCount : Fld := ⟨0x8, 63, 32⟩
/-- DEV_STAT.PHASE -/ def fPhase : Fld := ⟨0x8, 23, 16⟩
/-- DEV_STAT.WARM -/ def fWarm : Fld := ⟨0x8, 2, 2⟩
/-- DEV_STAT.THERM_WARN -/ def fThermWarn : Fld := ⟨0x8, 1, 1⟩
/-- DEV_STAT.READY -/ def fReady : Fld := ⟨0x8, 0, 0⟩
/-- CFG_STAT.SWAPS -/ def fSwaps : Fld := ⟨0x10000, 63, 32⟩
/-- CFG_STAT.RESULT -/ def fCfgResult : Fld := ⟨0x10000, 31, 24⟩
/-- CFG_STAT.REASON -/ def fCfgReason : Fld := ⟨0x10000, 23, 16⟩
/-- CFG_STAT.WAIT_MASK -/ def fWaitMask : Fld := ⟨0x10000, 15, 8⟩
/-- CFG_STAT.STATE -/ def fCfgState : Fld := ⟨0x10000, 1, 0⟩
/-- CFG_PLACE.DORMANT_EN -/ def fDormantEn : Fld := ⟨0x10010, 31, 24⟩
/-- CFG_PLACE.MIN_READY -/ def fMinReady : Fld := ⟨0x10010, 23, 16⟩
/-- CFG_PLACE.TIER_THRESH -/ def fTierThresh : Fld := ⟨0x10010, 15, 0⟩

-- PWR (Tables 13-10 to 13-14)
/-- PWR_STAT.PIN_W -/ def fPinW : Fld := ⟨0x20000, 63, 48⟩
/-- PWR_STAT.VIN -/ def fVin : Fld := ⟨0x20000, 47, 32⟩
/-- PWR_STAT.IIN -/ def fIin : Fld := ⟨0x20000, 31, 16⟩
/-- PWR_STAT.LEVEL -/ def fLevel : Fld := ⟨0x20000, 11, 8⟩
/-- PWR_STAT.CAPPED -/ def fCapped : Fld := ⟨0x20000, 0, 0⟩
/-- PWR_CAP.CAP_W -/ def fCapW : Fld := ⟨0x20008, 15, 0⟩
/-- PWR_POLICY.STACK_IDLE_MS -/ def fStackIdle : Fld := ⟨0x20010, 63, 48⟩
/-- PWR_POLICY.PORT_IDLE_MS -/ def fPortIdle : Fld := ⟨0x20010, 47, 32⟩
/-- PWR_POLICY.TILE_IDLE_KCYC -/ def fTileIdle : Fld := ⟨0x20010, 31, 16⟩
/-- PWR_POLICY.TILE_OFF_EN -/ def fTileOffEn : Fld := ⟨0x20010, 7, 7⟩
/-- PWR_POLICY.HINT_EN -/ def fHintEn : Fld := ⟨0x20010, 6, 6⟩
/-- PWR_LAUNCH_WAKE, whole -/ def fLaunchWake : Fld := ⟨0x20018, 63, 0⟩
/-- PWR_DOM[d].LAST_WAKE -/ def fLastWake (n : Nat) : Fld := ⟨0x20100 + 8 * n, 55, 48⟩
/-- PWR_DOM[d].ENTRIES -/ def fEntries (n : Nat) : Fld := ⟨0x20100 + 8 * n, 47, 32⟩
/-- PWR_DOM[d].READY -/ def fDomReady (n : Nat) : Fld := ⟨0x20100 + 8 * n, 23, 20⟩
/-- PWR_DOM[d].STEP -/ def fDomStep (n : Nat) : Fld := ⟨0x20100 + 8 * n, 19, 16⟩
/-- PWR_DOM[d].TARGET -/ def fTarget (n : Nat) : Fld := ⟨0x20100 + 8 * n, 5, 4⟩
/-- PWR_DOM[d].STATE -/ def fDom (n : Nat) : Fld := ⟨0x20100 + 8 * n, 1, 0⟩

/-- Refusers of Table 13-3, in its order; the accounting fields of Table 13-14 count against them. -/
inductive Refuser where
  | sec | ras | mem | net | place | upd | mgt | prog
  deriving DecidableEq, Repr

/-- Number of a refuser in the order of Table 13-3. -/
def Refuser.num : Refuser → Nat
  | .sec => 0 | .ras => 1 | .mem => 2 | .net => 3 | .place => 4 | .upd => 5 | .mgt => 6 | .prog => 7

/-- Refuser of a number. -/
def Refuser.ofNum : Nat → Refuser
  | 0 => .sec | 1 => .ras | 2 => .mem | 3 => .net | 4 => .place | 5 => .upd | 6 => .mgt | _ => .prog

/-- Word and low bit of a refuser's counter: SEC, RAS, MEM, NET fill word A from bit 0 up, PLACE, UPD, MGT, PROG word B. -/
def Refuser.fld (r : Refuser) (base : Nat) : Fld :=
  ⟨base + 8 * (r.num / 4), 16 * (r.num % 4) + 15, 16 * (r.num % 4)⟩
/-- PWR_REF_A, PWR_REF_B of domain n. -/
def fRefused (n : Nat) (r : Refuser) : Fld := r.fld (0x20400 + 0x20 * n)
/-- PWR_ABT_A, PWR_ABT_B of domain n. -/
def fAborted (n : Nat) (r : Refuser) : Fld := r.fld (0x20410 + 0x20 * n)

-- SEC, PART (Tables 12-11 to 12-14, 9-11, 10-17)
/-- SEC_MODE.PASSAGES -/ def fPassages : Fld := ⟨0x40000, 63, 32⟩
/-- SEC_MODE.LAST_CAUSE -/ def fPassCause : Fld := ⟨0x40000, 31, 24⟩
/-- SEC_MODE.STEP -/ def fPassStep : Fld := ⟨0x40000, 15, 8⟩
/-- SEC_MODE.INWARD -/ def fInward : Fld := ⟨0x40000, 3, 3⟩
/-- SEC_MODE.TEST_EN -/ def fTestEn : Fld := ⟨0x40000, 2, 2⟩
/-- SEC_MODE.MODE: 0 ADMITTED, 1 PASSAGE, 2 SERVICE -/ def fMode : Fld := ⟨0x40000, 1, 0⟩
/-- SEC_CNT.ENV_FAIL -/ def fEnvFail : Fld := ⟨0x40300, 63, 48⟩
/-- SEC_CNT.KEY_MISS -/ def fKeyMiss : Fld := ⟨0x40300, 47, 32⟩
/-- SEC_CNT.SELVEDGE -/ def fSelvedge : Fld := ⟨0x40300, 31, 16⟩
/-- SEC_CNT.ATTESTS -/ def fAttests : Fld := ⟨0x40300, 15, 0⟩
/-- SEC_FW[c].FUSED_SVN -/ def fFusedSvn (c : Nat) : Fld := ⟨0x40100 + 8 * c, 47, 40⟩
/-- SEC_FW[c].SVN -/ def fSvn (c : Nat) : Fld := ⟨0x40100 + 8 * c, 39, 32⟩
/-- SEC_FW[c].STATUS -/ def fFwStatus (c : Nat) : Fld := ⟨0x40100 + 8 * c, 1, 0⟩
/-- SEC_MACSEC[n].ICV_FAIL -/ def fIcvFail (n : Nat) : Fld := ⟨0x40400 + 8 * n, 63, 32⟩
/-- SEC_MACSEC[n].STATE -/ def fMacsec (n : Nat) : Fld := ⟨0x40400 + 8 * n, 1, 0⟩
/-- SEC_MACSEC_CFG.REPLAY_WIN -/ def fReplayWin : Fld := ⟨0x40480, 63, 32⟩
/-- SEC_MACSEC_CFG.KS_PRIO -/ def fKsPrio : Fld := ⟨0x40480, 15, 8⟩
/-- SEC_MACSEC_CFG.CAK_SET -/ def fCakSet : Fld := ⟨0x40480, 0, 0⟩
/-- PART_ENT[p].TENANT_TAG -/ def fTenantTag (p : Nat) : Fld := ⟨0x50000 + 16 * p, 63, 32⟩
/-- PART_ENT[p].COLUMNS -/ def fColumns (p : Nat) : Fld := ⟨0x50000 + 16 * p, 15, 8⟩
/-- PART_ENT[p].VALID -/ def fValid (p : Nat) : Fld := ⟨0x50000 + 16 * p, 0, 0⟩
/-- PART_STAT[p].GEN -/ def fGen (p : Nat) : Fld := ⟨0x50008 + 16 * p, 63, 32⟩
/-- PART_STAT[p].KEY_EPOCH -/ def fKeyEpoch (p : Nat) : Fld := ⟨0x50008 + 16 * p, 31, 16⟩
/-- PART_STAT[p].STATE: 0 ABSENT, 1 CLEANSING, 2 AWAIT_KEYS, 3 KEYED, 4 ERASING -/
def fPartState (p : Nat) : Fld := ⟨0x50008 + 16 * p, 2, 0⟩
/-- SLOT_SCHED[p].GRANTS -/ def fGrants (p : Nat) : Fld := ⟨0x58000 + 0x20 * p, 63, 32⟩
/-- SLOT_SCHED[p].POOL -/ def fPool (p : Nat) : Fld := ⟨0x58000 + 0x20 * p, 31, 16⟩
/-- SLOT_SCHED[p].LAST -/ def fLastSlot (p : Nat) : Fld := ⟨0x58000 + 0x20 * p, 15, 8⟩
/-- SLOT_SCHED[p].ORDER -/ def fOrder (p : Nat) : Fld := ⟨0x58000 + 0x20 * p, 1, 0⟩
/-- SLOT_WAIT[p].MULTI -/ def fMulti (p : Nat) : Fld := ⟨0x58008 + 0x20 * p, 63, 32⟩
/-- SLOT_WAIT[p].STALLED -/ def fStalled (p : Nat) : Fld := ⟨0x58008 + 0x20 * p, 31, 0⟩
/-- SWATCH_STAT[p].ACK_STEP -/ def fAckStep (p : Nat) : Fld := ⟨0x58010 + 0x20 * p, 63, 32⟩
/-- SWATCH_STAT[p].ID_LO -/ def fSwId (p : Nat) : Fld := ⟨0x58010 + 0x20 * p, 31, 16⟩
/-- SWATCH_STAT[p].CAUSE -/ def fSwCause (p : Nat) : Fld := ⟨0x58010 + 0x20 * p, 15, 8⟩
/-- SWATCH_STAT[p].STATE -/ def fSwState (p : Nat) : Fld := ⟨0x58010 + 0x20 * p, 2, 0⟩
/-- SWATCH_BYTES[p].SENT -/ def fSwSent (p : Nat) : Fld := ⟨0x58018 + 0x20 * p, 63, 0⟩
/-- MEM_PART[p].SPREAD_N -/ def fSpreadN (p : Nat) : Fld := ⟨0x59000 + 16 * p, 43, 32⟩
/-- MEM_PART[p].LISTED -/ def fListed (p : Nat) : Fld := ⟨0x59000 + 16 * p, 31, 0⟩
/-- MEM_ROWS[p].SPREAD_ROWS -/ def fSpreadRows (p : Nat) : Fld := ⟨0x59008 + 16 * p, 63, 32⟩
/-- MEM_ROWS[p].FREE_MIB -/ def fFreeMib (p : Nat) : Fld := ⟨0x59008 + 16 * p, 31, 0⟩

-- NET (Tables 11-10 to 11-13)
/-- NET_CTL.UDP_PORT -/ def fUdpPort : Fld := ⟨0x80000, 47, 32⟩
/-- NET_CTL.DEAD_MS -/ def fDeadMs : Fld := ⟨0x80000, 31, 16⟩
/-- NET_CTL.RTO_MIN_US -/ def fRtoMin : Fld := ⟨0x80000, 15, 8⟩
/-- NET_CTL.ECN_EN -/ def fEcnEn : Fld := ⟨0x80000, 0, 0⟩
/-- NET_PORT_MAC[n].MAC -/ def fPortMac (n : Nat) : Fld := ⟨0x80100 + 8 * n, 47, 0⟩
/-- NET_PORT_IP[n] high -/ def fPortIpHi (n : Nat) : Fld := ⟨0x80200 + 16 * n, 63, 0⟩
/-- NET_PORT_IP[n] low -/ def fPortIpLo (n : Nat) : Fld := ⟨0x80208 + 16 * n, 63, 0⟩
/-- NET_PORT_GW[n].NEXTHOP -/ def fPortGw (n : Nat) : Fld := ⟨0x80140 + 8 * n, 47, 0⟩
/-- NET_PORT_CFG[n].VID -/ def fVid (n : Nat) : Fld := ⟨0x80300 + 8 * n, 31, 20⟩
/-- NET_PORT_CFG[n].PCP -/ def fPcp (n : Nat) : Fld := ⟨0x80300 + 8 * n, 19, 17⟩
/-- NET_PORT_CFG[n].TAG -/ def fVlanTag (n : Nat) : Fld := ⟨0x80300 + 8 * n, 16, 16⟩
/-- NET_PORT_CFG[n].RATE -/ def fCfgRate (n : Nat) : Fld := ⟨0x80300 + 8 * n, 2, 2⟩
/-- NET_PORT_CFG[n].ALLOW_RET -/ def fAllowRet (n : Nat) : Fld := ⟨0x80300 + 8 * n, 1, 1⟩
/-- NET_PORT_CFG[n].ENABLE -/ def fEnable (n : Nat) : Fld := ⟨0x80300 + 8 * n, 0, 0⟩
/-- NET_PORT_STAT[n].WAKE_SRC -/ def fWakeSrc (n : Nat) : Fld := ⟨0x80400 + 8 * n, 47, 40⟩
/-- NET_PORT_STAT[n].ROLE -/ def fRole (n : Nat) : Fld := ⟨0x80400 + 8 * n, 35, 34⟩
/-- NET_PORT_STAT[n].NEIGHBOUR -/ def fNeighbour (n : Nat) : Fld := ⟨0x80400 + 8 * n, 33, 33⟩
/-- NET_PORT_STAT[n].FEC_LOCK -/ def fFecLock (n : Nat) : Fld := ⟨0x80400 + 8 * n, 32, 32⟩
/-- NET_PORT_STAT[n].ADVERTISED -/ def fAdvertised (n : Nat) : Fld := ⟨0x80400 + 8 * n, 3, 3⟩
/-- NET_PORT_STAT[n].RATE -/ def fRate (n : Nat) : Fld := ⟨0x80400 + 8 * n, 2, 2⟩
/-- NET_PORT_STAT[n].LINK: 0 DOWN, 1 TRAINING, 2 UP -/ def fLink (n : Nat) : Fld := ⟨0x80400 + 8 * n, 1, 0⟩
/-- NET_PORT_CNT[n].FEC_CORR -/ def fFecCorr (n : Nat) : Fld := ⟨0x80500 + 8 * n, 63, 32⟩
/-- NET_PORT_CNT[n].FEC_UNCORR -/ def fFecUncorr (n : Nat) : Fld := ⟨0x80500 + 8 * n, 31, 16⟩
/-- NET_PORT_CNT[n].DROPS -/ def fDrops (n : Nat) : Fld := ⟨0x80500 + 8 * n, 15, 0⟩
/-- NET_CHIND_CNT.RETX -/ def fRetx : Fld := ⟨0x80600, 63, 32⟩
/-- NET_CHIND_CNT.ECE -/ def fEce : Fld := ⟨0x80600, 31, 16⟩
/-- NET_CHIND_CNT.UNREACH -/ def fUnreach : Fld := ⟨0x80600, 15, 0⟩

-- STK (Tables 10-11 to 10-16)
/-- STK_STAT.CH_FAILED -/ def fChFailed (x : Nat) : Fld := ⟨stkReg x 0, 47, 40⟩
/-- STK_STAT.CH_RETIRING -/ def fChRetiring (x : Nat) : Fld := ⟨stkReg x 0, 39, 32⟩
/-- STK_STAT.RETIRED -/ def fSRetired (x : Nat) : Fld := ⟨stkReg x 0, 11, 11⟩
/-- STK_STAT.DORMANT -/ def fSDormant (x : Nat) : Fld := ⟨stkReg x 0, 10, 10⟩
/-- STK_STAT.ASSIGNED -/ def fSAssigned (x : Nat) : Fld := ⟨stkReg x 0, 9, 9⟩
/-- STK_STAT.PART -/ def fSPart (x : Nat) : Fld := ⟨stkReg x 0, 8, 6⟩
/-- STK_STAT.TRAIN -/ def fTrain (x : Nat) : Fld := ⟨stkReg x 0, 1, 0⟩
/-- STK_CTL.PATROL_EN -/ def fPatrolEn (x : Nat) : Fld := ⟨stkReg x 8, 0, 0⟩
/-- STK_SCRUB.DONE_MIB -/ def fDoneMib (x : Nat) : Fld := ⟨stkReg x 0x10, 63, 32⟩
/-- STK_SCRUB.STATE: 0 IDLE, 1 RUNNING, 2 DONE, 3 REFUSED -/ def fScrub (x : Nat) : Fld := ⟨stkReg x 0x10, 3, 2⟩
/-- STK_PURL.UPD_BLOCKS -/ def fUpdBlocks (x : Nat) : Fld := ⟨stkReg x 0x18, 63, 32⟩
/-- STK_PURL.PARKED -/ def fParked (x : Nat) : Fld := ⟨stkReg x 0x18, 31, 16⟩
/-- STK_PURL.STAGED -/ def fStaged (x : Nat) : Fld := ⟨stkReg x 0x18, 15, 8⟩
/-- STK_REPAIR.ROWS_USED -/ def fRowsUsed (x : Nat) : Fld := ⟨stkReg x 0x20, 47, 32⟩
/-- STK_REPAIR.REPAIRS -/ def fRowRepairs (x : Nat) : Fld := ⟨stkReg x 0x20, 31, 16⟩
/-- STK_REPAIR.PATROL_PASSES -/ def fPatrolPasses (x : Nat) : Fld := ⟨stkReg x 0x20, 15, 0⟩
/-- STK_CH_STAT.CH_c -/ def fCh (x c : Nat) : Fld := ⟨stkReg x 0x100, 2 * c + 1, 2 * c⟩
/-- STK_CH_CNT.CE -/ def fChCe (x c : Nat) : Fld := ⟨stkReg x (0x200 + 8 * c), 63, 48⟩
/-- STK_CH_CNT.UE -/ def fChUe (x c : Nat) : Fld := ⟨stkReg x (0x200 + 8 * c), 47, 40⟩
/-- STK_CH_CNT.RETRAINS -/ def fRetrains (x c : Nat) : Fld := ⟨stkReg x (0x200 + 8 * c), 39, 24⟩
/-- STK_CH_CNT.SPARES_USED -/ def fSparesUsed (x c : Nat) : Fld := ⟨stkReg x (0x200 + 8 * c), 15, 8⟩
/-- STK_CH_CNT.MARGIN -/ def fMargin (x c : Nat) : Fld := ⟨stkReg x (0x200 + 8 * c), 7, 0⟩

-- UPD and GAUGE (Tables 8-8 to 8-13)
/-- UPD_STAT.NONFIN_OUT -/ def fNonfin : Fld := ⟨0x500000, 63, 48⟩
/-- UPD_STAT.TORN -/ def fTorn : Fld := ⟨0x500000, 47, 32⟩
/-- UPD_STAT.UNMATCHED -/ def fUnmatched : Fld := ⟨0x500000, 31, 16⟩
/-- UPD_STAT.STALE -/ def fStale : Fld := ⟨0x500000, 15, 0⟩
/-- UPD_PART[p].LAST_COMMIT -/ def fLastCommit (p : Nat) : Fld := ⟨0x500100 + 8 * p, 63, 32⟩
/-- UPD_PART[p].PENDING -/ def fPending (p : Nat) : Fld := ⟨0x500100 + 8 * p, 31, 0⟩
/-- GAUGE_LIMIT[p].LIMIT -/ def fLimit (p : Nat) : Fld := ⟨0x500200 + 8 * p, 63, 0⟩
/-- GAUGE_LAST[p].STEP -/ def fGaugeStep (p : Nat) : Fld := ⟨0x500300 + 8 * p, 63, 32⟩
/-- GAUGE_LAST[p].FLAGGED -/ def fGaugeFlagged (p : Nat) : Fld := ⟨0x500300 + 8 * p, 31, 16⟩
/-- GAUGE_LAST[p].FIRST_CAUSE -/ def fGaugeCause (p : Nat) : Fld := ⟨0x500300 + 8 * p, 15, 8⟩
/-- GAUGE_LAST[p].OUTCOME -/ def fGaugeOut (p : Nat) : Fld := ⟨0x500300 + 8 * p, 1, 0⟩
/-- GAUGE_NORM2[p].NORM2 -/ def fGaugeNorm (p : Nat) : Fld := ⟨0x500400 + 8 * p, 63, 0⟩
/-- UPD_LEASE[p].LEAKED -/ def fLeaked (p : Nat) : Fld := ⟨0x500500 + 8 * p, 63, 32⟩
/-- UPD_LEASE[p].OPEN -/ def fLeaseOpen (p : Nat) : Fld := ⟨0x500500 + 8 * p, 12, 0⟩
/-- UPD_TIER[p].WAKES -/ def fTierWakes (p : Nat) : Fld := ⟨0x500600 + 8 * p, 63, 48⟩
/-- UPD_TIER[p].DEFERRALS -/ def fDeferrals (p : Nat) : Fld := ⟨0x500600 + 8 * p, 47, 32⟩
/-- UPD_TIER[p].DORMANT -/ def fTierDormant (p : Nat) : Fld := ⟨0x500600 + 8 * p, 31, 0⟩
/-- UPD_INST[n].VISITS -/ def fVisits (n : Nat) : Fld := ⟨0x501000 + 8 * n, 63, 32⟩
/-- UPD_INST[n].IDLE -/ def fIdle (n : Nat) : Fld := ⟨0x501000 + 8 * n, 31, 16⟩
/-- UPD_INST[n].VISITED -/ def fVisited (n : Nat) : Fld := ⟨0x501000 + 8 * n, 0, 0⟩

-- RAS, TEST, MET (Tables 15-8, 15-9, 14-4)
/-- RAS_STAT.DROP_RUN -/ def fDropRun : Fld := ⟨0x600000, 47, 40⟩
/-- RAS_STAT.DROP_QUEUED -/ def fDropQueued : Fld := ⟨0x600000, 39, 32⟩
/-- RAS_STAT.ALERT -/ def fAlert : Fld := ⟨0x600000, 1, 1⟩
/-- RAS_STAT.HOLD -/ def fHold : Fld := ⟨0x600000, 0, 0⟩
/-- RAS_CNT.CE -/ def fCntCe : Fld := ⟨0x600008, 63, 32⟩
/-- RAS_CNT.UE -/ def fCntUe : Fld := ⟨0x600008, 31, 16⟩
/-- RAS_CNT.FATAL -/ def fCntFatal : Fld := ⟨0x600008, 15, 8⟩
/-- RAS_CNT.NOT_RUN -/ def fNotRun : Fld := ⟨0x600008, 7, 0⟩
/-- RAS_LOG_SEQ.NEXT_SEQ -/ def fNextSeq : Fld := ⟨0x600010, 63, 0⟩
/-- RAS_LOG_SEL.SEQ -/ def fLogSel : Fld := ⟨0x600018, 63, 0⟩
/-- RAS_REPAIR.USED -/ def fRepairUsed : Fld := ⟨0x600060, 15, 0⟩
/-- TEST_STAT.RUNS -/ def fTestRuns : Fld := ⟨0x700008, 63, 32⟩
/-- TEST_STAT.STATUS -/ def fTestStatus : Fld := ⟨0x700008, 2, 0⟩
/-- TEST_SIG[k] -/ def fTestSig (k : Nat) : Fld := ⟨0x700010 + 8 * k, 63, 0⟩
/-- MET_ENERGY -/ def fMetEnergy : Fld := ⟨0x30000, 63, 0⟩
/-- MET_SEQ -/ def fMetSeq : Fld := ⟨0x30008, 63, 0⟩
/-- MET_POWER.P_MW -/ def fMetPower : Fld := ⟨0x30010, 31, 0⟩
/-- MET_ID, whole -/ def fMetId : Fld := ⟨0x30018, 63, 0⟩
/-- MET_STAT.AUDIT -/ def fMetAudit : Fld := ⟨0x30020, 63, 32⟩
/-- MET_STAT.FAULT -/ def fMetFault : Fld := ⟨0x30020, 15, 8⟩
/-- MET_STAT.RESTART -/ def fMetRestart : Fld := ⟨0x30020, 0, 0⟩
/-- MET_LINK.LOST -/ def fMetLost : Fld := ⟨0x30028, 63, 32⟩
/-- MET_LINK.LINK_AGE_MS -/ def fMetAge : Fld := ⟨0x30028, 31, 0⟩
/-- MET_APPORT[p] -/ def fApport (p : Nat) : Fld := ⟨0x30100 + 8 * p, 63, 0⟩
/-- MET_APPORT_IDLE -/ def fApportIdle : Fld := ⟨0x30140, 63, 0⟩

end Sys2Proof.Machine
end

