-- ==== Sys2Proof/Machine/Ops.lean ====
section
/-! DEFINITION. Named operations over the state that every family of commands uses: looking things up, wakes of power
domains, the completion arbiter's fault recording (R54 to R56), error records (R369), event counters (R47 to R49), memory
behind handles and in scratchpads (R36, R37, R59, R60, R106), and replies to hosts (R25 to R27). -/
namespace Sys2Proof.Machine

/-- The outcome of a command whose effect on the device is `f`. -/
def onDev (f : Device → Device) (s : State) : Host.Outcome State Fault Refusal := .next { s with dev := f s.dev }

/-- The effect `f` if the condition holds; otherwise the event does not occur. -/
def occurs (c : Bool) (f : Device → Device) (d : Device) : Device := if c then f d else d

-- Looking things up.

/-- Key of logical tile `lt` of partition `p`. -/
def ltKey (p lt : Nat) : Nat := p * 32 + lt
/-- Logical tile `lt` of partition `p`. -/
def Device.lt (d : Device) (p l : Nat) : LTile := tget LTile.reset d.lts (ltKey p l)
/-- Replace a logical tile. -/
def Device.setLt (d : Device) (p l : Nat) (v : LTile) : Device := { d with lts := tput (ltKey p l) v d.lts }
/-- Change a logical tile. -/
def Device.modLt (d : Device) (p l : Nat) (f : LTile → LTile) : Device := d.setLt p l (f (d.lt p l))
/-- Partition `p`. -/
def Device.part (d : Device) (p : Nat) : Part := tget Part.reset d.parts p
/-- Replace a partition. -/
def Device.setPart (d : Device) (p : Nat) (v : Part) : Device := { d with parts := tput p v d.parts }
/-- Change a partition. -/
def Device.modPart (d : Device) (p : Nat) (f : Part → Part) : Device := d.setPart p (f (d.part p))
/-- Physical tile `t`. -/
def Device.tile (d : Device) (t : Nat) : PTile := tget PTile.reset d.tiles t
/-- Change a physical tile. -/
def Device.modTile (d : Device) (t : Nat) (f : PTile → PTile) : Device := { d with tiles := tput t (f (d.tile t)) d.tiles }
/-- The physical DPU of an array that a logical DPU maps to (R120): DPUs 0 to 1,023 are the first 32 column groups of 32, and
1,024 on are the spares, column group 32. -/
def PTile.dpu (x : PTile) (a n : Nat) : Nat :=
  match x.remaps.find? (fun m => decide (m.1 = a) && decide (m.2.1 = n)) with
  | none => n
  | some m => 1024 + m.2.2
/-- Logical DPUs of an array that a physical column group computes (R95, R120). -/
def PTile.groupDpus (x : PTile) (a g : Nat) : List Nat := (List.range 1024).filter (fun n => decide (x.dpu a n / 32 = g))
/-- Does a physical column group of an array of tile `t` compute any column? -/
def Device.groupUsed (d : Device) (t a g : Nat) : Bool := !((d.tile t).groupDpus a g).isEmpty
/-- Stack `x`. -/
def Device.stack (d : Device) (x : Nat) : Stack := tget Stack.reset d.stks x
/-- Change a stack. -/
def Device.modStack (d : Device) (x : Nat) (f : Stack → Stack) : Device := { d with stks := tput x (f (d.stack x)) d.stks }
/-- Power domain `n`. -/
def Device.dom (d : Device) (n : Nat) : Dom := tget Dom.reset d.doms n
/-- Change a power domain. -/
def Device.modDom (d : Device) (n : Nat) (f : Dom → Dom) : Device := { d with doms := tput n (f (d.dom n)) d.doms }
/-- Port `n`. -/
def Device.port (d : Device) (n : Nat) : Port := tget Port.reset d.ports n
/-- Change a port. -/
def Device.modPort (d : Device) (n : Nat) (f : Port → Port) : Device := { d with ports := tput n (f (d.port n)) d.ports }
/-- Flow context `i`. -/
def Device.flow (d : Device) (i : Nat) : Flow := tget Flow.reset d.flows i
/-- Replace a flow context. -/
def Device.setFlow (d : Device) (i : Nat) (v : Flow) : Device := { d with flows := tput i v d.flows }
/-- Change a flow context. -/
def Device.modFlow (d : Device) (i : Nat) (f : Flow → Flow) : Device := d.setFlow i (f (d.flow i))
/-- I/O die `i`. -/
def Device.die (d : Device) (i : Nat) : Die := tget Die.reset d.dies i
/-- Change an I/O die. -/
def Device.modDie (d : Device) (i : Nat) (f : Die → Die) : Device := { d with dies := tput i (f (d.die i)) d.dies }

/-- The descriptor of the open job (R30); empty when none is open. -/
def Part.desc (P : Part) : List Byte := (P.job.map (·.desc)).getD []
/-- JOB_SEED -/ def Part.seed (P : Part) : Nat := fld P.desc 0x08 8
/-- FLAGS.COMPAT -/ def Part.compat (P : Part) : Bool := bit (fld P.desc 0x16 2) 0
/-- FLAGS.NO_DORMANT -/ def Part.noDormant (P : Part) : Bool := bit (fld P.desc 0x16 2) 1
/-- FLAGS.STEP_NOTICE -/ def Part.stepNotice (P : Part) : Bool := bit (fld P.desc 0x16 2) 2
/-- DEV_ID -/ def Part.devId (P : Part) : Nat := fld P.desc 0x18 2 % 4096
/-- DEV_COUNT -/ def Part.devCount (P : Part) : Nat := fld P.desc 0x1A 2
/-- LT_COUNT -/ def Part.ltCount (P : Part) : Nat := fld P.desc 0x1C 1
/-- SLOTS -/ def Part.slots (P : Part) : Nat := fld P.desc 0x1D 1
/-- MB_PER_STEP -/ def Part.mbPerStep (P : Part) : Nat := fld P.desc 0x1E 2
/-- PROG_HANDLE -/ def Part.prog (P : Part) : Nat := fld P.desc 0x20 4
/-- MAP_HANDLE -/ def Part.mapH (P : Part) : Nat := fld P.desc 0x24 4
/-- JOB_ID of the open job, 0 for none. -/
def Part.jobId (P : Part) : BitVec 32 := (P.job.map (·.jobId)).getD 0
/-- NEXT_STEP of the open job, 0 for none. -/
def Part.nextStep (P : Part) : Nat := (P.job.map (·.nextStep)).getD 0

/-- The running work item (R33: at most one). -/
def Part.running (P : Part) : Option WorkItem := P.wis.find? (fun w => decide (w.state = .running))
/-- Change the running work item. -/
def Part.modRunning (P : Part) (f : WorkItem → WorkItem) : Part :=
  { P with wis := replaceFirst (fun w => decide (w.state = .running)) f P.wis }
/-- Does the partition have a running work item? -/
def Part.isRunning (P : Part) : Bool := P.running.isSome

/-- Columns of a mask, ascending (R41). -/
def colsOf (m : Nat) : List Nat := (List.range 8).filter (bit m)
/-- Tiles, and likewise stacks, of the columns of a mask (R12). -/
def unitsOf (m : Nat) : List Nat := (colsOf m).flatMap (fun c => (List.range 4).map (4 * c + ·))
/-- Logical tile numbers 0 to LT_COUNT - 1 of a partition (R12). -/
def Part.lts (P : Part) : List Nat := List.range (4 * (colsOf P.cols).length)

/-- Physical tile that hosts a logical tile. -/
def Device.hostOf (d : Device) (p l : Nat) : Option Nat :=
  (List.range 32).find? (fun t => decide ((d.tile t).part = some p) && (d.tile t).hosted.contains l)
/-- Is power domain `n` ON (PWR_DOM.STATE)? -/
def Device.domOn (d : Device) (n : Nat) : Bool := decide (d.rd (fDom n) = 0)

-- The test access port follows the device (R416, R417).

/-- Is the device ADMITTED: start-up has reached that mode, or stopped in it, or a warm reset keeps it (R310, R384, R385)? -/
def Device.admitted (d : Device) : Bool :=
  d.domOn 72 && decide (d.rd fMode = 0) && (d.recovery || d.halted6 || decide (d.rd fPhase = 9) || d.kept)
/-- Is a JTAG session open (R417)? -/
def Device.jtagOpen (d : Device) : Bool := d.testEn && d.admitted
/-- An instruction that needs a session acts as BYPASS without one. -/
def Tap.closed (t : Tap) : Tap := if t.ir = 0x00#8 || (0x10#8 ≤ t.ir && t.ir ≤ 0x7F#8) then { t with ir := 0xFF#8, driving := false, dr := 0 } else t
/-- The machine with its device changed: a start leaves the TAP in Test-Logic-Reset, and a session that ends, an instruction that needs it as
BYPASS. -/
def tapFollows (s : State) (d : Device) : State :=
  { s with dev := d, tap := if d.powered && !s.dev.powered then Tap.reset else if d.jtagOpen then s.tap else s.tap.closed }
/-- The outcome of a command that may start the module or end a session. -/
def onModule (f : Device → Device) (s : State) : Host.Outcome State Fault Refusal := .next (tapFollows s (f s.dev))

/-- The next free value: words the spec leaves open are drawn in order. -/
def Device.freeW (d : Device) : Word × Device := (Config.freeWord d.free, { d with free := d.free + 1 })
/-- `n` free bytes. -/
def Device.freeBs (d : Device) (n : Nat) : List Byte × Device :=
  ((List.range n).map (fun i => Config.freeByte (d.free + i)), { d with free := d.free + n })

/-- Append to what the device sends. -/
def Device.emit (d : Device) (o : Out) : Device := { d with out := d.out ++ [o] }

-- Wakes of power domains (R342 to R345).

/-- Start an exit of domain `n` from RET or OFF (R343), recording the wake source; a port records it too, as LINK for activity until
the first frame after the exit tells (R305), and, like
a stack, trains again when it was OFF (R268), unless it is FAILED (R373). -/
def startExit (d : Device) (n code : Nat) : Device :=
  let off := decide (d.rd (fDom n) = 2)
  let d := d.modDom n (fun x => { x with wake := none, refuse := none })
  let d := ((((d.wr (fDom n) 3).wr (fDomStep n) 6).wr (fDomReady n) 0).wr (fTarget n) 0).wr (fLastWake n) code
  if 64 ≤ n && n < 72 then
    let d := d.wr (fWakeSrc (n - 64)) (if code = 8 || code = 9 then 1 else 3)
    (if off && !(d.port (n - 64)).failed then d.wr (fLink (n - 64)) 1 else d).modPort (n - 64) (fun x => { x with wakeFirst := code = 8 || code = 9 })
  else if 32 ≤ n && n < 64 && off then d.wr (fTrain (n - 32)) 1
  else d

/-- A wake source meets domain `n`: ON domains and exiting ones are not woken; during an entry the wake is recorded for
the next abort point, or for the end of the entry once step 4 has begun (R342, R344). Without D.AON, or after a thermal
trip, nothing wakes. -/
def wakeOne (d : Device) (n code : Nat) : Device :=
  let st := d.rd (fDom n)
  if st = 0 || !d.domOn 79 || d.thermTrip then d
  else if st = 3 then
    if d.rd (fDomStep n) = 6 then d
    else if d.rd (fDomStep n) ≤ 3 && (d.dom n).refuse.isSome then d
    else if (d.dom n).wake.isSome then d
    else d.modDom n (fun x => { x with wake := some code })
  else startExit d n code

/-- A refuser's condition arises for domain `n` (its number in Table 13-3): during an entry, up to the last abort point, it is
recorded unless something was recorded before it (R342). -/
def refuseDom (d : Device) (n r : Nat) : Device :=
  if d.rd (fDom n) = 3 && decide (d.rd (fDomStep n) ≤ 3) && (d.dom n).wake.isNone && (d.dom n).refuse.isNone then
    d.modDom n (fun x => { x with refuse := some r })
  else d
/-- The condition arises for several domains. -/
def refuseDoms (d : Device) (ns : List Nat) (r : Nat) : Device := ns.foldl (fun d n => refuseDom d n r) d
/-- Tile and stack domains of the columns of a mask. -/
def columnDoms (cols : Nat) : List Nat := unitsOf cols ++ (unitsOf cols).map (32 + ·)

/-- Wake a domain; a wake of a tile or stack also wakes the fabric (Table 13-6, FABRIC_MSG). -/
def wakeDom (d : Device) (n code : Nat) : Device :=
  let d := if n < 64 && !d.domOn n then (List.range 4).foldl (fun d k => wakeOne d (74 + k) 11) d else d
  wakeOne d n code

/-- Tiles of a partition that are not retired. -/
def Device.usableTiles (d : Device) (p : Nat) : List Nat := (unitsOf (d.part p).cols).filter (fun t => !(d.tile t).retired)
/-- Wake every tile of a partition (sources LAUNCH and STOP); a retired one hosts nothing and stays OFF. -/
def wakeTiles (d : Device) (p code : Nat) : Device := (d.usableTiles p).foldl (fun d t => wakeDom d t code) d

-- The completion arbiter (R53 to R56).

/-- The device's gauge contribution for the step has left and its seam is not recorded: a cause stops no step then (R56). A
cause recorded after the seam stops the next step (R54, R55). -/
def Part.pastStop (P : Part) : Bool := P.contrib && decide (P.seam = .none)

/-- A cause recorded for a work item: the first is kept, later ones are counted (R53). -/
def WorkItem.blame (c : Cause) (w : WorkItem) : WorkItem :=
  if w.cause = .none then { w with cause := c } else { w with later := w.later + 1 }

/-- Record a fault or abort cause for the running work item: only the first cause counts (R53); before the gauge
contribution it stops the step (R55) and wakes the tiles with source STOP. -/
def recordFault (d : Device) (p : Nat) (c : Cause) : Device :=
  let P := d.part p
  match P.running with
  | none => d
  | some _ =>
    let P := P.modRunning (WorkItem.blame c)
    if P.pastStop then d.setPart p P else wakeTiles (d.setPart p { P with stopping := true }) p 3

/-- An instruction of the logical tiles `ls` faults (R55, R56): after the contribution they issue nothing further. -/
def tilesFault (d : Device) (p : Nat) (ls : List Nat) (c : Cause) : Device :=
  let h := (d.part p).pastStop
  let d := recordFault d p c
  if h then ls.foldl (fun d l => d.modLt p l (fun t => { t with block := .halted })) d else d
/-- A logical tile's own instruction faults. -/
def tileFault (d : Device) (p l : Nat) (c : Cause) : Device := tilesFault d p [l] c

-- Error records (R368, R369) and drop check requests (R372).

/-- An empty record of a class and source (Table 15-2). -/
def mkRec (cls source kind unit : Nat) : ERec :=
  { cls := cls, source := source, kind := kind, verdict := 0, action := 0, part := 0, seq := 0, boot := 0, wi := 0,
    step := 0, unit := unit, addr := 0, us := 0, refSeq := 0, detail := 0 }

/-- PART, WI_ID and STEP of a record that concerns partition `p`. -/
def ERec.inPart (r : ERec) (d : Device) (p : Nat) : ERec :=
  let P := d.part p
  match P.running with
  | none => { r with part := 0x80 + p }
  | some w => { r with part := 0x80 + p, wi := w.id, step := P.step }

/-- A record with the next SEQ, BOOT_COUNT and its time. -/
def Device.stamp (d : Device) (r : ERec) : ERec :=
  { r with seq := d.seqNv, boot := d.bootNv, us := Config.freeWord d.free }

/-- Domain of the unit that an error record names (Table 15-3). -/
def ERec.domain (r : ERec) : Option Nat :=
  let u := r.unit % 256
  if r.source ≤ 4 then some u
  else if r.source ≤ 7 then some (32 + u)
  else if r.source = 8 then (if u < 4 then some (74 + u) else none)
  else if r.source = 9 then some (64 + u)
  else none

/-- Create a record: it takes the next SEQ, is counted by class, asserts ALERT_N for a UE or FATAL, and waits in D.AON
SRAM for its commit to MRAM (R368, R369, R375); its write involves the domain of the unit it names (Table 13-3, RAS). -/
def addRecord (d : Device) (r : ERec) : Device :=
  let r := d.stamp r
  let d : Device := { d with staged := d.staged ++ [r], seqNv := r.seq + 1, free := d.free + 1 }
  let d := d.wr fNextSeq (r.seq + 1)
  let d := match r.domain with
    | some n => if n < 64 then refuseDom d n Refuser.ras.num else d
    | none => d
  if r.cls = 0 then d.inc fCntCe
  else if r.cls = 1 then (d.inc fCntUe).wr fAlert 1
  else if r.cls = 2 then (d.inc fCntFatal).wr fAlert 1
  else d

/-- A drop check's verdict record (R369). -/
def verdictRec (d : Device) (r : ERec) (verdict action : Nat) : Device :=
  addRecord d { r with cls := 3, verdict := verdict, action := action, refSeq := r.seq }

/-- The unit a record names, as far as a drop check tells units apart: a scratchpad check covers the bank, whatever the
row (Table 15-3, R371). -/
def ERec.unitNo (r : ERec) : Nat := if r.source = 3 then r.unit % 65536 else r.unit
/-- Do two records name the same unit? -/
def sameUnit (a b : ERec) : Bool := decide (a.source = b.source) && decide (a.unitNo = b.unitNo)

/-- RAS_STAT follows the checks. -/
def setChecks (d : Device) (cs : List Check) : Device :=
  let d : Device := { d with checks := cs }
  (d.wr fDropRun (cs.filter (fun c => c.running)).length).wr fDropQueued (cs.filter (fun c => !c.running)).length

/-- A drop check is requested for the unit a record names: queued in SEQ order, merged into a check of the same unit, or
NOT_RUN when 64 wait already (R372). -/
def requestCheck (d : Device) (r : ERec) : Device :=
  if d.checks.any (fun c => sameUnit c.req r) then
    { d with checks := d.checks.map (fun c => if sameUnit c.req r then { c with hit := c.hit || c.running } else c) }
  else if (d.checks.filter (fun c => !c.running)).length = 64 then (verdictRec d r 4 0).inc fNotRun
  else setChecks d (d.checks ++ [{ req := r, running := false, hit := false }])

/-- Does a drop check of tile `t`'s arrays wait that may start at the next pass boundary (R121, R372)? No pass begins before
it. -/
def Device.checkDue (d : Device) (t : Nat) : Bool :=
  d.checks.any (fun c => !c.running && decide (c.req.source = 1) && decide (c.req.unit % 256 = t)) &&
  decide ((d.checks.filter (fun c => c.running)).length < 16) &&
  !d.checks.any (fun c => c.running && decide (c.req.source ≤ 4) && decide (c.req.unit % 256 = t))

/-- Create a record whose unit gets a drop check. -/
def errorCheck (d : Device) (r : ERec) : Device :=
  let r : ERec := { r with verdict := 1 }
  requestCheck (addRecord d r) (d.stamp r)

/-- A FATAL record of a source other than SEC and THERM: every running work item gets cause FATAL and the hold is set
(R374). -/
def fatalHold (d : Device) (r : ERec) : Device :=
  let d := addRecord d { r with cls := 2, action := 12 }
  ((List.range 8).foldl (fun d p => recordFault d p .fatal) d).wr fHold 1

/-- A UE contained to the running work item of partition `p` (R368): the record, and the fault with cause UE, a fault of the
logical tiles `ls` whose own instructions met it (R56). -/
def ueFault (d : Device) (p : Nat) (ls : List Nat) (r : ERec) : Device :=
  let a := if (d.part p).isRunning then 11 else 0
  tilesFault (errorCheck d ((({ r with cls := 1, action := a } : ERec)).inPart d p)) p ls .ue

/-- Does a running drop check of one of the sources have unit `u` out of service (Table 15-4)? -/
def Device.outOfService (d : Device) (srcs : List Nat) (u : Nat) : Bool :=
  d.checks.any (fun c => c.running && srcs.contains c.req.source && decide (c.req.unit % 256 = u))
/-- An exchange engine is under check. DESIGN CHOICE (log 128): which engine has an operation's work is the device's own, and no exchange,
cable or fan completes meanwhile. -/
def Device.exchOut (d : Device) : Bool := d.checks.any (fun c => c.running && decide (c.req.source = 0x0A))
/-- The whole tile is out of service: a scratchpad bank or an SRAM structure of it is under check. -/
def Device.tileOut (d : Device) (t : Nat) : Bool := d.outOfService [3, 4] t

-- Event counters (R47 to R49, R346).

/-- Posts still held for the tiles of a partition are dropped: no later work item sees them (R40, R45). -/
def dropHeld (d : Device) (p : Nat) : Device :=
  (unitsOf (d.part p).cols).foldl (fun d t => d.modDom t (fun x => { x with posts := x.posts.filter (fun q => decide (q.1 ≠ p)) })) d

-- Slot grants (R234, R235).

/-- Value of a counter. -/
def Device.ctrOf (d : Device) (p l c : Nat) : Nat := (tget 0 (d.lt p l).ctr c).toNat
/-- Counter READY(j) (Table 9-4). -/
def Part.readyCtr (P : Part) (j : Nat) : Nat := P.cbase + 3 + 2 * j
/-- Counter YIELD(j) (Table 9-4). -/
def Part.yieldCtr (P : Part) (j : Nat) : Nat := P.cbase + 4 + 2 * j
/-- Does YIELD(j) exceed, on every logical tile, the value it held when j was last granted (R235)? -/
def Device.pooled (d : Device) (p j : Nat) : Bool :=
  let P := d.part p
  (List.range P.ltCount).all (fun l => decide (tget 0 P.yieldAt (32 * j + l) < d.ctrOf p l (P.yieldCtr j)))
/-- Is slot j of the pool ready (R235)? -/
def Device.slotReady (d : Device) (p j : Nat) : Bool :=
  let P := d.part p
  (List.range P.ltCount).all (fun l => decide (d.ctrOf p l (P.yieldCtr j) ≤ d.ctrOf p l (P.readyCtr j)))
/-- Does every logical tile's REQ exceed the grants made (R236)? -/
def Device.allAsk (d : Device) (p : Nat) : Bool :=
  let P := d.part p
  (List.range P.ltCount).all (fun l => decide (d.rd (fGrants p) < d.ctrOf p l P.cbase))
/-- The pool register follows the pool. -/
def setPool (d : Device) (p : Nat) (js : List Nat) : Device :=
  (d.modPart p (fun P => { P with pool := js })).wr (fPool p) ((js.map (2 ^ ·)).sum)
/-- After a counter has changed: slots that have entered the pool join it, and a grant that has to wait is marked. -/
def slotTrack (d : Device) (p : Nat) : Device :=
  let P := d.part p
  if P.order = 0 then d
  else
    let d := setPool d p (P.pool ++ (List.range P.slots).filter (fun j => !P.pool.contains j && d.pooled p j))
    let js := (d.part p).pool
    if d.allAsk p && js ≠ [] && js.all (fun j => !d.slotReady p j) then d.modPart p (fun P => { P with stalled := true }) else d

/-- Increment a counter of a logical tile whose tile is ON; a carry past 0xFFFF_FFFF faults EVT_OVERFLOW instead, a fault of
the logical tiles `src` whose instructions made the increment (R49, R56, Table 3-25), and a SYNC.WAIT whose target is reached
returns. -/
def bumpCounter (d : Device) (src : List Nat) (p l ctr n : Nat) : Device :=
  let t := d.lt p l
  let v := (tget 0 t.ctr ctr).toNat + n
  if 0xFFFFFFFF < v then tilesFault d p src .evtOverflow
  else
    let b := match t.block with
      | .wait c g => if c = ctr && decide (g ≤ v) then Blocked.none else .wait c g
      | b => b
    slotTrack (d.setLt p l { t with ctr := tset 0 t.ctr ctr (BitVec.ofNat 32 v), block := b }) p

/-- Add a post to those a fabric node holds, merged per counter (R346). -/
def mergePost (src : List Nat) (p l ctr n : Nat) : List (Nat × Nat × Nat × Nat × List Nat) → List (Nat × Nat × Nat × Nat × List Nat)
  | [] => [(p, l, ctr, n, src)]
  | (q, m, c, k, ls) :: t =>
    if q = p && m = l && c = ctr then (q, m, c, k + n, ls ++ src) :: t else (q, m, c, k, ls) :: mergePost src p l ctr n t

/-- A post to a counter: applied if the hosting tile is ON and in service, else held in its fabric node while the tile wakes or its drop
check runs (R346, R371). A post is made only while a work item of the partition runs (R49). `src`: the logical tile whose instruction makes it, if one does. -/
def post (d : Device) (src : List Nat) (p l ctr n : Nat) : Device :=
  if !(d.part p).isRunning then d
  else match d.hostOf p l with
    | none => bumpCounter d src p l ctr n
    | some t =>
      if d.domOn t && !d.tileOut t then bumpCounter d src p l ctr n
      else wakeDom (d.modDom t (fun x => { x with posts := mergePost src p l ctr n x.posts })) t 1
/-- The posts that a tile's fabric node holds are applied, in arrival order (R346). -/
def applyPosts (d : Device) (n : Nat) : Device :=
  let qs := (d.dom n).posts
  if qs = [] then d
  else qs.foldl (fun d q => if (d.part q.1).isRunning then bumpCounter d q.2.2.2.2 q.1 q.2.1 q.2.2.1 q.2.2.2.1 else d)
    (d.modDom n (fun x => { x with posts := [] }))

/-- Operation `id` of a logical tile completes: posts that waited for it wait no longer, and its completion field posts
its counter (R66, R77). -/
def complete (d : Device) (p l id : Nat) (cf : CF) : Device :=
  let d := d.modLt p l (fun t => { t with posts := t.posts.map (fun q => { q with waits := q.waits.filter (· ≠ id) }) })
  match cf with
  | none => d
  | some c => post d [l] p l c 1

-- Memory behind handles (R36, R37, R59, R60) and scratchpads (R46, R106).

/-- Bytes of a scratchpad. -/
def spadSize : Nat := 2 ^ 25
/-- First byte of the partial-sum region (R106). -/
def psumBase : Nat := 2 ^ 24
/-- Memory key of a byte behind a handle. -/
def hKey (p h off : Nat) : Nat := p * 2 ^ 70 + h * 2 ^ 38 + off
/-- Key of a scratchpad byte. -/
def spKey (p l off : Nat) : Nat := ltKey p l * 2 ^ 25 + off
/-- Key of a granule of a handle. -/
def gKey (h off : Nat) : Nat := h * 2 ^ 27 + off / 2048

/-- A handle's entry. -/
def Part.entry (P : Part) (h : Nat) : Option HEntry := tget none P.handles h
/-- SIZE of a handle, 0 when unknown. -/
def Part.sizeOf (P : Part) (h : Nat) : Nat := ((P.entry h).map (·.size)).getD 0
/-- Does a byte range touch a granule in a FAILED channel (R267)? -/
def Part.lost (P : Part) (h off n : Nat) : Bool :=
  P.dead.any (fun e => decide (h * 2 ^ 27 + off / 2048 ≤ e.1) && decide (e.1 ≤ h * 2 ^ 27 + (off + n - 1) / 2048) && decide (0 < n))
/-- Granule keys that a byte range touches. -/
def granules (h off n : Nat) : List Nat :=
  if n = 0 then [] else (List.range ((off + n - 1) / 2048 + 1 - off / 2048)).map (fun i => gKey h off + i)
/-- Does a byte range touch a poisoned granule (R60)? -/
def Part.poisoned (P : Part) (h off n : Nat) : Bool :=
  P.poison.any (fun e => decide (gKey h off ≤ e.1) && decide (e.1 ≤ gKey h (off + n - 1)) && decide (0 < n))
/-- Granules of a range that a single write covers whole (R59). -/
def wholeGranules (h off n : Nat) : List Nat :=
  (granules h off n).filter (fun g =>
    let b := (g - h * 2 ^ 27) * 2048
    decide (off ≤ b) && decide (b + 2048 ≤ off + n))

/-- Bytes behind a handle; a fresh or unwritten byte reads 0 (R36). -/
def Device.hRead (d : Device) (p h off n : Nat) : List Byte := mread d.mem (hKey p h off) n

/-- A single write behind a handle: stores the bytes and lifts the poison of the granules it covers whole (R59), but
for granules that have no channel left. -/
def Device.hStore (d : Device) (p h off : Nat) (bs : List Byte) : Device :=
  let d := { d with mem := mwrite d.mem (hKey p h off) bs }
  if (d.part p).poison = [] then d
  else
    let w := wholeGranules h off bs.length
    d.modPart p (fun P => { P with poison := P.poison.filter (fun e => !w.contains e.1 || tget false P.dead e.1) })

/-- A write by a work item: as `hStore`, and its granules count as written in the step (R55). -/
def Device.hWrite (d : Device) (p h off : Nat) (bs : List Byte) : Device :=
  let d := d.hStore p h off bs
  d.modPart p (fun P => { P with written := (granules h off bs.length).foldl (fun w g => tput g true w) P.written })

/-- What stored byte 0 stands for at a scratchpad offset: 0, or a free byte of the partial-sum region (R106). -/
def spMaskOf (psFree : Option Nat) (off : Nat) : Byte :=
  match psFree with
  | none => 0#8
  | some k => if psumBase ≤ off then Config.freeByte (k + (off - psumBase)) else 0#8
/-- The same for a logical tile's scratchpad as it is. -/
def LTile.spMask (t : LTile) (off : Nat) : Byte := spMaskOf t.psFree off
/-- Exclusive or of bytes with the masks of the offsets they stand at. -/
def LTile.spXor (t : LTile) : Nat → List Byte → List Byte
  | _, [] => []
  | off, b :: bs => (b ^^^ t.spMask off) :: t.spXor (off + 1) bs
/-- Bytes of a scratchpad. -/
def Device.spRead (d : Device) (p l off n : Nat) : List Byte :=
  (d.lt p l).spXor off (mread d.spad (spKey p l off) n)
/-- Write bytes of a scratchpad. -/
def Device.spWrite (d : Device) (p l off : Nat) (bs : List Byte) : Device :=
  { d with spad := mwrite d.spad (spKey p l off) ((d.lt p l).spXor off bs) }
/-- The bytes of a logical tile's partial-sum region become open: the device places groups there (R106). -/
def Device.openRegion (d : Device) (p l : Nat) : Device :=
  let k := d.free
  ({ d with spad := mclear d.spad (spKey p l psumBase) psumBase, free := k + psumBase } : Device).modLt p l
    (fun t => { t with psFree := some k })

/-- An address register's value taken apart (R46): handle, byte position, and whether a scratchpad address has a bit of
[31:25] set. -/
structure Loc where
  h : Nat
  pos : Nat
  bad : Bool
  deriving DecidableEq, Repr

/-- Location that an address register names (R46). -/
def locOf (a : Word) : Loc :=
  let h := bits a.toNat 63 32
  let o := bits a.toNat 31 0
  if h = 0 then ⟨0, o % 2 ^ 25, decide (2 ^ 25 ≤ o)⟩ else ⟨h, o * 64, false⟩

/-- A location `k` bytes further. -/
def Loc.plus (x : Loc) (k : Nat) : Loc := { x with pos := x.pos + k }

/-- The cause a read of `n` bytes faults with, if any (Table 3-25, R60); a request to a FAILED channel returns UE (R267). -/
def Device.readFault (d : Device) (p : Nat) (x : Loc) (n : Nat) : Option Cause :=
  if x.h = 0 then (if x.bad || decide (spadSize < x.pos + n) then some .bounds else none)
  else match (d.part p).entry x.h with
    | none => some .bounds
    | some e => if e.size < x.pos + n then some .bounds
                else if (d.part p).lost x.h x.pos n then some .ue
                else if (d.part p).poisoned x.h x.pos n then some .poisonRead else none

/-- The cause a write of `n` bytes faults with, if any (Table 3-25, R267). -/
def Device.writeFault (d : Device) (p : Nat) (x : Loc) (n : Nat) : Option Cause :=
  if x.h = 0 then (if x.bad || decide (spadSize < x.pos + n) then some .bounds else none)
  else match (d.part p).entry x.h with
    | none => some .bounds
    | some e => if e.size < x.pos + n || !bit e.access 0 then some .bounds
                else if (d.part p).lost x.h x.pos n then some .ue else none

/-- Is any group of the logical tile open, or a walk of it running (R106)? -/
def Device.psumBusy (d : Device) (p l : Nat) : Bool :=
  let t := d.lt p l
  t.ags.any (fun e => e.2.isSome) || t.groups.any (fun e => e.2.isSome) ||
  (d.part p).walks.any (fun w => w.started && bit w.mask l && !w.done.contains l)

/-- A group whose partial sums are no longer known: free values. -/
def Group.scrambled (g : Group) (k : Nat) : Group :=
  { g with sums := (List.range (g.m * 1024)).foldl (fun t i => tset 0 t i (Config.freeWord (k + i))) [] }
/-- The walk units that a logical tile has in progress are spoiled. -/
def Walk.spoil (l : Nat) (w : Walk) : Walk :=
  { w with prog := w.prog.map (fun u => if u.lt = l then { u with spoiled := true } else u) }
/-- An instruction addresses the partial-sum region while it holds groups (R106): the region's bytes, the open groups, and
the units of a walk in progress on the logical tile, hold unspecified values from then on. -/
def Device.scramble (d : Device) (p l off n : Nat) : Device :=
  if off + n ≤ psumBase || n = 0 || !d.psumBusy p l then d
  else
    let d := (d.openRegion p l).modPart p (fun P => { P with walks := P.walks.map (Walk.spoil l) })
    let k := d.free
    ({ d with free := k + 16 * 2 ^ 20 } : Device).modLt p l (fun t => { t with groups := t.groups.map (fun e =>
      (e.1, e.2.map (fun g => g.scrambled (k + e.1 * 2 ^ 20)))) })

/-- Read `n` bytes at a location for a logical tile; no check. -/
def Device.readAt (d : Device) (p l : Nat) (x : Loc) (n : Nat) : List Byte :=
  if x.h = 0 then d.spRead p l x.pos n else d.hRead p x.h x.pos n

/-- Write bytes at a location for a logical tile; no check. -/
def Device.writeAt (d : Device) (p l : Nat) (x : Loc) (bs : List Byte) : Device :=
  if x.h = 0 then d.spWrite p l x.pos bs else d.hWrite p x.h x.pos bs

/-- Effect of addressing a location that may lie in the partial-sum region. -/
def Device.touch (d : Device) (p l : Nat) (x : Loc) (n : Nat) : Device :=
  if x.h = 0 then d.scramble p l x.pos n else d

/-- The same of several places with their bytes. -/
def Device.touchAll (d : Device) (p l : Nat) (xs : List (Loc × Nat)) : Device := xs.foldl (fun d x => d.touch p l x.1 x.2) d

/-- Stacks that hold a handle's granules (R259): those of its channel list, or its one stack. -/
def Part.stacksOf (P : Part) (h : Nat) : List Nat :=
  match P.entry h with
  | none => []
  | some e => if e.place.spread then (e.place.list.map (· / 32)).dedup else [e.place.stack]

/-- Channels that a handle's granules lie in (R259). -/
def Part.chansOf (P : Part) (h : Nat) : List Nat := ((P.entry h).map (·.place.list)).getD []
/-- Do the handle's stacks and channels serve requests? While a stack is not ON, requests to it wait in its port's queue
(R346); while a channel is PAUSED, those to it wait in the channel's (R264, R265, R266). -/
def Device.reach (d : Device) (p h : Nat) : Bool :=
  ((d.part p).stacksOf h).all (fun x => d.domOn (32 + x)) && ((d.part p).chansOf h).all (fun c => decide (d.rd (fCh (c / 32) (c % 32)) ≠ 1))
/-- Wake the stacks of a handle for an access with the given source code (Table 13-6). -/
def Device.wakeFor (d : Device) (p h code : Nat) : Device :=
  ((d.part p).stacksOf h).foldl (fun d x => wakeDom d (32 + x) code) d

/-- Does every handle named serve requests? Handle 0 is the scratchpad. -/
def Device.reachAll (d : Device) (p : Nat) (hs : List Nat) : Bool := hs.all (fun h => h = 0 || d.reach p h)
/-- Wake the stacks of the handles named. -/
def wakeAll (d : Device) (p : Nat) (hs : List Nat) (code : Nat) : Device := hs.foldl (fun d h => d.wakeFor p h code) d
/-- Do `f` once every handle named serves; until then wake its stacks and wait (R346). -/
def whenReached (d : Device) (p : Nat) (hs : List Nat) (code : Nat) (f : Device → Device) : Device :=
  if d.reachAll p hs then f d else wakeAll d p hs code

/-- Is an update of a shard, of a step before the current one, still to be written, or a flip of its RES_SEL still to come? Reads
of the shard wait for it (R208; R226, step 1). -/
def Part.updating (P : Part) (h : Nat) : Bool :=
  P.updates.any (fun u => decide (u.desc.shard = h) && decide (u.step ≠ P.step)) ||
  P.resFlips.any (fun r => decide (r.2 = h) && decide (r.1 ≠ P.step))
/-- Do the handles serve, with no update of one to be awaited? -/
def Device.readable (d : Device) (p : Nat) (hs : List Nat) : Bool := d.reachAll p hs && !hs.any (d.part p).updating
/-- Do `f`, which reads the handles `rs` and writes `ws`, once no update of a handle read is to be awaited and all serve. -/
def whenRead (d : Device) (p : Nat) (rs ws : List Nat) (code : Nat) (f : Device → Device) : Device :=
  if rs.any (d.part p).updating then d else whenReached d p (rs ++ ws) code f

/-- The device's gauge flag of the step is set by operation `id` of a logical tile; when the contribution has left, or
the operation was issued after the tile's UPD.GAUGE, it is carried to the next step (R91). -/
def setFlag (d : Device) (p l id : Nat) : Device :=
  let late := (d.part p).contrib || (d.lt p l).upd.any (fun o => decide (o.kind = 1) && decide (o.id < id))
  d.modPart p (fun P => if late then { P with carry := true } else { P with flag := true })

/-- Add to a counter of the physical tile that hosts a logical tile. -/
def tileCount (d : Device) (p l : Nat) (f : Nat → Fld) (n : Nat := 1) : Device :=
  match d.hostOf p l with
  | none => d
  | some t => d.inc (f t) n

-- What a tile's checks find (R367, R370).

/-- Is the find a UE: the repeat disagrees too, or the error is a double one? -/
def findUe : TileFind → Bool
  | .none => false
  | .vector _ again => again
  | .spad _ _ double => double
  | .sram _ double => double
/-- The find as far as an operation can meet it: `opc` is the opcode of a vector-unit one. -/
def findMet (opc : Option Nat) : TileFind → TileFind
  | .vector g again => if opc.isSome then .vector g again else .none
  | f => f
/-- Its record on tile `t` (Table 15-3). DESIGN CHOICE (log 126): consecutive 128-byte lines of a scratchpad lie in consecutive banks; the
word of the line and the syndrome are free values. -/
def findRec (t opc k : Nat) : TileFind → Option ERec
  | .none => none
  | .vector g _ => some { mkRec 0 2 1 (t + 256 * g.val) with detail := opc, action := 1 }
  | .spad b r double => some { mkRec 0 3 (if double then 2 else 1) (t + 256 * b.val + 65536 * r.toNat) with
      addr := (r.toNat * 64 + b.val) * 128 + 8 * (Config.freeNat k % 16), detail := Config.freeNat (k + 1) % 2 ^ 32 }
  | .sram s double => some { mkRec 0 4 (if double then 2 else 1) (t + 256 * s.val) with detail := Config.freeNat (k + 1) % 2 ^ 32 }
/-- The checks of tile `t` find something; `who`: its partition, and the logical tiles whose own instruction met it. A CE, or a UE of the work
item (R56, R368). -/
def unitFound (d : Device) (t : Nat) (who : Option (Nat × List Nat)) (opc : Nat) (f : TileFind) : Device :=
  match findRec t opc d.free f with
  | none => d
  | some r =>
    let d : Device := { d with free := d.free + 2 }
    match who with
    | none => errorCheck d { r with cls := if findUe f then 1 else 0 }
    | some (p, ls) => if findUe f then ueFault d p ls r else errorCheck d (r.inPart d p)
/-- An operation of a logical tile ends with a find. -/
def tileFound (d : Device) (p l opc : Nat) (f : TileFind) : Device :=
  match d.hostOf p l with
  | none => d
  | some t => unitFound d t (some (p, [l])) opc f

-- Lists of bytes and values.

/-- Words of `n` bytes each from a byte list. -/
def wordsOf (n cnt : Nat) (bs : List Byte) : List Nat := (List.range cnt).map (fun i => fld bs (n * i) n)

/-- Channels of a stack that are PAUSED. -/
def Device.pausedCh (d : Device) (x : Nat) : List Nat := (List.range 32).filter (fun c => decide (d.rd (fCh x c) = 1))

-- Purl engines and save areas (R43, R271, R373).

/-- The next stack of the partition in ascending number whose own engine works, after the last the first. -/
def Device.nextStack (d : Device) (p x : Nat) : Nat :=
  let xs := (unitsOf (d.part p).cols).filter (fun y => decide (y ≠ x) && decide (d.rd (fSRetired y) = 0) && !(d.stack y).replaced)
  (xs.find? (fun y => decide (x < y))).getD (xs.getD 0 x)
/-- The engine that does the work of a stack's Purl engine: its own, or the next stack's in its place (R373). -/
def Device.engineOf (d : Device) (p x : Nat) : Nat := if (d.stack x).replaced then d.nextStack p x else x
/-- Stack whose save area a tile uses: its own, or the one it borrows (R43). -/
def Device.saveStack (d : Device) (t : Nat) : Nat := (d.tile t).area.getD t
/-- Is a logical tile's scratchpad saved to or restored from the stack's save area (R43)? -/
def Device.saving (d : Device) (x : Nat) : Bool := (List.range 32).any (fun t => (d.tile t).switching && decide (d.saveStack t = x))
/-- Does engine `g` of partition `p` copy a row, which goes before all its other work (R271), or is it under check (R371)? -/
def Device.engineRepairs (d : Device) (p g : Nat) : Bool :=
  (List.range 32).any (fun x => (d.stack x).repair.isSome && decide (d.engineOf p x = g)) || d.outOfService [7] g
/-- Can the engines of the stacks add a cable's part now, or save and restore a scratchpad (R271, priority 2)? -/
def Device.enginesAdd (d : Device) (p : Nat) (xs : List Nat) : Bool := xs.all (fun x => !d.engineRepairs p (d.engineOf p x))

/-- The next value of the root of trust's random generator (R318). -/
def Device.random (d : Device) : List Byte × Device := (Config.drbg d.drbgN, { d with drbgN := d.drbgN + 1 })

-- Data held on the I/O dies (R317).

/-- AES-256 in counter mode under a buffer key: slot address and write count give the counter block. The same function encrypts and
decrypts. What no partition owns has no buffer key and stands as it is. -/
def dieCrypt (key : List Byte) (count : Nat) (bs : List Byte) : List Byte :=
  if key = [] then bs else Config.xorStream (Config.ctrStream key (Config.slotAddr count) count) 0 bs
/-- Bytes of partition `p` are written to an I/O die. -/
def Device.store (d : Device) (p : Nat) (bs : List Byte) : Stored × Device :=
  ({ count := d.ioWrites, bytes := dieCrypt (d.part p).bufKey d.ioWrites bs }, { d with ioWrites := d.ioWrites + 1 })
/-- They are read back under the partition's buffer key. -/
def Device.unstore (d : Device) (p : Nat) (x : Stored) : List Byte := dieCrypt (d.part p).bufKey x.count x.bytes
/-- The values of a cable message that waits, with its header. -/
def Device.openSeg (d : Device) (m : CableMsg) (x : Stored) : CableMsg :=
  let bs := d.unstore m.part x
  { m with values := (wordsOf 8 (bs.length / 8) bs).map (BitVec.ofNat 64) }
/-- The payload of a skein message that waits, with its header. -/
def Device.openSkein (d : Device) (m : SkeinMsg) (x : Stored) : SkeinMsg := { m with payload := d.unstore m.part x }
/-- A request that waits at the launch endpoint, with its body. -/
def Device.openReq (d : Device) (q : WaitReq) : Req := { q.req with body := d.unstore q.req.part q.body }

/-- Values of `n` elements of a format, with data plane and scales (R99, R126, R132) given as bytes. -/
def elemVals (code bsz n : Nat) (data scales : List Byte) : List Val :=
  (List.range n).map (fun i => scaledVal code (rawElem code data i) (fld scales (i / blockOf bsz) 1))

/-- Replies to hosts (R25, R27): a message to a launch endpoint's flow. -/
def hostMsg (typ : Nat) (jobId reqSeq : BitVec 32) (body : List Byte) : List Byte :=
  toLe 1 typ ++ toLe 1 1 ++ toLe 2 body.length ++ toLe 4 jobId.toNat ++ toLe 4 reqSeq.toNat ++ toLe 4 0 ++ body

/-- Code of a cause (Table 2-12). -/
def Cause.code : Cause → Nat
  | .none => 0 | .hostAbort => 1 | .peerFault => 2 | .tileRetired => 3 | .ue => 4 | .stale => 5 | .bounds => 6
  | .poisonRead => 7 | .illegalInstr => 8 | .evtOverflow => 9 | .torn => 10 | .queueFlush => 11 | .fatal => 12
/-- Code of a work-item state (Table 2-11). -/
def WiState.code : WiState → Nat
  | .queued => 0 | .running => 1 | .completed => 2 | .aborted => 3 | .retry => 4 | .faulted => 5

/-- STATUS body (Table 2-3): code, state, cause, work item, last step, next step, poisoned granules, echo. -/
def statusBody (code st cause wi last nxt poisoned echo : Nat) : List Byte :=
  toLe 2 code ++ toLe 1 st ++ toLe 1 cause ++ toLe 4 wi ++ toLe 4 last ++ toLe 4 nxt ++
  toLe 4 (min poisoned 0xFFFFFFFF) ++ toLe 2 echo ++ toLe 2 0

end Sys2Proof.Machine
end

