-- ==== Sys2Proof/Machine/Place.lean ====
section
/-! DEFINITION. Placement of logical tiles (R41 to R44): the initial map, rehosting after retirements, and what the
partition's tiles can host. -/
namespace Sys2Proof.Machine

/-- Mesh hops between two tiles (R10). -/
def hops (a b : Nat) : Nat := (max (a / 4) (b / 4) - min (a / 4) (b / 4)) + (max (a % 4) (b % 4) - min (a % 4) (b % 4))

/-- Is the stack beside a tile usable as its save area? -/
def Device.ownArea (d : Device) (t : Nat) : Bool := decide (d.rd (fSRetired t) = 0)
/-- Usable stacks of the partition whose save area serves only its own tile (R43). -/
def Device.freeAreas (d : Device) (p : Nat) : List Nat :=
  let us := unitsOf (d.part p).cols
  us.filter (fun x => d.ownArea x && us.all (fun t => decide ((d.tile t).area ≠ some x)))
/-- The area that a tile borrows: that of the stack with the fewest mesh hops from it, then of the lowest number. -/
def Device.nearArea (d : Device) (p t : Nat) : Option Nat :=
  (d.freeAreas p).foldl (fun o x => match o with
    | none => some x
    | some y => if hops t x < hops t y then some x else some y) none
/-- Has the tile a save area: its own stack's, or one it borrows? -/
def Device.hasArea (d : Device) (t : Nat) : Bool := d.ownArea t || ((d.tile t).area.map d.ownArea).getD false
/-- Logical tiles that a tile may host: one alone where it has no save area and can borrow none (R42, R43). -/
def Device.hostCap (d : Device) (p t : Nat) : Nat := if d.hasArea t || decide (d.freeAreas p ≠ []) then 2 else 1

/-- Is tile `a` a better host than `b` for a logical tile of retired tile `r`: fewest hosted, fewest hops, lowest number? -/
def betterHost (d : Device) (r a b : Nat) : Bool :=
  let h (t : Nat) : Nat := (d.tile t).hosted.length
  decide (h a < h b) || (decide (h a = h b) && (decide (hops r a < hops r b) || (decide (hops r a = hops r b) && decide (a < b))))
/-- The tile that takes a logical tile of retired tile `r`, if one can. -/
def Device.newHost (d : Device) (p r : Nat) : Option Nat :=
  ((d.usableTiles p).filter (fun t => decide ((d.tile t).hosted.length < d.hostCap p t))).foldl (fun o t => match o with
    | none => some t
    | some b => if betterHost d r t b then some t else some b) none

/-- TILE_PLACE follows what a tile hosts (Table 2-9). DESIGN CHOICE (log 142): LT_A is the lower logical tile, LT_B the higher. -/
def placeReg (d : Device) (t : Nat) : Device :=
  let h := (d.tile t).hosted
  (d.wr (fLtA t) (h.getD 0 0xFF)).wr (fLtB t) (h.getD 1 0xFF)
/-- Insert in ascending order. -/
def insertNat (x : Nat) : List Nat → List Nat
  | [] => [x]
  | y :: t => if x ≤ y then x :: y :: t else y :: insertNat x t
/-- A tile hosts one more logical tile. -/
def addHost (d : Device) (t l : Nat) : Device :=
  placeReg (d.modTile t (fun x => { x with hosted := insertNat l x.hosted, run := if x.hosted = [] then l else x.run })) t
/-- A tile whose own stack is retired borrows a save area (R43). DESIGN CHOICE (log 143): it does so only once it hosts two logical tiles, and one
that hosts fewer gives the area back. -/
def takeArea (d : Device) (p t : Nat) : Device :=
  if (d.tile t).hosted.length < 2 || d.ownArea t then d.modTile t (fun x => { x with area := none })
  else if d.hasArea t then d
  else let a := d.nearArea p t
       d.modTile t (fun x => { x with area := a })
/-- A logical tile of retired tile `r` is rehosted, if a tile can host it. -/
def rehost (d : Device) (p r l : Nat) : Device :=
  match d.newHost p r with
  | none => d
  | some t => takeArea (addHost d t l) p t

/-- The save area of a tile is settled after stacks have retired. DESIGN CHOICE (log 122): a tile that hosts two logical tiles already and
can borrow no area gives the second one away as a retired tile would, and it is hosted nowhere if no tile can take it. -/
def settleArea (p : Nat) (d : Device) (t : Nat) : Device :=
  let d := takeArea d p t
  if d.hasArea t then d
  else ((d.tile t).hosted.drop 1).foldl (fun d l => rehost d p t l)
    (placeReg (d.modTile t (fun x => { x with hosted := x.hosted.take 1, run := x.hosted.headD x.run, switching := false })) t)
/-- The save areas of a partition's usable tiles, in ascending order. -/
def settleAreas (d : Device) (p : Nat) : Device := (d.usableTiles p).foldl (settleArea p) d

/-- A tile hosts nothing any more; one in RET exits first and then goes OFF (Table 13-8). -/
def emptyTile (d : Device) (t : Nat) : Device :=
  let d := placeReg ((d.modTile t (fun x => { x with hosted := [], retired := true, retiring := false, switching := false, area := none })).wr (fTRetired t) 1) t
  if d.rd (fDom t) = 1 then (startExit d t 0).modDom t (fun x => { x with want := some (2, .placementOff) }) else d

/-- Tiles retire together (R42): their logical tiles are rehosted in ascending number, each choice counting those placed
before it. -/
def retireTiles (d : Device) (p : Nat) (ts : List Nat) : Device :=
  let moved := (ts.flatMap (fun t => (d.tile t).hosted.map (fun l => (l, t)))).foldl (fun r x =>
    (r.filter (fun y => decide (y.1 < x.1))) ++ [x] ++ r.filter (fun y => decide (x.1 ≤ y.1))) []
  moved.foldl (fun d x => rehost d p x.2 x.1) (ts.foldl emptyTile d)

/-- Tiles of a partition that retire at the end of its work item (R373). -/
def Device.retiringTiles (d : Device) (p : Nat) : List Nat := (unitsOf (d.part p).cols).filter (fun t => (d.tile t).retiring)
/-- They retire, and the tiles beside a stack that has retired meanwhile settle their save areas (R43). -/
def retireDue (d : Device) (p : Nat) : Device := settleAreas (retireTiles d p (d.retiringTiles p)) p

/-- Is every logical tile of the partition hosted (R42)? -/
def Device.canHost (d : Device) (p : Nat) : Bool := (d.part p).lts.all (fun l => (d.hostOf p l).isSome)

/-- The logical tile that the initial map puts on a tile (R41). -/
def initialLt (cols t : Nat) : Nat := 4 * ((indexOf? (fun c => decide (c = t / 4)) (colsOf cols)).getD 0) + t % 4

/-- A physical tile that changes partitions keeps what is of the tile itself: its retirement (one that was due takes effect), the remaps
of its arrays, the cycles counted. -/
def PTile.kept (x : PTile) : PTile := { PTile.reset with retired := x.retired || x.retiring, remaps := x.remaps, tcyc := x.tcyc }
/-- Placement of a new partition (R41, R42): L(4i + r) on T(4c(i) + r); tiles recorded as retired give theirs away. -/
def initialPlace (d : Device) (p cols : Nat) : Device :=
  let ts := unitsOf cols
  let d := ts.foldl (fun d t =>
    let l := initialLt cols t
    let d := d.modTile t (fun x => { x.kept with part := some p, hosted := if x.retired then [] else [l], run := l })
    placeReg ((d.wr (fTAssigned t) 1).wr (fTPart t) p) t) d
  (ts.filter (fun t => (d.tile t).retired)).foldl (fun d t => rehost d p t (initialLt cols t)) d

/-- What the logical tiles of a partition hold in registers and scratchpads is gone: their tiles go OFF (R316, R337). -/
def clearLts (d : Device) (p : Nat) : Device :=
  (d.part p).lts.foldl (fun d l => ({ d with spad := mclear d.spad (spKey p l 0) spadSize } : Device).setLt p l LTile.reset) d
/-- The tiles of a partition belong to none again, and run no work item (R44). -/
def dropPlace (d : Device) (cols : Nat) : Device :=
  (unitsOf cols).foldl (fun d t =>
    let d := d.modTile t PTile.kept
    let d := d.wr (fTRetired t) (if (d.tile t).retired then 1 else 0)
    placeReg (((d.wr (fTAssigned t) 0).wr (fTPart t) 0).wr (fRunWi t) 0) t) d

end Sys2Proof.Machine
end

