-- ==== Sys2Proof/Machine/Flags.lean ====
section
/-! DEFINITION. The predicate of an instruction (R63) and the sequencer's scalar functions and conditions (R72, Table
3-6). -/
namespace Sys2Proof.Machine

/-- P of R63 from the predicate register s63 and the word's PSEL and PNEG. -/
def predicate (s63 : Word) (psel pneg : Nat) : Bool := xor (decide (psel = 0) || bit s63.toNat psel) (decide (pneg = 1))

/-- Result of CTL.SOP (Table 3-6) on 64-bit values; codes 0xC to 0xF are reserved and never reach it. -/
def sop (fn : Nat) (a b : Word) : Word :=
  match fn with
  | 0 => a + b
  | 1 => a - b
  | 2 => a * b
  | 3 => a &&& b
  | 4 => a ||| b
  | 5 => a ^^^ b
  | 6 => a <<< (b.toNat % 64)
  | 7 => a >>> (b.toNat % 64)
  | 8 => a.sshiftRight (b.toNat % 64)
  | 9 => if a.toNat ≤ b.toNat then a else b
  | 10 => if a.toNat ≤ b.toNat then b else a
  | _ => b

/-- Condition of CTL.SCMP (Table 3-6): EQ, NE, LTU, GEU, LTS, GES. -/
def scond (cc : Nat) (a b : Word) : Bool :=
  match cc with
  | 0 => decide (a = b)
  | 1 => decide (a ≠ b)
  | 2 => decide (a.toNat < b.toNat)
  | 3 => decide (b.toNat ≤ a.toNat)
  | 4 => decide (a.toInt < b.toInt)
  | _ => decide (b.toInt ≤ a.toInt)

/-- s63 with predicate bit `pd` set to the condition's result; the other bits stay (R63, R70). -/
def putPred (s63 : Word) (pd : Nat) (v : Bool) : Word :=
  if v then s63 ||| BitVec.ofNat 64 (2 ^ pd) else s63 &&& ~~~(BitVec.ofNat 64 (2 ^ pd))

end Sys2Proof.Machine
end

