-- ==== Sys2Proof/Machine/Operands.lean ====
section
/-! DEFINITION. The instruction word (R61 to R65): its common fields, the registers operands name, the decode checks, the
issue rules every instruction shares (R63, R64, R67, R69), and the sequencer's flow with its loops (R73, R74). -/
namespace Sys2Proof.Machine

/-- A register an instruction names: s0-s63, a0-a15, v0-v31 (R65). -/
inductive RegRef where
  | s (i : Nat)
  | a (i : Nat)
  | v (i : Nat)
  deriving DecidableEq, Repr

/-- Scalar register. -/
def LTile.sreg (t : LTile) (i : Nat) : Word := tget 0 t.s i
/-- Address register. -/
def LTile.areg (t : LTile) (i : Nat) : Word := tget 0 t.a i
/-- Vector register: 1,024 lanes of 32 bits; one never written reads 0 in every lane (R45). -/
def LTile.vreg (t : LTile) (i : Nat) : List (BitVec 32) :=
  match tget [] t.v i with
  | [] => List.replicate 1024 0
  | ls => ls
/-- Write a scalar register. -/
def LTile.setS (t : LTile) (i : Nat) (x : Word) : LTile := { t with s := tset 0 t.s i x }
/-- Write an address register. -/
def LTile.setA (t : LTile) (i : Nat) (x : Word) : LTile := { t with a := tset 0 t.a i x }
/-- Write a vector register. -/
def LTile.setV (t : LTile) (i : Nat) (x : List (BitVec 32)) : LTile := { t with v := tput i x t.v }

/-- Registers that vector-unit operations not yet finished will write (R69). -/
def LTile.pendingRegs (t : LTile) : List RegRef :=
  t.vec.filterMap (fun o => match o.act with
    | .reg vd _ => some (.v vd)
    | .load vd _ => some (.v vd)
    | .scal sd _ => some (.s sd)
    | _ => none)

/-- An opcode of Tables 3-4 to 3-24: class, opcode, further fields the row fixes, the bit ranges of [127:16] that it
uses, the value checks at decode, the registers it waits for at issue, its unit's full queue, the checks at issue, the
handles its unit reads as it takes the operation, and what it does once issued. -/
structure Op where
  cls : Nat
  opc : Nat
  fix : List (Nat × Nat × Nat) := []
  used : List (Nat × Nat)
  legal : Nat → Bool := fun _ => true
  regs : Nat → List RegRef := fun _ => []
  full : LTile → Nat → Bool := fun _ _ => false
  check : Device → Nat → Nat → Nat → Bool := fun _ _ _ _ => true
  needs : Device → Nat → Nat → Nat → List Nat := fun _ _ _ _ => []
  skip : Nat → LTile → LTile
  act : Nat → Nat → Nat → Device → Device

/-- Replace bits [hi:lo] of a number. -/
def setBits (w hi lo v : Nat) : Nat := w - bits w hi lo * 2 ^ lo + v % 2 ^ (hi - lo + 1) * 2 ^ lo

/-- The word of an instruction command: the row fixes CLASS, OPCODE and the fields that tell its rows apart. -/
def Op.word (o : Op) (w : BitVec 128) : Nat :=
  o.fix.foldl (fun w f => setBits w f.1 f.2.1 f.2.2) (setBits (setBits w.toNat 3 0 o.cls) 11 4 o.opc)

/-- Bits of [127:16] that the opcode does not use. -/
def Op.reservedMask (o : Op) : Nat := o.used.foldl (fun m f => m - maskOf f.1 f.2) (2 ^ 128 - 2 ^ 16)

/-- The decode checks (R64): no reserved bit, no illegal field value. -/
def Op.decodes (o : Op) (w : Nat) : Bool := decide (Nat.land w o.reservedMask = 0) && o.legal w

/-- Opcodes of a class, and beyond them none (Tables 3-2 to 3-24); two opcodes have a reserved value in the field that
tells their rows apart. -/
def reservedWord (w : Nat) : Bool :=
  let n := bits w 11 4
  match bits w 3 0 with
  | 0 => !(decide (n ≤ 5) || (decide (8 ≤ n) && decide (n ≤ 11))) || (decide (n = 11) && decide (bits w 33 32 = 3))
  | 1 => decide (2 < n)
  | 2 => decide (4 < n)
  | 3 => decide (3 < n)
  | 4 => decide (0 < n)
  | 5 => decide (0x13 < n)
  | 6 => decide (3 < n)
  | 7 => decide (3 < n)
  | 8 => decide (2 < n)
  | 9 => decide (1 < n)
  | 10 => decide (1 < n) || (decide (n = 0) && decide (2 < bits w 19 16))
  | _ => true
/-- The word passes decode: its own bits spell no reserved class or opcode, which no row has (R64), and it passes the
opcode's checks. -/
def Op.legalWord (o : Op) (w : BitVec 128) : Bool := !reservedWord w.toNat && o.decodes (o.word w)

/-- May the sequencer of a logical tile issue: a work item runs and is not stopped, the tile runs on its physical tile,
which is ON and in service, and nothing blocks it (R43, R45, R55, R371)? -/
def Device.canIssue (d : Device) (p l : Nat) : Bool :=
  let P := d.part p
  P.isRunning && !P.stopping && decide (l < P.ltCount) && decide ((d.lt p l).block = .none) &&
  (match d.hostOf p l with
   | none => false
   | some t => decide ((d.tile t).run = l) && !(d.tile t).switching && d.domOn t && !d.tileOut t)

/-- The back-edge of R74: flow leaves the word at `last`; loops are listed innermost first. A loop that ends elsewhere stays
as it is, whether or not it encloses this one. -/
def flow (level last : Nat) : List Loop → Nat × List Loop
  | [] => (last + 16, [])
  | k :: ks =>
    if k.level = level && k.last = last then
      if 0 < k.left then (k.first, { k with left := k.left - 1 } :: ks) else flow level last ks
    else
      let r := flow level last ks
      (r.1, k :: r.2)

/-- Sequential flow leaves the word at `last`. -/
def LTile.leave (t : LTile) (last : Nat) : LTile :=
  let r := flow t.calls.length last t.loops
  { t with pc := r.1, loops := r.2 }

/-- Sequential flow leaves the word at the pc. -/
def LTile.advance (t : LTile) : LTile := t.leave t.pc

/-- A taken branch: loops of the current call level whose body the target lies outside end (R74). -/
def LTile.branch (t : LTile) (target : Nat) : LTile :=
  { t with pc := target, loops := t.loops.filter (fun k => decide (k.level ≠ t.calls.length) ||
      (decide (k.first ≤ target) && decide (target ≤ k.last))) }

/-- Is a register of the list still to be written by an earlier vector-unit operation (R69)? -/
def LTile.waits (t : LTile) (rs : List RegRef) : Bool := rs.any (fun r => t.pendingRegs.contains r)

/-- P of the word on a logical tile (R63). -/
def LTile.takes (t : LTile) (w : Nat) : Bool := predicate (t.sreg 63) (bits w 14 12) (bits w 15 15)

/-- Does the memory serve that the word's unit reads at once? An exchange reads it, and waits for an update of a shard (R226, step 1); an
update's descriptors name the shards themselves. -/
def Op.served (o : Op) (d : Device) (p l w : Nat) : Bool :=
  if o.cls = 8 then d.readable p (o.needs d p l w) else d.reachAll p (o.needs d p l w)

/-- The sequencer takes a word (R63, R64, R67, R69, R73): fetch bound, decode checks, predicate, holds, issue checks, memory
that its unit reads at once, effect. A held instruction leaves only the mark of why it is held; the command is sent again later. -/
def issue (o : Op) (p l : Nat) (w : BitVec 128) (d : Device) : Device :=
  let t := d.lt p l
  let x := o.word w
  if !d.canIssue p l then d
  else if (d.part p).sizeOf (d.part p).prog ≤ t.pc then tileFault d p l .bounds
  else if !o.legalWord w then tileFault d p l .illegalInstr
  else if decide (bits x 14 12 ≠ 0) && t.waits [.s 63] then d.setLt p l { t with hold := some .register }
  else if !t.takes x then d.setLt p l { o.skip x t with hold := none }
  else if t.waits (o.regs x) then d.setLt p l { t with hold := some .register }
  else if o.full t x then d.setLt p l { t with hold := some .queueFull }
  else if !o.check d p l x then tileFault d p l .illegalInstr
  else if !o.served d p l x then
    wakeAll (d.setLt p l { t with hold := some .memory }) p (o.needs d p l x) (if o.cls = 9 then 6 else 4)
  else o.act p l x (d.setLt p l { t with hold := none })

/-- Nothing stands in the way of the word: the sequencer may issue, the pc lies in the program, the word decodes, its
predicate holds, no hold applies, the checks at issue pass, and the memory its unit reads at once serves. -/
def Device.issues (d : Device) (o : Op) (p l : Nat) (w : BitVec 128) : Bool :=
  let t := d.lt p l
  let x := o.word w
  d.canIssue p l && decide (t.pc < (d.part p).sizeOf (d.part p).prog) && o.legalWord w &&
  !(decide (bits x 14 12 ≠ 0) && t.waits [.s 63]) && t.takes x && !t.waits (o.regs x) && !o.full t x && o.check d p l x &&
  o.served d p l x

/-- Not taken: one issue cycle and on to the next word (R63). -/
def skipOne (_ : Nat) (t : LTile) : LTile := t.advance

/-- An instruction that changes its logical tile and moves on. -/
def simpleAct (f : Nat → LTile → LTile) (p l w : Nat) (d : Device) : Device := d.setLt p l (f w (d.lt p l)).advance

/-- An instruction handed to a unit: the next operation number is taken, the pc moves on, then `f` queues or runs it. -/
def unitAct (f : Nat → Nat → Nat → Nat → Device → Device) (p l w : Nat) (d : Device) : Device :=
  let t := d.lt p l
  f t.nextOp p l w (d.setLt p l { t.advance with nextOp := t.nextOp + 1 })

/-- Completion field (R66): bits [23:16]. -/
def cfOf (w : Nat) : CF := if bit w 22 then some (bits w 21 16) else none
/-- Decode check of the completion field (R66): EVT is 0 when EVE is 0. -/
def cfLegal (w : Nat) : Bool := bit w 22 || decide (bits w 21 16 = 0)

/-- Does an address register name the scratchpad? -/
def LTile.isSpad (t : LTile) (i : Nat) : Bool := decide (bits (t.areg i).toNat 63 32 = 0)

/-- Is the format pair one of Table 3-13? -/
def pairLegal (fa fb : Nat) : Bool :=
  (decide (3 ≤ fa) && decide (fa ≤ 6) && decide (3 ≤ fb) && decide (fb ≤ 6)) ||
  (decide (fa = fb) && (decide (fa = 8) || decide (fa = 7) || decide (fa = 1) || decide (fa = 2)))
/-- Elements per chunk (Table 3-13). -/
def chunkOf (fa : Nat) : Nat := if fa = 7 then 64 else if fa = 1 ∨ fa = 2 then 16 else 32
/-- Is KCH in its range for the pair (Table 3-13)? -/
def kchLegal (fa kch : Nat) : Bool := decide (1 ≤ kch) && decide (kch ≤ (if fa = 7 then 16 else 8))
/-- BSZ must be 0 for BF16 and FP16 (R82). -/
def bszLegal (fa bsz : Nat) : Bool := decide (3 ≤ fa) || decide (bsz = 0)
/-- COMPAT allows a pass only with BSZ 1 for the block formats 0x3 to 0x8 (R83). -/
def compatPass (fa bsz : Nat) : Bool := !(decide (3 ≤ fa)) || decide (bsz = 1)

/-- Is an operation of the arrays' queue one that runs passes? -/
def ArrOp.runsPasses : ArrOp → Bool
  | .pass _ => true
  | .walk .. => true
  | _ => false

/-- The weight store holds nothing: no set is cast on (R108). -/
def LTile.noWeights (t : LTile) : LTile := { t with wact := none, wsh := none }
/-- Has a unit in progress a pass still to run? -/
def UProg.runs (u : UProg) : Bool := decide (u.passes < u.total)
/-- Has a unit of a walk in progress on the logical tile a pass still to run? -/
def Device.unitRuns (d : Device) (p l : Nat) : Bool :=
  (d.part p).walks.any (fun w => w.prog.any (fun u => decide (u.lt = l) && u.runs))
/-- Do a logical tile's arrays run a pass, of the group queue or of a walk's unit (R104, R116)? A tile whose last unit has run its
passes has a gap, though the walk goes on elsewhere. -/
def Device.arraysBusy (d : Device) (p l : Nat) : Bool := !(d.lt p l).begun.isEmpty || d.unitRuns p l

/-- Operations of a logical tile whose writes a SYNC.POST waits for (R77): MOVE, MMA, VEC, CVT and ROUTE. -/
def LTile.stores (t : LTile) : List Nat :=
  t.moves.flatMap (fun e => e.2.map (·.id)) ++
  t.arr.filterMap (fun o => match o with
    | .openG id .. => some id
    | .pass q => some q.id
    | .close id .. => some id
    | .walk .. => none) ++
  t.vec.map (·.id) ++ t.rte.map (·.id)

/-- Is every operation the logical tile issued complete (R75, R91)? -/
def LTile.quiet (t : LTile) : Bool :=
  t.moves.all (fun e => e.2.isEmpty) && t.arr.isEmpty && t.vec.isEmpty && t.rte.isEmpty && t.xch.isEmpty &&
  t.upd.isEmpty

end Sys2Proof.Machine
end

