-- ==== Sys2Proof/Machine/Ctl.lean ====
section
/-! DEFINITION. Instructions the sequencer executes itself: CTL (R70 to R75), SYNC (R76, R77) and PWR (R92, R110), with
the delivery of posts and notices (R48, R50) and the switch between hosted logical tiles (R43). -/
namespace Sys2Proof.Machine

-- CTL (Tables 3-4, 3-5).

/-- CTL.NOP -/
def opNop : Op := { cls := 0, opc := 0x00, used := [], skip := skipOne, act := simpleAct (fun _ t => t) }
/-- A CTL.NOP has no effect but the next word. -/
def execCtlNop (p : Fin 8) (l : Fin 32) (w : BitVec 128) (s : State) : Host.Outcome State Fault Refusal :=
  onDev (issue opNop p l w) s

/-- Target of a branch or call: this word's offset + 16 * OFF, in the 64-bit offset space. -/
def branchTarget (pc w : Nat) : Nat := (((pc : Int) + 16 * toInt 32 (bits w 47 16)) % (2 ^ 64 : Nat)).toNat

/-- CTL.BR -/
def opBr : Op :=
  { cls := 0, opc := 0x01, used := [(47, 16)], skip := skipOne,
    act := fun p l w d => d.modLt p l (fun t => t.branch (branchTarget t.pc w)) }
/-- CTL.BR continues at this word's offset + 16 * OFF. -/
def execCtlBr (p : Fin 8) (l : Fin 32) (w : BitVec 128) (s : State) : Host.Outcome State Fault Refusal :=
  onDev (issue opBr p l w) s

/-- CTL.CALL: 8 entries already pushed fault at issue (R73). -/
def opCall : Op :=
  { cls := 0, opc := 0x02, used := [(47, 16)], skip := skipOne,
    check := fun d p l _ => decide ((d.lt p l).calls.length < 8),
    act := fun p l w d => d.modLt p l (fun t => { t with calls := (t.pc + 16) :: t.calls, pc := branchTarget t.pc w }) }
/-- CTL.CALL pushes the next word's offset and branches; it ends no loop (R74). -/
def execCtlCall (p : Fin 8) (l : Fin 32) (w : BitVec 128) (s : State) : Host.Outcome State Fault Refusal :=
  onDev (issue opCall p l w) s

/-- CTL.RET on a nonempty call stack: loops opened at this call level end (R74). -/
def LTile.ret (t : LTile) : LTile :=
  match t.calls with
  | [] => t
  | r :: rs => { t with pc := r, calls := rs, loops := t.loops.filter (fun k => decide (k.level ≠ t.calls.length)) }
/-- CTL.RET: an empty call stack faults at issue (R73). -/
def opRet : Op :=
  { cls := 0, opc := 0x03, used := [], skip := skipOne,
    check := fun d p l _ => decide (0 < (d.lt p l).calls.length),
    act := fun p l _ d => d.modLt p l LTile.ret }
/-- CTL.RET pops an offset and continues there. -/
def execCtlRet (p : Fin 8) (l : Fin 32) (w : BitVec 128) (s : State) : Host.Outcome State Fault Refusal :=
  onDev (issue opRet p l w) s

/-- BODY of CTL.LOOP -/
def loopBody (w : Nat) : Nat := bits w 79 56
/-- COUNT of CTL.LOOP: CNT, or sSCNT[31:0] -/
def loopCount (t : LTile) (w : Nat) : Nat := if bit w 22 then bits w 55 24 else (t.sreg (bits w 21 16)).toNat % 2 ^ 32
/-- A loop of COUNT 0, or one not taken, continues after its body (R63, R74). DESIGN CHOICE (log 145): where the body's last word is also that of
the enclosing loop's, the skip leaves it as sequential flow does, and the enclosing loop goes round. -/
def loopSkip (w : Nat) (t : LTile) : LTile := t.leave (t.pc + 16 * loopBody w)
/-- Fewer than 4 loops active, and the body wholly inside the innermost active loop of the current call level (R74). -/
def loopCheck (t : LTile) (w : Nat) : Bool :=
  decide (t.loops.length < 4) &&
  (match t.loops.find? (fun k => decide (k.level = t.calls.length)) with
   | none => true
   | some k => decide (k.first ≤ t.pc + 16) && decide (t.pc + 16 * loopBody w ≤ k.last))
/-- CTL.LOOP on the tile. -/
def loopStart (w : Nat) (t : LTile) : LTile :=
  if loopCount t w = 0 then loopSkip w t
  else { t with pc := t.pc + 16, loops := ⟨t.pc + 16, t.pc + 16 * loopBody w, loopCount t w - 1, t.calls.length⟩ :: t.loops }
/-- CTL.LOOP -/
def opLoop : Op :=
  { cls := 0, opc := 0x04, used := [(79, 56), (55, 24), (22, 22), (21, 16)],
    legal := fun w => decide (0 < loopBody w) &&
      (if bit w 22 then decide (bits w 21 16 = 0) else decide (bits w 55 24 = 0)),
    regs := fun w => if bit w 22 then [] else [.s (bits w 21 16)],
    check := fun d p l w => loopCheck (d.lt p l) w, skip := loopSkip,
    act := fun p l w d => d.modLt p l (loopStart w) }
/-- CTL.LOOP runs the next BODY words COUNT times. -/
def execCtlLoop (p : Fin 8) (l : Fin 32) (w : BitVec 128) (s : State) : Host.Outcome State Fault Refusal :=
  onDev (issue opLoop p l w) s

/-- CTL.MOVI -/
def opMovi : Op :=
  { cls := 0, opc := 0x08, used := [(87, 24), (21, 16)], regs := fun w => [.s (bits w 21 16)], skip := skipOne,
    act := simpleAct (fun w t => t.setS (bits w 21 16) (BitVec.ofNat 64 (bits w 87 24))) }
/-- CTL.MOVI: sSD = IMM64. -/
def execCtlMovi (p : Fin 8) (l : Fin 32) (w : BitVec 128) (s : State) : Host.Outcome State Fault Refusal :=
  onDev (issue opMovi p l w) s

/-- B operand of CTL.SOP and CTL.SCMP: IMM32 sign-extended, or sSB. -/
def sopB (t : LTile) (w : Nat) : Word :=
  if bit w 34 then BitVec.ofInt 64 (toInt 32 (bits w 71 40)) else t.sreg (bits w 33 28)
/-- BIMM rules: SB is 0 with an immediate, IMM32 is 0 without one (Table 3-5). -/
def sopImm (w : Nat) : Bool := if bit w 34 then decide (bits w 33 28 = 0) else decide (bits w 71 40 = 0)
/-- Registers CTL.SOP and CTL.SCMP read. -/
def sopRegs (w : Nat) : List RegRef := .s (bits w 27 22) :: (if bit w 34 then [] else [.s (bits w 33 28)])
/-- CTL.SOP; FN MOV yields B and reads A's register field like any other. -/
def opSop : Op :=
  { cls := 0, opc := 0x09, used := [(71, 40), (39, 36), (34, 34), (33, 28), (27, 22), (21, 16)],
    legal := fun w => decide (bits w 39 36 ≤ 11) && sopImm w,
    regs := fun w => .s (bits w 21 16) :: sopRegs w, skip := skipOne,
    act := simpleAct (fun w t => t.setS (bits w 21 16) (sop (bits w 39 36) (t.sreg (bits w 27 22)) (sopB t w))) }
/-- CTL.SOP: sSD = A FN B. -/
def execCtlSop (p : Fin 8) (l : Fin 32) (w : BitVec 128) (s : State) : Host.Outcome State Fault Refusal :=
  onDev (issue opSop p l w) s

/-- CTL.SCMP -/
def opScmp : Op :=
  { cls := 0, opc := 0x0A, used := [(71, 40), (39, 36), (34, 34), (33, 28), (27, 22), (18, 16)],
    legal := fun w => decide (bits w 39 36 ≤ 5) && sopImm w && decide (bits w 18 16 ≠ 0),
    regs := fun w => .s 63 :: sopRegs w, skip := skipOne,
    act := simpleAct (fun w t => t.setS 63 (putPred (t.sreg 63) (bits w 18 16)
      (scond (bits w 39 36) (t.sreg (bits w 27 22)) (sopB t w)))) }
/-- CTL.SCMP: s63[PD] = A CC B. -/
def execCtlScmp (p : Fin 8) (l : Fin 32) (w : BitVec 128) (s : State) : Host.Outcome State Fault Refusal :=
  onDev (issue opScmp p l w) s

/-- The fields of CTL.AOP. -/
def aopUsed : List (Nat × Nat) := [(67, 36), (33, 32), (30, 30), (29, 24), (23, 20), (19, 16)]
/-- CTL.AOP SET: AA, BIMM and IMM32 must be 0 (R72). -/
def opAopSet : Op :=
  { cls := 0, opc := 0x0B, fix := [(33, 32, 0)], used := aopUsed,
    legal := fun w => decide (bits w 23 20 = 0) && !bit w 30 && decide (bits w 67 36 = 0),
    regs := fun w => [.s (bits w 29 24)], skip := skipOne,
    act := simpleAct (fun w t => t.setA (bits w 19 16) (t.sreg (bits w 29 24))) }
/-- CTL.AOP SET: aAD = sSA. -/
def execCtlAopSet (p : Fin 8) (l : Fin 32) (w : BitVec 128) (s : State) : Host.Outcome State Fault Refusal :=
  onDev (issue opAopSet p l w) s

/-- Sum of CTL.AOP ADD: the handle stays, the offset adds mod 2^32 (R72). -/
def aopSum (a : Word) (addend : Nat) : Word :=
  BitVec.ofNat 64 (bits a.toNat 63 32 * 2 ^ 32 + (bits a.toNat 31 0 + addend) % 2 ^ 32)
/-- CTL.AOP ADD: SA is 0 with an immediate, IMM32 is 0 without one (R72). -/
def opAopAdd : Op :=
  { cls := 0, opc := 0x0B, fix := [(33, 32, 1)], used := aopUsed,
    legal := fun w => if bit w 30 then decide (bits w 29 24 = 0) else decide (bits w 67 36 = 0),
    regs := fun w => if bit w 30 then [] else [.s (bits w 29 24)], skip := skipOne,
    act := simpleAct (fun w t => t.setA (bits w 19 16) (aopSum (t.areg (bits w 23 20))
      (if bit w 30 then bits w 67 36 else (t.sreg (bits w 29 24)).toNat % 2 ^ 32))) }
/-- CTL.AOP ADD: aAD = aAA with the addend added to its offset. -/
def execCtlAopAdd (p : Fin 8) (l : Fin 32) (w : BitVec 128) (s : State) : Host.Outcome State Fault Refusal :=
  onDev (issue opAopAdd p l w) s

/-- CTL.AOP GET: AD, BIMM and IMM32 must be 0 (R72). -/
def opAopGet : Op :=
  { cls := 0, opc := 0x0B, fix := [(33, 32, 2)], used := aopUsed,
    legal := fun w => decide (bits w 19 16 = 0) && !bit w 30 && decide (bits w 67 36 = 0),
    regs := fun w => [.s (bits w 29 24)], skip := skipOne,
    act := simpleAct (fun w t => t.setS (bits w 29 24) (t.areg (bits w 23 20))) }
/-- CTL.AOP GET: sSA = aAA. -/
def execCtlAopGet (p : Fin 8) (l : Fin 32) (w : BitVec 128) (s : State) : Host.Outcome State Fault Refusal :=
  onDev (issue opAopGet p l w) s

-- SYNC (Tables 3-7, 3-8).

/-- SYNC.POST is queued until the stores issued before it are visible (R48, R77). -/
def queuePost (w : Nat) (t : LTile) : LTile :=
  { t with posts := t.posts ++ [{ host := decide (bits w 23 16 = 0xFF), tgt := bits w 23 16, ctr := bits w 29 24,
                                  inc := bits w 47 32, value := (t.sreg (bits w 53 48)).truncate 32, waits := t.stores }] }
/-- SYNC.POST: TGT 0 to 31 or 0xFF; host posts have INC 0, tile posts INC at least 1 and SV 0 (R77); a target at or above
LT_COUNT faults at issue. -/
def opPost : Op :=
  { cls := 1, opc := 0x00, used := [(53, 48), (47, 32), (29, 24), (23, 16)],
    legal := fun w => if bits w 23 16 = 0xFF then decide (bits w 47 32 = 0)
      else decide (bits w 23 16 < 32) && decide (0 < bits w 47 32) && decide (bits w 53 48 = 0),
    regs := fun w => if bits w 23 16 = 0xFF then [.s (bits w 53 48)] else [],
    check := fun d p _ w => decide (bits w 23 16 = 0xFF) || decide (bits w 23 16 < (d.part p).ltCount), skip := skipOne,
    act := simpleAct queuePost }
/-- SYNC.POST increments a counter of a logical tile, or sends a NOTICE, once earlier stores are visible. -/
def execSyncPost (p : Fin 8) (l : Fin 32) (w : BitVec 128) (s : State) : Host.Outcome State Fault Refusal :=
  onDev (issue opPost p l w) s

/-- Target of SYNC.WAIT: TIMM, or sST[31:0]. -/
def waitTarget (t : LTile) (w : Nat) : Nat := if bit w 22 then bits w 63 32 else (t.sreg (bits w 29 24)).toNat % 2 ^ 32
/-- Another hosted logical tile is ready to run (R43). -/
def Device.otherReady (d : Device) (p : Nat) (t l : Nat) : Option Nat :=
  (d.tile t).hosted.find? (fun m => decide (m ≠ l) && decide ((d.lt p m).block = .none))
/-- A switch between hosted logical tiles begins: it waits until every array operation of the outgoing one has completed
(R108), and is counted (Table 2-10). The stack whose save area it uses stays ON, and is woken for the Purl engine's work (R43, R340, R345). -/
def startSwitch (d : Device) (p l : Nat) : Device :=
  match d.hostOf p l with
  | none => d
  | some t =>
    if (d.tile t).run = l && !(d.tile t).switching && (d.otherReady p t l).isSome then
      let x := 32 + d.saveStack t
      wakeDom (refuseDom (d.modTile t (fun x => { x with switching := true })) x Refuser.place.num) x 5
    else d
/-- CTL.SEAM: PSEL and PNEG must be 0; one that holds its logical tile may switch the physical tile to its other one, as a
SYNC.WAIT that blocks does (R43, R75). -/
def opSeam : Op :=
  { cls := 0, opc := 0x05, used := [(21, 16)], legal := fun w => decide (bits w 15 12 = 0), skip := skipOne,
    act := fun p l w d => startSwitch (d.modLt p l (fun t => { t.advance with block := .seam (bits w 21 16) })) p l }
/-- CTL.SEAM arrives at the step's seam and holds the logical tile there (R75). -/
def execCtlSeam (p : Fin 8) (l : Fin 32) (w : BitVec 128) (s : State) : Host.Outcome State Fault Refusal :=
  onDev (issue opSeam p l w) s

/-- SYNC.WAIT on the tile: blocks while the counter is below the target (R49); a wait that blocks may switch the physical
tile to its other logical tile (R43). -/
def waitAct (p l w : Nat) (d : Device) : Device :=
  let t := d.lt p l
  let g := waitTarget t w
  if g ≤ (tget 0 t.ctr (bits w 21 16)).toNat then d.setLt p l t.advance
  else startSwitch (d.setLt p l { t.advance with block := .wait (bits w 21 16) g }) p l
/-- SYNC.WAIT -/
def opWait : Op :=
  { cls := 1, opc := 0x01, used := [(63, 32), (29, 24), (22, 22), (21, 16)],
    legal := fun w => if bit w 22 then decide (bits w 29 24 = 0) else decide (bits w 63 32 = 0),
    regs := fun w => if bit w 22 then [] else [.s (bits w 29 24)], skip := skipOne, act := waitAct }
/-- SYNC.WAIT blocks until the tile's own counter is at least the target. -/
def execSyncWait (p : Fin 8) (l : Fin 32) (w : BitVec 128) (s : State) : Host.Outcome State Fault Refusal :=
  onDev (issue opWait p l w) s

/-- SYNC.RD -/
def opRd : Op :=
  { cls := 1, opc := 0x02, used := [(27, 22), (21, 16)], regs := fun w => [.s (bits w 27 22)], skip := skipOne,
    act := simpleAct (fun w t => t.setS (bits w 27 22) (BitVec.ofNat 64 (tget 0 t.ctr (bits w 21 16)).toNat)) }
/-- SYNC.RD: sSD = own counter CTR, zero-extended. -/
def execSyncRd (p : Fin 8) (l : Fin 32) (w : BitVec 128) (s : State) : Host.Outcome State Fault Refusal :=
  onDev (issue opRd p l w) s

/-- The first post of a logical tile, to a tile or to the host, whose stores are visible. DESIGN CHOICE (log 113): R14 orders
no two destinations, and the oldest such post leaves first whatever its destination. -/
def LTile.readyPost (t : LTile) (host : Bool) : Option Post := t.posts.find? (fun q => (q.host == host) && q.waits.isEmpty)
/-- Take that post out. -/
def LTile.dropPost (t : LTile) (host : Bool) : LTile :=
  { t with posts := dropFirst (fun q => (q.host == host) && q.waits.isEmpty) t.posts }

/-- A SYNC.POST's increment arrives at its counter (R48). -/
def postArrive (p l : Nat) (d : Device) : Device :=
  match (d.lt p l).readyPost false with
  | none => d
  | some q => post (d.modLt p l (·.dropPost false)) [l] p q.tgt q.ctr q.inc
/-- EVENT_POST_ARRIVE: the oldest post of logical tile `l` whose stores are visible increments its counter. -/
def execEventPostArrive (p : Fin 8) (l : Fin 32) (s : State) : Host.Outcome State Fault Refusal :=
  onDev (postArrive p l) s

-- PWR (Table 3-24).

/-- The physical tile of a logical tile changes. -/
def onHost (d : Device) (p l : Nat) (f : PTile → PTile) : Device :=
  match d.hostOf p l with
  | none => d
  | some t => d.modTile t f
/-- PWR.TENSION HOLD: CYC 1 to 65,535. -/
def opTHold : Op :=
  { cls := 0xA, opc := 0x00, fix := [(19, 16, 0)], used := [(39, 24), (19, 16)],
    legal := fun w => decide (0 < bits w 39 24), skip := skipOne,
    act := fun p l w d => onHost (d.modLt p l LTile.advance) p l (fun x => { x with holdCyc := bits w 39 24 }) }
/-- PWR.TENSION HOLD keeps the level at full for CYC cycles (R110). -/
def execPwrTensionHold (p : Fin 8) (l : Fin 32) (w : BitVec 128) (s : State) : Host.Outcome State Fault Refusal :=
  onDev (issue opTHold p l w) s

/-- PWR.TENSION RAMP: CYC 0. -/
def opTRamp : Op :=
  { cls := 0xA, opc := 0x00, fix := [(19, 16, 1)], used := [(39, 24), (19, 16)],
    legal := fun w => decide (bits w 39 24 = 0), skip := skipOne,
    act := fun p l _ d => onHost (d.modLt p l LTile.advance) p l (fun x => { x with ramping := decide (x.level < 4) }) }
/-- PWR.TENSION RAMP starts the climb of array current at once (R110). -/
def execPwrTensionRamp (p : Fin 8) (l : Fin 32) (w : BitVec 128) (s : State) : Host.Outcome State Fault Refusal :=
  onDev (issue opTRamp p l w) s

/-- RELEASE: a gap at full level goes to its 75 % step; otherwise the next gap starts there (R92, R110). -/
def tensionRelease (busy : Bool) (x : PTile) : PTile :=
  if !busy && decide (x.level = 4) then { x with level := 3, gap := 64, holdCyc := 0, ramping := false }
  else { x with release := true, holdCyc := 0, ramping := false }
/-- PWR.TENSION RELEASE: CYC 0. -/
def opTRelease : Op :=
  { cls := 0xA, opc := 0x00, fix := [(19, 16, 2)], used := [(39, 24), (19, 16)],
    legal := fun w => decide (bits w 39 24 = 0), skip := skipOne,
    act := fun p l _ d => onHost (d.modLt p l LTile.advance) p l (tensionRelease (d.arraysBusy p l)) }
/-- PWR.TENSION RELEASE starts the ramp-down now (R92). -/
def execPwrTensionRelease (p : Fin 8) (l : Fin 32) (w : BitVec 128) (s : State) : Host.Outcome State Fault Refusal :=
  onDev (issue opTRelease p l w) s

/-- PWR.HINT IDLE: MODE 0, its only mode; CYC 1 to 65,535. -/
def opHint : Op :=
  { cls := 0xA, opc := 0x01, used := [(39, 24), (19, 16)],
    legal := fun w => decide (0 < bits w 39 24) && decide (bits w 19 16 = 0), skip := skipOne, act := simpleAct (fun _ t => { t with hinted := true }) }
/-- PWR.HINT IDLE: the power controller may place the tile in RET at its next block (R92, R338). -/
def execPwrHint (p : Fin 8) (l : Fin 32) (w : BitVec 128) (s : State) : Host.Outcome State Fault Refusal :=
  onDev (issue opHint p l w) s

/-- The time slice of a physical tile ends: it switches when its other logical tile is ready (R43). -/
def timeslice (t : Nat) (d : Device) : Device :=
  match (d.tile t).part with
  | none => d
  | some p => if (d.part p).isRunning then startSwitch d p (d.tile t).run else d
/-- TIMESLICE_EXPIRY -/
def execTimesliceExpiry (t : Fin 32) (s : State) : Host.Outcome State Fault Refusal := onDev (timeslice t) s

/-- Can a tile's scratchpad be saved and the other restored: its save area's stack serves, and the Purl engine has no row repair to do
first (R43, R271, R346)? -/
def Device.canSave (d : Device) (p t : Nat) : Bool :=
  let x := d.saveStack t
  d.domOn (32 + x) && decide (d.pausedCh x = []) && d.enginesAdd p [x]
/-- A switch completes once the outgoing logical tile's array operations are done and its scratchpad is saved (R43, R108): the other runs,
with nothing cast on. -/
def switchDone (t : Nat) (d : Device) : Device :=
  let x := d.tile t
  match x.part with
  | none => d
  | some p =>
    if x.switching && (d.lt p x.run).arr.isEmpty then
      match x.hosted.find? (· ≠ x.run) with
      | none => d.modTile t (fun x => { x with switching := false })
      | some m =>
        if !d.canSave p t then wakeDom d (32 + d.saveStack t) 5 else
        let d := (d.modLt p x.run LTile.noWeights).modLt p m LTile.noWeights
        (d.modTile t (fun x => { x with switching := false, run := m })).inc (fSwitches t)
    else d
end Sys2Proof.Machine
end

