-- ==== Sys2Proof/Machine/Send.lean ====
section
/-! DEFINITION. Sending: message layouts (Tables 6-5, 7-13, 8-4), Chind headers and envelopes (R283, R289, R320), the
choice of path (R285, R286), credit and the two sequence spaces (R291, R300, R303), and messages to peers and hosts. -/
namespace Sys2Proof.Machine

/-- Bytes of a cable or fan message (Table 6-5). -/
def cableBytes (typ : Nat) (m : CableMsg) : List Byte :=
  toLe 1 typ ++ toLe 1 m.fmt.toNat ++ toLe 2 m.cableId.toNat ++ toLe 4 m.step.toNat ++ toLe 2 m.src.toNat ++
  toLe 2 m.dest.toNat ++ toLe 2 m.links.toNat ++ toLe 1 m.epoch.toNat ++ toLe 1 m.flags.toNat ++ toLe 4 m.bias.toNat ++
  toLe 4 m.seg.toNat ++ toLe 2 m.values.length ++ toLe 1 m.level.toNat ++ toLe 1 0 ++ toLe 4 m.mbNext.toNat ++
  m.values.flatMap (fun v => toLe (if m.fmt = 0#8 then 4 else 8) v.toNat)

/-- Bytes of a skein message (Table 7-13): COUNT is run entries for a HEAD, payload bytes for ROWS. -/
def skeinBytes (typ : Nat) (m : SkeinMsg) : List Byte :=
  toLe 1 typ ++ toLe 1 m.mode.toNat ++ toLe 2 m.exch.toNat ++ toLe 4 m.step.toNat ++ toLe 2 m.src.toNat ++
  toLe 2 m.dst.toNat ++ toLe 4 m.rows.toNat ++ toLe 8 m.offset.toNat ++
  toLe 2 (if typ = 0x11 then m.payload.length / 4 else m.payload.length) ++ toLe 1 m.fmt.toNat ++ toLe 1 m.bsz.toNat ++
  toLe 4 m.dataBytes.toNat ++ m.payload

/-- Bytes of a gauge message (Table 8-4). -/
def gaugeBytes (m : GaugeMsg) : List Byte :=
  toLe 1 0x21 ++ toLe 1 m.flags.toNat ++ toLe 1 m.cause.toNat ++ toLe 1 0 ++ toLe 4 m.step.toNat ++
  toLe 4 m.jobId.toNat ++ toLe 2 m.srcDev.toNat ++ toLe 2 0 ++ toLe 8 m.norm2.toNat ++ toLe 8 m.limit.toNat

/-- Payload of a message. -/
def msgBytes : Msg → List Byte
  | .raw bs => bs
  | .cable t m => cableBytes t m
  | .skein t m => skeinBytes t m
  | .gauge m => gaugeBytes m

/-- Does a message of a PEER flow use the control space (R291)? -/
def msgCtrl : Msg → Bool
  | .raw _ => false
  | .cable t _ => decide (t ≠ 1)
  | .skein t _ => decide (t = 0x11)
  | .gauge _ => true

/-- PSN `a` lies below PSN or credit `b`. -/
def below (a b : BitVec 32) : Bool := let x := (b - a).toNat; decide (0 < x) && decide (x < 2 ^ 31)

/-- Has MACsec secured a port (R322)? -/
def Device.secured (d : Device) (n : Nat) : Bool := decide (d.rd (fMacsec n) = 2)
/-- A local port may carry packets: link UP, ON, advertised (R285), and in ADMITTED secured, for nothing but MACsec runs there (Table 12-1). -/
def Device.portOk (d : Device) (n : Nat) : Bool :=
  decide (d.rd (fLink n) = 2) && d.domOn (64 + n) && decide (d.rd (fAdvertised n) = 1) && (decide (d.rd fMode ≠ 0) || d.secured n)
/-- Bytes of an envelope header (Table 12-6). -/
def envBytes (e : Envelope) : List Byte :=
  toLe 1 e.ver.toNat ++ toLe 1 e.kind.toNat ++ toLe 2 e.epoch.toNat ++ toLe 4 e.rsvd.toNat ++ toLe 8 e.sender.toNat ++
  toLe 8 e.counter.toNat ++ toLe 8 e.rsvd2.toNat
/-- `n` bytes of a number, most significant first. -/
def toBe (n v : Nat) : List Byte := (toLe n v).reverse
/-- Checksum of UDP (RFC 768, RFC 8200): one's complement of the one's complement sum of 16-bit words; 0 is sent as 0xFFFF. -/
def udpSum (bs : List Byte) : Nat :=
  let s := (wordsOf 2 (cdiv bs.length 2) (bs ++ [0#8])).map (fun w => w % 256 * 256 + w / 256) |>.sum
  let c := 65535 - (if s = 0 then 0 else (s - 1) % 65535 + 1)
  if c = 0 then 65535 else c
/-- A frame's bytes behind its MAC addresses (Table 11-2): 802.1Q tag, IPv6 and UDP headers (Table 11-1), Chind header, envelope, payload. -/
def frameBytes (fr : Frame) (h : List Byte) (e : Option Envelope) (payload : List Byte) : List Byte :=
  let chind := h ++ (match e with
    | none => payload
    | some e => envBytes e ++ payload ++ toLe 16 e.tag.toNat)
  let n := 8 + chind.length
  let pseudo := fr.srcIp ++ fr.dstIp ++ toBe 4 n ++ toBe 4 17
  let udp (c : Nat) := toBe 2 fr.srcPort.toNat ++ toBe 2 fr.dstPort.toNat ++ toBe 2 n ++ toBe 2 c ++ chind
  (match fr.tag with
   | none => []
   | some t => toBe 2 0x8100 ++ toBe 2 (t.1.toNat * 8192 + t.2.toNat)) ++
  toBe 2 0x86DD ++ toBe 4 (6 * 2 ^ 28 + fr.tclass.toNat * 2 ^ 20 + fr.label.toNat) ++ toBe 2 n ++ toBe 1 17 ++ toBe 1 fr.hops.toNat ++
  fr.srcIp ++ fr.dstIp ++ udp (udpSum (pseudo ++ udp 0))

/-- SCI of a port: its MAC and port identifier 1 (R322; log 138). -/
def Device.sci (d : Device) (n : Nat) : Nat := d.rd (fPortMac n) * 65536 + 1
/-- SecTAG with an explicit SCI (IEEE 802.1AE, R322): EtherType, C, E and SC set and AN 0, the length of a short frame, the low half of the
packet number, the SCI. -/
def secTagBytes (sci pn : Word) (len : Nat) : List Byte :=
  toBe 2 0x88E5 ++ toBe 1 0x2C ++ toBe 1 (if len < 48 then len else 0) ++ toBe 4 (pn.toNat % 2 ^ 32) ++ toBe 8 sci.toNat
/-- What MACsec makes of the bytes behind a frame's MAC addresses on a port: on a secured one they leave encrypted under its SAK, with an
ICV over addresses, SecTAG and bytes, and spend a packet number (R322). -/
def Device.takeSec (d : Device) (n : Nat) (dst src : BitVec 48) (bs : List Byte) : Option SecTag × Device :=
  if !d.secured n then (none, d)
  else
    let x := d.port n
    let sci := BitVec.ofNat 64 (d.sci n)
    let pn := BitVec.ofNat 64 x.txPn
    let nonce := Config.xpnNonce x.sak sci pn
    (some { sci := sci, pn := pn, text := Config.gcmCrypt x.sak nonce bs,
            icv := Config.gcmTag x.sak nonce (toBe 6 dst.toNat ++ toBe 6 src.toNat ++ secTagBytes sci pn bs.length) bs },
     d.modPort n (fun x => { x with txPn := x.txPn + 1 }))
/-- A Chind packet leaves on a port: on a secured one MACsec's bytes stand on the wire in place of those behind the MAC addresses (R322). -/
def Device.emitPacket (d : Device) (n : Nat) (fr : Frame) (h : List Byte) (e : Option Envelope) (payload : List Byte) (m : Msg) : Device :=
  let s := d.takeSec n fr.dstMac fr.srcMac (frameBytes fr h e payload)
  s.2.emit (.packet n { fr with sec := s.1 } h e payload m)
/-- A direct port of board mode (R17). -/
def Device.isDirect (d : Device) (n : Nat) : Bool := d.strapBoard && (decide (n = 3) || decide (n = 7))

/-- Usable paths of a flow (R285): 8 * local + remote on one plane, or 64 + local for the direct cable to the peer. -/
def Device.paths (d : Device) (f : Flow) : List Nat :=
  (List.range 8).flatMap (fun a =>
    if !d.portOk a then []
    else if d.isDirect a then
      let far := if a = 3 then 7 else 3
      match (d.port a).neighbour with
      | none => []
      | some h => if bit f.farPorts.toNat far && decide (h.take 16 = (f.addrs.drop (16 * far)).take 16) then [64 + a] else []
    else (List.range 8).filterMap (fun b =>
      if bit f.remotes.toNat b && bit f.farPorts.toNat b && (bit f.planes.toNat b == decide (4 ≤ a)) then some (8 * a + b)
      else none))

/-- Local port of a path. -/
def pathPort (k : Nat) : Nat := if 64 ≤ k then k - 64 else k / 8
/-- Weight of a path (R286): 64 at first. -/
def Flow.weight (f : Flow) (k : Nat) : Nat := tget 64 f.weights k

/-- First candidate with the greatest current weight. -/
def greatest (cur : Nat → Int) : List Nat → Option Nat
  | [] => none
  | a :: t => match greatest cur t with
    | none => some a
    | some b => if cur a < cur b then some b else some a

/-- One turn of smooth weighted round robin (R286): the choice, and the current weights after it. -/
def swrr (cands : List (Nat × Nat)) (cur : Tab Int) : Option Nat × Tab Int :=
  let cur := cands.foldl (fun m c => tput c.1 ((tget (0 : Int) m c.1) + (c.2 : Int)) m) cur
  match greatest (fun k => tget (0 : Int) cur k) (cands.map (·.1)) with
  | none => (none, cur)
  | some k => (some k, tput k ((tget (0 : Int) cur k) - ((cands.map (·.2)).sum : Int)) cur)

/-- Choose a path among those given: first the local port by port weight, then its path by path weight (R286). -/
def choosePath (f : Flow) (ks : List Nat) : Option Nat × Flow :=
  let ps := (ks.map pathPort).dedup
  let r := swrr (ps.map (fun p => (p, ((ks.filter (fun k => pathPort k = p)).map f.weight).sum))) f.wport
  match r.1 with
  | none => (none, f)
  | some p =>
    let q := swrr ((ks.filter (fun k => pathPort k = p)).map (fun k => (k, f.weight k))) f.wpath
    (q.1, { f with wport := r.2, wpath := q.2 })

/-- PORTS byte (R288). -/
def Device.portsByte (d : Device) : Nat := ((List.range 8).map (fun n => d.rd (fAdvertised n) * 2 ^ n)).sum

/-- SACK: bit i set when PSN next + 1 + i is held (R299). -/
def sackOf (f : Flow) (ctrl : Bool) (nxt : BitVec 32) : Nat :=
  ((List.range 32).map (fun i =>
    if f.held.any (fun h => (h.1 == ctrl) && decide (h.2.1 = nxt + BitVec.ofNat 32 (i + 1))) ||
       (ctrl && decide (f.closeAt = some (nxt + BitVec.ofNat 32 (i + 1)))) then 2 ^ i else 0)).sum

/-- Addressing of a packet with a PSN that leaves on local port `n` for an IPv6 address (R283). -/
def Device.frameTo (d : Device) (n : Nat) (psn : BitVec 32) (dst : List Byte) : Frame :=
  { dstMac := if d.isDirect n then BitVec.ofNat 48 (leNat (((((d.port n).neighbour.getD []).drop 16).take 6).reverse))
              else BitVec.ofNat 48 (d.rd (fPortGw n)),
    srcMac := BitVec.ofNat 48 (d.rd (fPortMac n)),
    tag := if d.rd (fVlanTag n) = 1 then some (BitVec.ofNat 3 (d.rd (fPcp n)), BitVec.ofNat 12 (d.rd (fVid n))) else none,
    tclass := 2, label := 0, hops := 64,
    srcIp := (toLe 8 (d.rd (fPortIpHi n))).reverse ++ (toLe 8 (d.rd (fPortIpLo n))).reverse, dstIp := dst,
    srcPort := BitVec.ofNat 16 (49152 + (psn.toNat + 251 * n) % 16384), dstPort := BitVec.ofNat 16 (d.rd fUdpPort) }
/-- The far address a path of a flow aims at. -/
def Flow.farAddr (f : Flow) (k : Nat) : List Byte :=
  (f.addrs.drop (16 * (if 64 ≤ k then (if k = 67 then 7 else 3) else k % 8))).take 16

/-- Chind header (Table 11-3). -/
def chindHeader (d : Device) (i : Nat) (f : Flow) (typ : Nat) (ctrl retx : Bool) (psn : BitVec 32) (path len : Nat) :
    List Byte :=
  let nxt := if ctrl then f.ctlRxNext else f.rxNext
  let flags := (if ctrl then 1 else 0) + (if (if ctrl then f.ctlEceDue else f.eceDue) then 2 else 0) + (if retx then 4 else 0)
  let pb := if 64 ≤ path then (path - 64) + 8 * (if path = 67 then 7 else 3) + 64 else path / 8 + 8 * (path % 8)
  toLe 1 (0x10 + typ) ++ toLe 1 flags ++ toLe 2 f.peerFlow.toNat ++ toLe 2 i ++ toLe 1 pb ++ toLe 1 d.portsByte ++
  toLe 4 psn.toNat ++ toLe 4 nxt.toNat ++ toLe 4 (sackOf f ctrl nxt) ++
  toLe 4 (if ctrl then 0 else f.rxCredit.toNat) ++ toLe 2 len ++
  toLe 2 (if f.kind = 2 then (d.part f.part).devId else 0xFFFF) ++ toLe 4 f.incarn.toNat

/-- This device's sender identifier for a partition and home die (R319). -/
def deviceSender (p home : Nat) : Nat := 0xD * 2 ^ 60 + p * 2 ^ 57 + home * 2 ^ 56 + Config.serial.toNat
/-- Output of the derivation of a sender's epoch (R318). -/
def envKey (ts : List Byte) (sender epoch : Nat) : List Byte := Config.kmac256 ts (toLe 8 sender ++ toLe 2 epoch) 288 "EKA32 envelope"
/-- Its AES key and nonce prefix. -/
def keyPair (o : List Byte) : List Byte × List Byte := (o.take 32, (o.drop 32).take 4)
/-- env_keys of R318: AES key and nonce prefix of a sender's epoch. -/
def envKeys (ts : List Byte) (sender epoch : Nat) : List Byte × List Byte := keyPair (envKey ts sender epoch)
/-- GCM tag of an envelope under a key and nonce prefix (R320): additional data is the Chind header and the envelope header. -/
def envTag (k : List Byte × List Byte) (e : Envelope) (header payload : List Byte) : BitVec 128 :=
  Config.gcmTag k.1 (k.2 ++ toLe 8 e.counter.toNat) (header ++ envBytes e) payload

/-- COUNTER of a partition's sender on a home die (R319). -/
def Part.counter (P : Part) (home : Nat) : Nat := if home = 0 then P.count0 else P.count1

/-- May the device send for this flow: in SERVICE its partition is KEYED and its COUNTER below 2^40 (R319, R320); in a passage
nothing leaves (Table 12-1); in ADMITTED it may. -/
def Device.canSeal (d : Device) (f : Flow) : Bool :=
  decide (d.rd fMode = 0) ||
  (decide (d.rd fMode ≠ 1) &&
   (let P := d.part f.part
    decide (P.ts ≠ []) && !P.silent && decide (P.counter f.home < 2 ^ 40)))

/-- A payload sealed under an envelope, or the payload of a sealed one: encryption and decryption are one function (R320). -/
def envCrypt (k : List Byte × List Byte) (e : Envelope) (payload : List Byte) : List Byte :=
  Config.gcmCrypt k.1 (k.2 ++ toLe 8 e.counter.toNat) payload

/-- Seal a packet in SERVICE, spending one COUNTER (R319, R320): its envelope, its payload on the wire; no envelope in other
modes (R322). -/
def sealPacket (d : Device) (f : Flow) (header payload : List Byte) : Option Envelope × List Byte × Device :=
  if d.rd fMode ≠ 2 then (none, payload, d)
  else
    let P := d.part f.part
    let e : Envelope := { ver := 1, kind := 1, epoch := BitVec.ofNat 16 (d.rd (fKeyEpoch f.part)), rsvd := 0,
                          sender := BitVec.ofNat 64 (deviceSender f.part f.home),
                          counter := BitVec.ofNat 64 (P.counter f.home), rsvd2 := 0, tag := 0 }
    let P := if f.home = 0 then { P with count0 := P.count0 + 1 } else { P with count1 := P.count1 + 1 }
    let k := envKeys (d.part f.part).ts e.sender.toNat e.epoch.toNat
    (some { e with tag := envTag k e header payload }, envCrypt k e payload, d.setPart f.part P)

/-- The acknowledgement due in a space has been sent. -/
def Flow.acked (f : Flow) (ctrl : Bool) : Flow :=
  if ctrl then { f with ctlAckDue := 0, ctlEceDue := false } else { f with ackDue := 0, eceDue := false }
/-- Send one packet of a flow on one of the paths given; the acknowledgement due rides on it (R299). -/
def transmit (d : Device) (i typ : Nat) (ctrl retx : Bool) (psn : BitVec 32) (msg : Msg) (ks : List Nat) : Device × Nat :=
  let r := choosePath (d.flow i) ks
  match r.1 with
  | none => (d, 0)
  | some k =>
    let body := msgBytes msg
    let h := chindHeader d i r.2 typ ctrl retx psn k body.length
    let e := sealPacket d r.2 h body
    ((e.2.2.setFlow i (r.2.acked ctrl)).emitPacket (pathPort k) (d.frameTo (pathPort k) psn (r.2.farAddr k)) h e.1 e.2.1 msg, k)

/-- Send a control or data packet that carries no message and is not itself acknowledged (ACK, PROBE). -/
def sendBare (d : Device) (i typ : Nat) (ctrl : Bool) : Device :=
  let f := d.flow i
  if d.paths f = [] || !d.canSeal f then d
  else (transmit d i typ ctrl false (if ctrl then f.ctlTxNext else f.txNext) (.raw []) (d.paths f)).1

/-- Is a path on plane B (`onA`: on plane A)? The direct cable is on neither (R285, R303). -/
def onB (k : Nat) : Bool := decide (k < 64) && decide (4 ≤ pathPort k)
/-- Is a path on plane A? -/
def onA (k : Nat) : Bool := decide (k < 64) && decide (pathPort k < 4)

/-- SWATCH_BYTES.SENT counts the image bytes of a DATA of the partition's current swatch as it leaves for the first time (R252). -/
def Device.countSwatch (d : Device) (f : Flow) : Msg → Device
  | .raw bs =>
    let w := (d.part f.part).swatch
    if f.kind = 1 && fld bs 0 1 = 0x31 && fld bs 4 4 = w.id && fld bs 0x10 8 = d.rd (fSwSent f.part) then d.inc (fSwSent f.part) (fld bs 0x18 2) else d
  | _ => d
/-- Are two COUNTERs of a flow's sender left in its epoch (R319)? -/
def Device.sealsTwo (d : Device) (f : Flow) : Bool := decide (d.rd fMode ≠ 2) || decide ((d.part f.part).counter f.home + 1 < 2 ^ 40)
/-- A packet with the next PSN of its space, kept until acknowledged; a gauge message goes once on each plane when each has a
usable path (R303), and once only with the last COUNTER of an epoch (R319). -/
def sendNew (d : Device) (i typ : Nat) (ctrl : Bool) (msg : Msg) : Device :=
  let f := d.flow i
  let psn := if ctrl then f.ctlTxNext else f.txNext
  let ks := d.paths f
  let twice : Bool := match msg with
    | .gauge _ => ks.any onA && ks.any onB && d.sealsTwo f
    | _ => false
  let r := transmit d i typ ctrl false psn msg (if twice then ks.filter onA else ks)
  let q : Device × List Nat :=
    if twice then (let b := transmit r.1 i typ ctrl false psn msg (ks.filter onB); (b.1, [r.2, b.2])) else (r.1, [r.2])
  (if ctrl then q.1 else q.1.countSwatch f msg).modFlow i (fun f =>
    let f : Flow := { f with unacked := f.unacked ++
      [{ ctrl := ctrl, typ := typ, psn := psn, path := r.2, first := q.2, tried := q.2, retx := false, msg := msg }] }
    if ctrl then { f with ctlTxNext := f.ctlTxNext + 1 } else { f with txNext := f.txNext + 1 })

/-- Fewer than 4 control packets of a flow are unacknowledged (R291). -/
def Flow.ctrlRoom (f : Flow) : Bool := decide ((f.unacked.filter (·.ctrl)).length < 4)

/-- Is a message the HEAD of the exchange that another message is a ROWS of? -/
def headOf (rows m : Msg) : Bool :=
  match rows, m with
  | .skein 0x12 a, .skein 0x11 b => decide (a.exch = b.exch) && decide (a.step = b.step) && decide (a.mode = b.mode)
  | _, _ => false
/-- Does a HEAD of a ROWS message's exchange wait to be sent, to whatever device? The ROWS waits for it (R185). -/
def Device.headWaits (d : Device) (p : Nat) (m : Msg) : Bool :=
  (d.part p).peerWait.any (fun w => w.2.any (fun x => headOf m x.2)) ||
  d.flows.any (fun e => decide (e.2.kind = 2) && decide (e.2.part = p) && e.2.waiting.any (fun x => headOf m x.2))

/-- Send what waits on a flow, in order within each space: control while fewer than 4 are unacknowledged, data below the
credit (R291, R300), a ROWS after the HEADs of its exchange (R185). `bc` and `bd`: an earlier message of that space waits;
the HEADs looked for are those that waited at the start and the ones this flow keeps. -/
def pumpGo (i : Nat) : List (Bool × Msg) → Bool → Bool → Device → List (Bool × Msg) × Device
  | [], _, _, d => ([], d)
  | (c, m) :: t, bc, bd, d =>
    let f := d.flow i
    let ok := d.paths f ≠ [] && d.canSeal f &&
      (if c then !bc && f.ctrlRoom else !bd && below f.txNext f.txCredit && !d.headWaits f.part m)
    if ok then pumpGo i t bc bd (sendNew (d.modFlow i (fun f => { f with waiting := dropFirst (fun x => decide (x = (c, m))) f.waiting })) i 1 c m)
    else
      let r := pumpGo i t (bc || c) (bd || !c) d
      ((c, m) :: r.1, r.2)

/-- Send what an OPEN flow may send, and on a CLOSING one what is left of that and the CLOSE that is due: it goes behind the control messages that
wait, and data without credit does not hold it back (R291, R295). -/
def pumpFlow (d : Device) (i : Nat) : Device :=
  let f := d.flow i
  if f.st = .opened || f.st = .closing then
    let r := pumpGo i f.waiting false false d
    let d := r.2.modFlow i (fun f => { f with waiting := r.1 })
    let f := d.flow i
    if f.closeDue && r.1.all (fun x => !x.1) && f.ctrlRoom && d.paths f ≠ [] && d.canSeal f then
      (sendNew d i 7 true (.raw [])).modFlow i (fun f => { f with closeDue := false })
    else d
  else d

/-- HEADs that wait on a flow. -/
def Flow.headsWaiting (f : Flow) : Nat :=
  (f.waiting.filter (fun x => match x.2 with
    | .skein 0x11 _ => true
    | _ => false)).length

/-- Skein messages of the device to itself cross the fabric once the HEADs of their exchange have left (R183, R185). -/
def crossFabric (d : Device) (p : Nat) : Device :=
  let me := (d.part p).devId
  let mine := (((d.part p).peerWait.find? (fun w => decide (w.1 = me))).map (·.2)).getD []
  let go := mine.filter (fun x => !d.headWaits p x.2)
  let stay := mine.filter (fun x => d.headWaits p x.2)
  if go = [] then d
  else
    let d := d.modPart p (fun P => { P with peerWait := P.peerWait.filter (fun w => decide (w.1 ≠ me)) ++ (if stay = [] then [] else [(me, stay)]) })
    go.foldl (fun d x => d.emit (.fabric p x.2)) d

/-- Send what a partition's peers may be sent, once HEADs have left or are no longer to be sent. -/
def pumpPeers (d : Device) (p : Nat) : Device :=
  let d := (d.flows.filter (fun e => decide (e.2.kind = 2) && decide (e.2.part = p) && decide (e.2.waiting ≠ []))).foldl (fun d e => pumpFlow d e.1) d
  crossFabric d p

/-- Send what a flow may send; when a HEAD has left, the ROWS of its exchange may go to other devices too. -/
def pump (d : Device) (i : Nat) : Device :=
  let n := (d.flow i).headsWaiting
  let d := pumpFlow d i
  if (d.flow i).headsWaiting < n then pumpPeers d (d.flow i).part else d

/-- Queue a message on a flow. -/
def flowSend (d : Device) (i : Nat) (ctrl : Bool) (m : Msg) : Device :=
  pump (d.modFlow i (fun f => { f with waiting := f.waiting ++ [(ctrl, m)] })) i

/-- Context of the PEER flow to a device of the partition's job. -/
def Device.peerFlow (d : Device) (p dev : Nat) : Option Nat :=
  (d.flows.find? (fun e => decide (e.2.kind = 2) && decide (e.2.part = p) && decide (e.2.peerDev.toNat = dev) &&
    decide (e.2.st ≠ .free))).map (·.1)

/-- A peer is lost to the running work item (R304): cause PEER_FAULT, its parts count as VOID, and a FATAL gauge message
stands for it in this and every later step. -/
def peerLost (d : Device) (p dev : Nat) : Device :=
  if !(d.part p).isRunning then d
  else (recordFault d p .peerFault).modPart p (fun P =>
    { P with voids := if P.voids.contains dev then P.voids else P.voids ++ [dev],
             fataled := if P.fataled.contains dev then P.fataled else P.fataled ++ [dev] })

/-- A message joins those that wait for a device. -/
def waitFor (dev : Nat) (m : Msg) (P : Part) : Part :=
  if P.peerWait.any (fun w => decide (w.1 = dev)) then
    { P with peerWait := replaceFirst (fun w => decide (w.1 = dev)) (fun w => (w.1, w.2 ++ [(msgCtrl m, m)])) P.peerWait }
  else { P with peerWait := P.peerWait ++ [(dev, [(msgCtrl m, m)])] }

/-- Send a message to a device of the job: over the fabric to the device itself, a ROWS behind the HEADs of its exchange
(R185), else on its PEER flow; a flow that is not yet OPEN keeps it waiting (R295), one that is UNREACHABLE drops it, one that
was refused faults at the first exchange (R296) and drops it after that. -/
def sendPeer (d : Device) (p dev : Nat) (m : Msg) : Device :=
  if dev = (d.part p).devId then
    (if d.headWaits p m then d.modPart p (waitFor dev m) else d.emit (.fabric p m))
  else match d.peerFlow p dev with
    | none =>
      if (d.part p).peerWait.any (fun w => decide (w.1 = dev)) then d.modPart p (waitFor dev m)
      else if (d.part p).fataled.contains dev then d
      else peerLost d p dev
    | some i => if (d.flow i).st = .unreachable then d else flowSend d i (msgCtrl m) m

/-- Send a launch endpoint message to a host, on its LAUNCH flow while that is OPEN (R27, R304). -/
def sendHost (d : Device) (p : Nat) (flow : BitVec 16) (bs : List Byte) : Device :=
  let d := d.emit (.host p flow bs)
  let f := d.flow flow.toNat
  if f.st = .opened && f.kind = 0 && f.part = p then flowSend d flow.toNat false (.raw bs) else d

/-- STATUS of a work item on the flow of its LAUNCH (R27), unless that flow is gone (R304). -/
def sendWiStatus (d : Device) (p : Nat) (w : WorkItem) : Device :=
  if w.mute then d
  else sendHost d p w.flow (hostMsg 0x81 w.jobId w.reqSeq (statusBody 0 w.state.code w.cause.code w.id w.lastStep
    (d.part p).nextStep w.poisoned 0))

/-- STATUS that concerns no work item. -/
def sendPlainStatus (d : Device) (r : Req) (code : Nat) : Device :=
  sendHost d r.part.val r.flow (hostMsg 0x81 r.jobId r.reqSeq (statusBody code 0xFF 0 0 0 (d.part r.part.val).nextStep 0 0))

/-- HOST_NOTICE: the oldest host post of logical tile `l` whose stores are visible leaves as a NOTICE (R27, R50). -/
def notice (p l : Nat) (readyPost : LTile → Option Post) (drop : LTile → LTile) (d : Device) : Device :=
  match readyPost (d.lt p l), (d.part p).running with
  | some q, some w =>
    if w.mute then d.modLt p l drop
    else sendHost (d.modLt p l drop) p w.flow (hostMsg 0x83 w.jobId w.reqSeq
      (toLe 4 w.id ++ toLe 1 l ++ toLe 1 q.ctr ++ toLe 2 0 ++ toLe 4 q.value.toNat ++ toLe 4 0))
  | _, _ => d

end Sys2Proof.Machine
end

