-- ==== Sys2Proof/Machine/Items.lean ====
section
/-! DEFINITION. How work items end (R52, R53, R33, R57): their ending state, their STATUS, the queue behind them, their
leases. -/
namespace Sys2Proof.Machine

/-- State that a cause ends a work item in (Table 2-12); `hosted`: placement can host the partition's logical tiles. -/
def Cause.ends (hosted : Bool) : Cause → WiState
  | .none => .completed
  | .hostAbort => .aborted
  | .queueFlush => .aborted
  | .peerFault => .retry
  | .tileRetired => if hosted then .retry else .faulted
  | .ue => .retry
  | .stale => .retry
  | _ => .faulted

/-- A work item has ended: its STATUS leaves on its launch flow, and QUERY still finds it (R27). -/
def endItem (d : Device) (p : Nat) (w : WorkItem) : Device :=
  sendWiStatus (d.modPart p (fun P => { P with ended := P.ended ++ [w] })) p w

/-- Every queued work item ends ABORTED with cause QUEUE_FLUSH; nothing of them has run (R33). -/
def flushQueued (d : Device) (p : Nat) : Device :=
  let qs := (d.part p).wis.filter (fun w => decide (w.state = .queued))
  let d := d.modPart p (fun P => { P with wis := P.wis.filter (fun w => decide (w.state ≠ .queued)) })
  qs.foldl (fun d w => endItem d p { w with state := .aborted, cause := .queueFlush }) d

/-- Last step of a work item. -/
def WorkItem.finalStep (w : WorkItem) : Nat := w.startStep + w.stepCount - 1

/-- Does step `s` belong to the work item? -/
def WorkItem.covers (w : WorkItem) (s : Nat) : Bool := decide (w.startStep ≤ s) && decide (s ≤ w.finalStep)
/-- Does step `s` of a job belong to the work item? -/
def WorkItem.coversOf (w : WorkItem) (s : Nat) (job : BitVec 32) : Bool := w.covers s && decide (w.jobId = job)

/-- Leases of the partition are freed and counted when a work item ends (R225). -/
def leakLeases (d : Device) (p : Nat) : Device :=
  let n := ((d.leases.filter (fun e => decide (e.part = p))).map (·.count)).sum
  let d := { d with leases := d.leases.filter (fun e => decide (e.part ≠ p)) }
  (d.inc (fLeaked p) n).wr (fLeaseOpen p) 0

/-- Work items whose final seam is recorded get their final STATUS once no step of theirs awaits its commit (R226). -/
def releaseFinal (d : Device) (p : Nat) : Device :=
  let ok (w : WorkItem) : Bool := (d.part p).uncommitted.all (fun s => !w.coversOf s.1 s.2)
  let ws := (d.part p).finalWait.filter ok
  let d := d.modPart p (fun P => { P with finalWait := P.finalWait.filter (fun w => !ok w) })
  ws.foldl (fun d w => endItem d p w) d

end Sys2Proof.Machine
end

