-- ==== Sys2Proof/Machine/Arrays.lean ====
section
/-! DEFINITION. What the matrix arrays compute: operand layouts (R99, R100), the window stream (R111), the sums of a pass
in the reference order (R98, R137), and the recompute of an overflowed group (R140, R154). -/
namespace Sys2Proof.Machine

-- Operand layouts.

/-- A reader of bytes: offset and count. -/
abbrev Rd := Nat → Nat → List Byte

/-- Bytes of a data plane of `lines` lines of `k` elements with its scale plane (R99, R100). -/
def planeBytes (code bsz lines k : Nat) : Nat :=
  if scaled code then ceil64 (elemBytes code (lines * k)) + lines * cdiv k (blockOf bsz) else elemBytes code (lines * k)

/-- First byte and byte count of `n` elements from element `e` of a data plane on. -/
def elemRange (code e n : Nat) : Nat × Nat :=
  let o := e * halfBytes code / 2
  (o, ((e + n) * halfBytes code + 1) / 2 - o)
/-- First byte and byte count of the scales of elements j to j + n - 1 of line `i`. -/
def scaleRange (code bsz lines k i j n : Nat) : Nat × Nat :=
  let b := blockOf bsz
  if scaled code && decide (0 < n) then
    (ceil64 (elemBytes code (lines * k)) + i * cdiv k b + j / b, (j + n - 1) / b + 1 - j / b)
  else (0, 0)

/-- Value of element `j` of line `i`, with its block's scale (R99, R100, R126). -/
def elemAt (rd : Rd) (code bsz lines k i j : Nat) : Val :=
  let r := elemRange code (i * k + j) 1
  let s := scaleRange code bsz lines k i j 1
  scaledVal code (rawElem code (rd r.1 r.2) (if code = 7 then (i * k + j) % 2 else 0)) (fld (rd s.1 s.2) 0 1)

-- The window stream (R111, Table 4-6).

/-- Input coordinate of a dimension: output coordinate, tap offset, stride, dilation, padding, input size. -/
def winCoord (tr : Bool) (o k s dl pd n : Nat) : Option Nat :=
  let j : Int := ((if tr then o else o * s) + k * dl : Nat) - (pd : Nat)
  if j < 0 then none
  else if tr then (if j.toNat % s = 0 && decide (j.toNat / s < n) then some (j.toNat / s) else none)
  else if j.toNat < n then some j.toNat else none

/-- Input position (z, y, x) and channel of row `m` and pass element `e` of a window stream; none is a generated zero. -/
def winPos (b : List Byte) (m e : Nat) : Option (Nat × Nat × Nat × Nat) :=
  let f (o n : Nat) := fld b o n
  let q := f 0x34 4 + m
  let k := f 0x38 4 + e
  let c := f 4 4
  let ow := f 0x20 2
  let oh := f 0x22 2
  let kw := f 0x10 1
  let kh := f 0x11 1
  let t := k / c
  let tr := bit (f 3 1) 0
  if ow * oh * f 0x24 2 ≤ q || f 0x12 1 * kh * kw * c ≤ k then none
  else
    match winCoord tr (q / (ow * oh)) (t / (kw * kh)) (f 0x16 1) (f 0x1A 1) (f 0x1E 1) (f 0x0C 2),
          winCoord tr (q / ow % oh) (t / kw % kh) (f 0x15 1) (f 0x19 1) (f 0x1D 1) (f 0x0A 2),
          winCoord tr (q % ow) (t % kw) (f 0x14 1) (f 0x18 1) (f 0x1C 1) (f 0x08 2) with
    | some z, some y, some x => some (z, y, x, k % c)
    | _, _, _ => none

/-- Byte ranges of an element and its scale, from AS (R111); the element's nibble for E2M1. -/
def winBytes (b : List Byte) (z y x c : Nat) : (Nat × Nat) × (Nat × Nat) :=
  let f (o n : Nat) := fld b o n
  let code := f 1 1
  let r := elemRange code (x * f 4 4 + c) 1
  let blk := blockOf (f 2 1)
  ((z * f 0x2C 4 + y * f 0x28 4 + r.1, r.2),
   if scaled code then (f 0x30 4 + ((z * f 0x0A 2 + y) * f 0x08 2 + x) * (f 4 4 / blk) + c / blk, 1) else (0, 0))

/-- Stream element of row `m` and pass element `e` (R111). -/
def winElem (b : List Byte) (rd : Rd) (m e : Nat) : Val :=
  match winPos b m e with
  | none => vzero
  | some (z, y, x, c) =>
    let r := winBytes b z y x c
    let code := fld b 1 1
    scaledVal code (rawElem code (rd r.1.1 r.1.2) (if code = 7 then (x * fld b 4 4 + c) % 2 else 0))
      (fld (rd r.2.1 r.2.2) 0 1)

-- Sums of a pass.

/-- Accumulator code of a group's ACC: A32 keeps binary32, A64 binary64. -/
def accCode (acc : Nat) : Nat := if acc = 0 then 0x0 else 0x9
/-- Bytes of a value in an accumulator's format. -/
def accBytes (acc : Nat) : Nat := if acc = 0 then 4 else 8

/-- Enter element pairs, in groups of 32 in ascending order, into an accumulator (R98, R137). -/
def accPairs (code : Nat) (bias : Int) (a : Acc) (ab : List (Val × Val)) : Acc :=
  (groups32 ab).foldl (accGroup code bias) a

/-- The accumulator of a stored value. -/
def accOf (code : Nat) (w : Word) : Acc := ⟨decodeFmt code w.toNat, false, false⟩

/-- One pass over `m` rows of 1,024 values: `A row k`, `B column k`, K elements; rows named by `skip` are not written.
The new sums, and whether one overflowed (R139). -/
def passTile (code : Nat) (bias : Int) (m k : Nat) (A B : Nat → Nat → Val) (skip : List Nat) (sums : Tab Word) :
    Tab Word × Bool :=
  (List.range (m * 1024)).foldl (fun r i =>
    if skip.contains (i / 1024) then r
    else
      let a := accPairs code bias (accOf code (tget 0 r.1 i)) ((List.range k).map (fun j => (A (i / 1024) j, B (i % 1024) j)))
      (tset 0 r.1 i (BitVec.ofNat 64 (encodeFmt code a.v)), r.2 || a.ovf)) (sums, false)

/-- K of a pass (R99). -/
def Pass.k (q : Pass) : Nat := q.kch * chunkOf q.fa
/-- A wide pass (R102). -/
def Pass.wide (q : Pass) : Bool := decide (q.fa = 7) && decide (9 ≤ q.kch)

/-- Reader of a logical tile at a location. -/
def Device.reader (d : Device) (p l : Nat) (x : Loc) : Rd := fun o n => d.readAt p l (x.plus o) n

/-- Descriptor of a window pass. -/
def Device.winDesc (d : Device) (p l : Nat) (ai : Word) : List Byte := d.readAt p l (locOf ai) 64

/-- Activation element of a pass. -/
def Device.passA (d : Device) (p l m : Nat) (q : Pass) : Nat → Nat → Val :=
  match q.win with
  | none => elemAt (d.reader p l (locOf q.aa)) q.fa q.bsz m q.k
  | some (as, ai) => winElem (d.winDesc p l ai) (d.reader p l (locOf as))

-- The weight store (R101 to R103).

/-- The weights of a pass as a cast-on reads them at AB. -/
def Device.castOn (d : Device) (p l : Nat) (q : Pass) : WSet :=
  let x := locOf q.ab
  { op := q.id, base := x.pos, data := mslice d.spad (spKey p l x.pos) (planeBytes q.fb q.bsz 1024 q.k),
    psFree := (d.lt p l).psFree, both := q.wide }
/-- Reader of a register set of the weight store. -/
def WSet.reader (w : WSet) : Rd := fun o n => (List.range n).map (fun i => mget w.data (o + i) ^^^ spMaskOf w.psFree (w.base + o + i))

/-- Sums of a group after one pass with the weights that `wrd` reads. -/
def Device.passSums (d : Device) (p l : Nat) (g : Group) (q : Pass) (wrd : Rd) (skip : List Nat) : Tab Word × Bool :=
  passTile (accCode g.acc) g.bias g.m q.k (d.passA p l g.m q) (elemAt wrd q.fb q.bsz 1024 q.k) skip g.sums

/-- Cause a window stream faults with (R113). -/
def Device.winFault (d : Device) (p l m : Nat) (q : Pass) : Option Cause :=
  match q.win with
  | none => none
  | some (as, ai) =>
    let b := d.winDesc p l ai
    let x := locOf as
    (List.range m).findSome? (fun i => (List.range q.k).findSome? (fun e =>
      match winPos b i e with
      | none => none
      | some (z, y, xx, c) =>
        let r := winBytes b z y xx c
        match d.readFault p (x.plus r.1.1) r.1.2 with
        | some f => some f
        | none => if r.2.2 = 0 then none else d.readFault p (x.plus r.2.1) 1))

/-- A window stream reads from AS (R106, R111): its scratchpad bytes from the first to the last that the pass takes. -/
def Device.winSpan (d : Device) (p l m : Nat) (q : Pass) : Nat × Nat :=
  match q.win with
  | none => (0, 0)
  | some (_, ai) =>
    let b := d.winDesc p l ai
    let rs := (List.range m).flatMap (fun i => (List.range q.k).flatMap (fun e =>
      match winPos b i e with
      | none => []
      | some (z, y, x, c) => let r := winBytes b z y x c
                             if r.2.2 = 0 then [r.1] else [r.1, r.2]))
    match rs with
    | [] => (0, 0)
    | r :: _ =>
      let lo := rs.foldl (fun a x => min a x.1) r.1
      (lo, rs.foldl (fun a x => max a (x.1 + x.2)) 0 - lo)

/-- Cause a pass's operands fault with. -/
def Device.passFault (d : Device) (p l m : Nat) (q : Pass) : Option Cause :=
  match d.readFault p (locOf q.ab) (planeBytes q.fb q.bsz 1024 q.k) with
  | some c => some c
  | none => match q.win with
    | some _ => d.winFault p l m q
    | none => d.readFault p (locOf q.aa) (planeBytes q.fa q.bsz m q.k)

-- Groups.

/-- The group an array holds. -/
def LTile.group (t : LTile) (ag : Nat) : Option Group := tget none t.groups ag
/-- Replace a group. -/
def LTile.setGroup (t : LTile) (ag : Nat) (g : Option Group) : LTile := { t with groups := tset none t.groups ag g }
/-- Recorded passes of a group, in record order (R152). -/
def LTile.record (t : LTile) (ag : Nat) : List Pass := t.passes.filter (fun q => decide (q.ag = ag))

/-- The link that binds the group a logical tile's array holds as `ag` (R162): a link binds the group open at its issue,
and no later group of that number. -/
def Device.boundLink (d : Device) (p l ag : Nat) : Option Link :=
  match (d.lt p l).group ag with
  | none => none
  | some g => (d.part p).links.find? (fun k => k.relay && decide (k.lt = l) && decide (k.ag = ag) && decide (k.gid = g.oid))

/-- A stored word with any NaN made the canonical one of its format (R134). -/
def canonWord (code w : Nat) : Nat := if vIsNan (decodeFmt code w) then nanCode code else w

/-- Values of the R84 layout at AI as stored words. -/
def initWords (acc m : Nat) (bs : List Byte) : Tab Word :=
  (List.range (m * 1024)).foldl (fun t i =>
    tset 0 t i (BitVec.ofNat 64 (canonWord (accCode acc) (fld bs (i * accBytes acc) (accBytes acc))))) []

/-- Bytes of the R84 layout of `m` rows. -/
def r84Bytes (acc m : Nat) : Nat := m * 1024 * accBytes acc + 64
/-- Trailer of R84: bias, recompute count, gauge bit. -/
def trailer (bias : Int) (recomp : Nat) (gauge : Bool) : List Byte :=
  toLe 4 (ofInt 32 bias) ++ toLe 1 recomp ++ toLe 1 (if gauge then 1 else 0) ++ List.replicate 58 0#8

/-- Values a reduction starts from at a lower bias: a loaded value enters as its stored one, scaled and rounded (R140, step 4; R154,
step 3). Only group sums and results of additions are tested for overflow (R139). -/
def Device.startSums (d : Device) (p l : Nat) (g : Group) : Tab Word :=
  if !g.init then []
  else
    let code := accCode g.acc
    let bs := d.readAt p l (locOf g.ai) (r84Bytes g.acc g.m)
    let bt := toInt 32 (fld bs (g.m * 1024 * accBytes g.acc) 4)
    let ws := initWords g.acc g.m bs
    (List.range (g.m * 1024)).foldl (fun r i =>
      tset 0 r i (BitVec.ofNat 64 (encodeFmt code (rn code (vscale (decodeFmt code (tget 0 ws i).toNat) (g.bias - bt)))))) []

/-- Replay recorded passes on a group (R154, step 4): the group, and whether it overflowed. -/
def Device.replay (d : Device) (p l : Nat) : List Pass → Group → Bool → Group × Bool
  | [], g, o => (g, o)
  | q :: qs, g, o =>
    let r := d.passSums p l g q (d.reader p l (locOf q.ab)) []
    d.replay p l qs { g with sums := r.1 } (o || r.2)

/-- Recompute of an overflowed group that no cable binds (R154): the group, the recomputes run, whether an overflow at
count 3 was kept. The first argument bounds the recomputes. -/
def Device.recompute (d : Device) (p l : Nat) (qs : List Pass) : Nat → Group → Group × Nat × Bool
  | 0, g => ({ g with gauge := true }, 0, true)
  | n + 1, g =>
    if 3 ≤ g.recomp then ({ g with gauge := true }, 0, true)
    else
      let g := { g with bias := g.bias - 16, recomp := g.recomp + 1 }
      let r := d.replay p l qs { g with sums := d.startSums p l g } false
      if r.2 then
        let x := d.recompute p l qs n r.1
        (x.1, x.2.1 + 1, x.2.2)
      else (r.1, 1, false)

/-- Values of a group, row-major (R84). -/
def Group.bytes (g : Group) : List Byte :=
  (List.range (g.m * 1024)).flatMap (fun i => toLe (accBytes g.acc) (tget 0 g.sums i).toNat)

end Sys2Proof.Machine
end

