-- ==== Sys2Proof/Machine/Cable.lean ====
section
/-! DEFINITION. Cables and fans (R156 to R170, R425): forming a link, adding parts, relaying a bound group, the nodes of a
fan, restart on overflow, final delivery, and what a stopped device's VOID stands for. A link is named by its logical
tile and operation number. -/
namespace Sys2Proof.Machine

-- Links.

/-- The link of an operation. -/
def Part.link (P : Part) (l op : Nat) : Option Link := P.links.find? (fun k => decide (k.lt = l) && decide (k.op = op))
/-- Replace a link. -/
def setLink (d : Device) (p : Nat) (k : Link) : Device :=
  d.modPart p (fun P => { P with links := replaceFirst (fun x => decide (x.lt = k.lt) && decide (x.op = k.op)) (fun _ => k) P.links })

/-- Values per segment (R166). -/
def segMax (fmt : Nat) : Nat := if fmt = 0 then 2040 else 1020
/-- Segments of `n` values. -/
def segCount (fmt n : Nat) : Nat := cdiv n (segMax fmt)
/-- Values in segment `s` of `n` values. -/
def segLen (fmt n s : Nat) : Nat := min (segMax fmt) (n - s * segMax fmt)
/-- Segment numbers of a link. -/
def Link.segNums (k : Link) : List Nat := List.range (segCount k.fmt k.s1)
/-- Device that issues link `i`. -/
def Link.devOf (k : Link) (i : Nat) : Nat := (k.table.getD i (0, 0)).1
/-- Number of the final link: the last link of a cable, leaf 0 of a fan (R164). -/
def Link.final (k : Link) : Nat := if k.fan then 0 else k.links - 1
/-- A segment of +0. -/
def Link.zeros (k : Link) (s : Nat) : List Word := List.replicate (segLen k.fmt k.s1 s) 0

/-- MB_NEXT that leaves an adding link (R161): one with no part, or a zero part, passes on what it received (R168). -/
def Link.nextMb (k : Link) : Nat := if k.zero || decide (k.mbN = 0) then k.mbNext else k.mbLo + k.mbN

/-- A message of a link (Table 6-5); `s` is the segment, `vs` its values. -/
def Link.msg (k : Link) (p to_ lvl s : Nat) (vs : List Word) : CableMsg :=
  let last := decide (s + 1 = segCount k.fmt k.s1) && decide (vs ≠ [])
  { part := Fin.ofNat 8 p, peer := BitVec.ofNat 12 (k.devOf k.this), fmt := BitVec.ofNat 8 k.fmt, cableId := BitVec.ofNat 16 k.cable, step := BitVec.ofNat 32 k.step,
    src := BitVec.ofNat 16 k.this, dest := BitVec.ofNat 16 to_, links := BitVec.ofNat 16 k.links,
    epoch := BitVec.ofNat 8 k.epoch,
    flags := BitVec.ofNat 8 ((if k.relay then 0 else 1) + (if last then 2 else 0) + (if k.gauge then 4 else 0) +
      (if k.void then 8 else 0) + (if k.fan then 16 else 0)),
    bias := BitVec.ofInt 32 k.bias, seg := BitVec.ofNat 32 s, level := BitVec.ofNat 8 lvl,
    mbNext := BitVec.ofNat 32 (if k.relay || k.fan then 0 else k.nextMb), values := vs }

/-- Send a message to link `i` of the cable. -/
def sendLink (d : Device) (p : Nat) (k : Link) (i typ : Nat) (m : CableMsg) : Device :=
  sendPeer d p (k.devOf i) (.cable typ m)

/-- Was a link of the step formed on this device? -/
def Part.wasFormed (P : Part) (k : Link) (i : Nat) : Bool := P.formed.contains (k.fan, k.cable, i)

/-- Does device `dev`'s VOID stand for link `i`? On the device itself only for a link it never formed, whose logical tile
has stopped. -/
def Device.voidFor (d : Device) (p dev : Nat) (k : Link) (i : Nat) : Bool :=
  decide (k.devOf i = dev) &&
  (decide (dev ≠ (d.part p).devId) ||
   (!(d.part p).wasFormed k i &&
    (let b := (d.lt p (k.table.getD i (0, 0)).2).block
     decide (b = .stopped) || decide (b = .halted))))

/-- Did the device's VOID reach the partition, and does it stand for link `i`? -/
def Device.voided (d : Device) (p : Nat) (k : Link) (i : Nat) : Bool :=
  (d.part p).voids.contains (k.devOf i) && d.voidFor p (k.devOf i) k i

/-- RESTART to link 0, or to every leaf of a fan (R167). One addressed to a stopped device's link that was never formed is
dropped where it arrives (R425). -/
def sendRestart (d : Device) (p : Nat) (k : Link) : Device :=
  let k1 := { k with epoch := k.epoch + 1, bias := k.bias - 16 }
  (if k.fan then List.range k.links else [0]).foldl (fun d i =>
    tileCount (sendLink d p k i 2 (k1.msg p i 0 0 [])) p k.lt fRestarts) d

/-- May no restart reach the link any more: FINISH stands for it already, and link 0 or the other leaves may be complete, or its VOID sum
has passed the place of a link that its own device never formed, which passes no restart on (R425)? What another device formed the link
cannot know: behind its links the cable restarts as R167 says. DEDUCED (log 100). -/
def Device.restartLost (d : Device) (p : Nat) (k : Link) : Bool :=
  (k.fin && decide (k.this ≠ k.final)) ||
  (!k.fan && k.void && !d.voided p k (k.this - 1) &&
   (List.range (k.this - 1)).any (fun i => decide (k.devOf i = (d.part p).devId) && d.voided p k i))

/-- An overflow found at epoch e: below 3 the link stops work at this epoch and sends RESTART; at 3 the values are kept
and the gauge flags set (R167). A link that no restart may reach any more goes on as it is, with VOID (R425). The second result: whether
work goes on. -/
def linkOverflow (d : Device) (p : Nat) (k : Link) : Device × Bool :=
  if 3 ≤ k.epoch then (setFlag (setLink d p { k with gauge := true }) p k.lt k.op, true)
  else if d.restartLost p k then (setLink d p { k with void := true }, true)
  else (sendRestart (setLink d p { k with halt := true }) p k, false)

-- Final delivery (R164, R165).

/-- Final values, padding and trailer as they stand at AD. -/
def Link.finalBytes (k : Link) : List Byte :=
  let w := if k.fmt = 0 then 4 else 8
  let vs := k.segNums.flatMap (fun s => (tget [] k.vals s).flatMap (fun v => toLe w (canonWord k.fmt v.toNat)))
  vs ++ List.replicate (ceil64 vs.length - vs.length) 0#8 ++ trailer k.bias k.epoch k.gauge

/-- FINISH to every other link. -/
def sendFinish (d : Device) (p : Nat) (k : Link) : Device :=
  ((List.range k.links).filter (· ≠ k.this)).foldl (fun d i => sendLink d p k i 3 (k.msg p i 0 0 [])) d

/-- Is a device of the job unreachable to the partition (R302)? -/
def Device.isUnreach (d : Device) (p dev : Nat) : Bool :=
  match d.peerFlow p dev with
  | none => decide (dev ≠ (d.part p).devId)
  | some i => decide ((d.flow i).st = .unreachable)

/-- Devices, of those named, that have refused their flow (R296), and are not lost yet: forming a link or an exchange is the first
exchange with them. -/
def Device.refusedOf (d : Device) (p : Nat) (devs : List Nat) : List Nat :=
  let P := d.part p
  devs.dedup.filter (fun dev =>
    decide (dev ≠ P.devId) && (d.peerFlow p dev).isNone && !P.peerWait.any (fun w => decide (w.1 = dev)) && !P.fataled.contains dev)
/-- Devices of a link that have refused their flow. -/
def Device.refusedBy (d : Device) (p : Nat) (k : Link) : List Nat :=
  d.refusedOf p (k.table.map (·.1) ++ (if k.mode = 1 then [k.destDev] else []))
/-- Does a link's logical tile meet a fault of its own; the link goes on with a zero part and VOID (R168). -/
def linkFault (d : Device) (p : Nat) (k : Link) (c : Cause) : Device :=
  tileFault (setLink d p { k with zero := true, void := true }) p k.lt c

/-- The final link holds every segment of its epoch: it delivers, once the stack at AD serves, and sends FINISH (R164, R165,
R346). -/
def deliver (d : Device) (p : Nat) (k : Link) : Device :=
  if k.delivered || !k.segNums.all (fun s => (tget [] k.vals s) ≠ []) then d
  else if k.mode = 0 && !k.void && !d.reachAll p [(locOf k.ad).h] then wakeAll d p [(locOf k.ad).h] 4
  else if k.mode = 0 then
    let bs := k.finalBytes
    let x := locOf k.ad
    let k := { k with delivered := true, fin := true }
    if k.void then sendFinish (setLink d p k) p k
    else match d.writeFault p x bs.length with
      | some c => sendFinish (linkFault d p k c) p { k with void := true }
      | none => sendFinish ((setLink d p k).writeAt p k.lt x bs |>.touch p k.lt x bs.length) p k
  else
    let lost := d.isUnreach p k.destDev
    let d := setLink d p { k with delivered := true, fin := lost }
    let d := if lost then d else k.segNums.foldl (fun d s =>
      sendPeer d p k.destDev (.cable 1 (k.msg p 0xFFFF 0 s (tget [] k.vals s)))) d
    sendFinish d p k

/-- The final link takes a segment's final values. -/
def finalSeg (d : Device) (p : Nat) (k : Link) (s : Nat) (vs : List Word) : Device :=
  let k := { k with vals := tput s vs k.vals, done := s :: k.done }
  deliver (setLink d p k) p k

-- The nodes of a fan (R170).

/-- Nodes of level `lv` of a fan with P leaves. -/
def fanWidth (P lv : Nat) : Nat := cdiv P (2 ^ lv)
/-- Values of a node, if the leaf holds them. -/
def Link.node (k : Link) (lv j s : Nat) : Option (List Word) :=
  (k.nodes.find? (fun n => decide (n.1 = lv) && decide (n.2.1 = j) && decide (n.2.2.1 = s))).map (·.2.2.2)

/-- Sum of two nodes, and whether an addition overflowed. -/
def nodeSum (fmt : Nat) (a b : List Word) : List Word × Bool :=
  let rs := (a.zip b).map (fun x =>
    let u := decodeFmt fmt x.1.toNat
    let v := decodeFmt fmt x.2.toNat
    let r := accAdd fmt u v
    (BitVec.ofNat 64 (encodeFmt fmt r), !(vNonfin u || vNonfin v) && overflows fmt r))
  (rs.map (·.1), rs.any (·.2))

/-- Node (lv, j) of a segment stands at this leaf: it is sent on, passes up, waits for its pair, or combines with it; the
root is the final value. The first argument bounds the levels. -/
def fanPut (p l op : Nat) : Nat → Nat → Nat → Nat → List Word → Device → Device
  | 0, _, _, _, _, d => d
  | fuel + 1, lv, j, s, vs, d =>
    match (d.part p).link l op with
    | none => d
    | some k =>
      if k.halt then d
      else
        let k := { k with nodes := k.nodes ++ [(lv, j, s, vs)] }
        let d := setLink d p k
        if fanWidth k.links lv = 1 then finalSeg d p k s vs
        else if j % 2 = 1 && k.this = j * 2 ^ lv then sendLink d p k ((j - 1) * 2 ^ lv) 1 (k.msg p ((j - 1) * 2 ^ lv) lv s vs)
        else
          let e := j - j % 2
          if fanWidth k.links lv ≤ e + 1 then fanPut p l op fuel (lv + 1) (e / 2) s vs d
          else match k.node lv e s, k.node lv (e + 1) s with
            | some a, some b =>
              let r := nodeSum k.fmt a b
              let o := if r.2 then linkOverflow d p k else (d, true)
              if o.2 then fanPut p l op fuel (lv + 1) (e / 2) s r.1 o.1 else o.1
            | _, _ => d

/-- A link's segment leaves it: to the next link, to the final place, or into the fan's nodes. -/
def linkOut (d : Device) (p l op s : Nat) (vs : List Word) : Device :=
  match (d.part p).link l op with
  | none => d
  | some k =>
    if k.halt || k.done.contains s then d
    else if k.fan then
      fanPut p l op 14 0 k.this s vs (setLink d p { k with done := s :: k.done })
    else if k.this = k.links - 1 then finalSeg d p k s vs
    else sendLink (setLink d p { k with done := s :: k.done }) p k (k.this + 1) 1 (k.msg p (k.this + 1) 0 s vs)

-- Adding links (R160, R161).

/-- Bytes of one contribution. -/
def Link.partBytes (k : Link) : Nat :=
  let n := planeBytes k.pfmt k.bsz 1 k.s1
  if k.trailers then ceil64 n + 64 else n
/-- Place of contribution `j`. -/
def Link.partLoc (k : Link) (j : Nat) : Loc := (locOf k.as).plus (j * k.pstride)

/-- add_part of R160 on one segment: the new running sum, and whether an addition overflowed. -/
def addPart (d : Device) (p : Nat) (k : Link) (s : Nat) (run : List Word) : List Word × Bool :=
  let bt (j : Nat) : Int := if k.trailers then
      toInt 32 (fld (d.readAt p k.lt ((k.partLoc j).plus (ceil64 (planeBytes k.pfmt k.bsz 1 k.s1))) 4) 0 4) else 0
  let rs := run.zipIdx.map (fun (w, i) =>
    let a := (List.range k.mbN).foldl (fun a j =>
      accTerm k.fmt (k.bias - bt j) a (elemAt (d.reader p k.lt (k.partLoc j)) k.pfmt k.bsz 1 k.s1 0 (s * segMax k.fmt + i)))
      (accOf k.fmt w)
    (BitVec.ofNat 64 (encodeFmt k.fmt a.v), a.ovf))
  (rs.map (·.1), rs.any (·.2))

/-- Cause a link's part faults with. -/
def partFault (d : Device) (p : Nat) (k : Link) : Option Cause :=
  (List.range k.mbN).findSome? (fun j => d.readFault p (k.partLoc j) k.partBytes)

/-- An adding link takes a segment of the running sum, adds its contributions and sends it on (R160); the segment waits while
the stack of its part does not serve (R346), or its Purl engine copies a row or is under check (R271, R371). -/
def linkAdd (d : Device) (p l op s : Nat) (run : List Word) : Device :=
  match (d.part p).link l op with
  | none => d
  | some k =>
    if k.halt || k.done.contains s then d
    else if k.zero || k.mbN = 0 then linkOut d p l op s run
    else if !d.readable p [(locOf k.as).h] || !d.enginesAdd p ((d.part p).stacksOf (locOf k.as).h) then
      wakeAll (setLink d p { k with stall := k.stall ++ [(s, run)] }) p [(locOf k.as).h] 4
    else match partFault d p k with
      | some c => linkOut (linkFault d p k c) p l op s run
      | none =>
        let d := (List.range k.mbN).foldl (fun d j => d.touch p k.lt (k.partLoc j) k.partBytes) d
        let r := addPart d p k s run
        let o := if r.2 then linkOverflow d p k else (d, true)
        if o.2 then linkOut o.1 p l op s r.1 else o.1

-- Relay links (R162, R163).

/-- Segment `s` of a group's values. -/
def Group.seg (g : Group) (k : Link) (s : Nat) : List Word :=
  (List.range (segLen k.fmt k.s1 s)).map (fun i => tget 0 g.sums (s * segMax k.fmt + i))
/-- Sums that the segments of a running sum load. -/
def Link.loadSums (k : Link) : Tab Word :=
  k.segNums.foldl (fun t s => (tget [] k.got s).zipIdx.foldl (fun t x => tset 0 t (s * segMax k.fmt + x.2) x.1) t) []

/-- The group a relay link binds, once the array holds it. -/
def Device.linkGroup (d : Device) (p : Nat) (k : Link) : Option Group :=
  match (d.lt p k.lt).group k.ag with
  | none => none
  | some g => if g.oid = k.gid then some g else none

/-- Once a bound group's NPASS passes are written, its values leave (R162, step 4). -/
def relayDone (d : Device) (p l op : Nat) : Device :=
  match (d.part p).link l op with
  | none => d
  | some k =>
    match d.linkGroup p k with
    | none => d
    | some g =>
      if k.ready && !k.sent && !k.halt && !k.zero && decide (k.npass ≤ ((d.lt p l).record k.ag).length) then
        k.segNums.foldl (fun d s => linkOut d p l op s (g.seg k s)) (setLink d p { k with sent := true })
      else d

/-- A bound group holds new starting values: its recorded passes are replayed at the link's epoch, then its values leave
if they are complete (R167, step 4). -/
def relayReplay (d : Device) (p : Nat) (k : Link) (g : Group) : Device :=
  let r := d.replay p k.lt ((d.lt p k.lt).record k.ag) g false
  let k := { k with ready := true }
  let d := (setLink d p k).modLt p k.lt (fun t => t.setGroup k.ag (some r.1))
  let x := if r.2 then linkOverflow d p k else (d, true)
  let d := if r.2 && x.2 then x.1.modLt p k.lt (fun t => t.setGroup k.ag (some { r.1 with gauge := true })) else x.1
  if x.2 then relayDone d p k.lt k.op else d

/-- A bound group takes its starting values once the array holds it: link 0 its own, a leaf +0, every other link the
running sum when it is complete (R162, R170). -/
def relayLoad (d : Device) (p l op : Nat) : Device :=
  match (d.part p).link l op with
  | none => d
  | some k =>
    match d.linkGroup p k with
    | none => d
    | some g =>
      if !k.relay || k.ready || k.zero then d
      else if k.fan then relayReplay d p k { g with bias := k.bias, recomp := k.epoch, sums := [] }
      else if k.this = 0 then
        let k := { k with epoch := g.recomp, bias := g.bias, gauge := k.gauge || g.gauge }
        relayReplay (setLink d p k) p k g
      else if k.segNums.all (fun s => (tget [] k.got s) ≠ []) then
        relayReplay d p k { g with bias := k.bias, recomp := k.epoch, gauge := k.gauge, sums := k.loadSums }
      else d

/-- A relay link whose part is zero passes on what it received; link 0 and a leaf give +0 (R168). -/
def relayZero (d : Device) (p l op : Nat) : Device :=
  match (d.part p).link l op with
  | none => d
  | some k =>
    if k.fan || k.this = 0 then k.segNums.foldl (fun d s => linkOut d p l op s (k.zeros s)) d
    else k.segNums.foldl (fun d s => if (tget [] k.got s) = [] then d else linkOut d p l op s (tget [] k.got s)) d

/-- The link starts, or starts again, at its epoch and bias: link 0 or a leaf gives its part from +0 (R160, R167). -/
def linkStart (d : Device) (p l op : Nat) : Device :=
  match (d.part p).link l op with
  | none => d
  | some k =>
    if k.relay then (if k.zero then relayZero d p l op else relayLoad d p l op)
    else if k.fan || k.this = 0 then
      k.segNums.foldl (fun d s => linkAdd d p l op s (k.zeros s)) d
    else d

/-- A link discards what it holds for an epoch and takes up a higher one (R167, step 4). -/
def Link.renew (k : Link) (epoch : Nat) (bias : Int) : Link :=
  { k with epoch := epoch, bias := bias, halt := false, got := [], done := [], vals := [], nodes := [], stall := [],
           ready := false, sent := false }

/-- A segment of the running sum reaches link THIS > 0 of a cable; `check`: the MB_NEXT check applies (R161). -/
def linkSeg (d : Device) (p l op s mbNext : Nat) (check : Bool) (vs : List Word) : Device :=
  match (d.part p).link l op with
  | none => d
  | some k =>
    if k.relay then
      let d := setLink d p { k with got := tput s vs k.got }
      if k.zero then linkOut d p l op s vs else relayLoad d p l op
    else if check && !k.zero && decide (0 < k.mbN) && decide (k.mbLo < mbNext) then
      let k := { k with mbNext := mbNext }
      linkAdd (linkFault d p k .illegalInstr) p l op s vs
    else
      linkAdd (setLink d p { k with mbNext := mbNext }) p l op s vs

/-- Restart of link 0 or of a leaf at a higher epoch (R167, step 3). -/
def linkRestart (d : Device) (p : Nat) (k : Link) (epoch : Nat) (bias : Int) : Device :=
  let k := k.renew epoch bias
  if k.relay && !k.zero && !k.fan then
    let d := setLink d p k
    match d.linkGroup p k with
    | none => d
    | some g =>
      let g := { g with bias := bias, recomp := epoch }
      relayReplay d p k { g with sums := d.startSums p k.lt g }
  else linkStart (setLink d p k) p k.lt k.op

-- What a stopped device's VOID stands for (R425).

/-- Levels of a fan at which a leaf awaits a pair, with the pair's number. -/
def Link.awaits (k : Link) : List (Nat × Nat) :=
  (List.range 13).filterMap (fun lv =>
    let j := k.this / 2 ^ lv
    if k.this % 2 ^ (lv + 1) = 0 && decide (j + 1 < fanWidth k.links lv) then some (lv, j + 1) else none)

/-- A link proceeds as if what it awaits from the links `src` names had arrived: +0 at bias 0 and its own epoch, with
VOID. -/
def settleParts (p : Nat) (src : Link → Nat → Device → Bool) (k : Link) (d : Device) : Device :=
  if k.fan then
    k.awaits.foldl (fun d w =>
      if src k (w.2 * 2 ^ w.1) d then
        k.segNums.foldl (fun d s =>
          match (d.part p).link k.lt k.op with
          | none => d
          | some k => if (k.node w.1 w.2 s).isSome then d
            else fanPut p k.lt k.op 14 w.1 w.2 s (k.zeros s) (setLink d p { k with void := true })) d
      else d) d
  else if decide (0 < k.this) && src k (k.this - 1) d then
    k.segNums.foldl (fun d s =>
      match (d.part p).link k.lt k.op with
      | none => d
      | some k =>
        if k.done.contains s || (tget [] k.got s) ≠ [] then d
        else linkSeg (setLink d p { k with void := true, bias := 0 }) p k.lt k.op s 0 false (k.zeros s)) d
  else d

/-- A link that an overflow has halted awaits the running sum again, at the epoch above; where it awaits it from a link that `src`
names, it proceeds at that epoch as if the sum had arrived (R167, R425). The first argument bounds the epochs. DEDUCED (log 100). -/
def resettle (p : Nat) (src : Link → Nat → Device → Bool) (k0 : Link) : Nat → Device → Device
  | 0, d => d
  | n + 1, d =>
    match (d.part p).link k0.lt k0.op with
    | none => d
    | some k =>
      if !k.fan && k.halt && decide (0 < k.this) && src k (k.this - 1) d then
        resettle p src k0 n (settleParts p src k (setLink d p { k.renew (k.epoch + 1) 0 with void := true }))
      else d
/-- What a link halted by an overflow does where a VOID that has come stands for the link before it. -/
def resettleVoid (p : Nat) (k : Link) (d : Device) : Device := resettle p (fun k i d => d.voided p k i) k 4 d

/-- Level of the node that leaves a leaf other than the root. -/
def Link.topLevel (k : Link) : Nat := ((List.range 13).find? (fun lv => bit k.this lv)).getD 0
/-- FINISH stands for the link: one that an overflow has halted goes on with +0 and VOID for the segments that have not left it, since
link 0 or the other leaves may be complete and no restart may come (R425). -/
def finLink (p : Nat) (k : Link) (d : Device) : Device :=
  if !k.halt then setLink d p { k with fin := true }
  else
    k.segNums.foldl (fun d s =>
      if !k.fan then linkOut d p k.lt k.op s (k.zeros s)
      else match (d.part p).link k.lt k.op with
        | none => d
        | some k =>
          if (k.node k.topLevel (k.this / 2 ^ k.topLevel) s).isSome then d
          else fanPut p k.lt k.op 14 k.topLevel (k.this / 2 ^ k.topLevel) s (k.zeros s) d)
      (setLink d p { k with fin := true, halt := false, sent := true, void := true })

/-- A link settles what it awaits from a stopped device (R425). -/
def settleLink (p dev : Nat) (k0 : Link) (d : Device) : Device :=
  match (d.part p).link k0.lt k0.op with
  | none => d
  | some k =>
    let d := if k.this ≠ k.final && d.voidFor p dev k k.final then finLink p k d else d
    resettleVoid p k (settleParts p (fun k i d => d.voidFor p dev k i) k d)

/-- A link with a peer that is lost completes with VOID (R304): it takes +0 for what it awaits, and FINISH as arrived; a
MODE 1 sum whose DEST_DEV is lost is not delivered (R165). -/
def loseLink (p dev : Nat) (k0 : Link) (d : Device) : Device :=
  match (d.part p).link k0.lt k0.op with
  | none => d
  | some k =>
    if k.table.any (fun e => decide (e.1 = dev)) then
      let k := { k with void := true, fin := k.fin || (k.delivered && decide (k.mode = 1) && decide (k.destDev = dev)) }
      let d := if k.this ≠ k.final then finLink p k d else setLink d p k
      match (d.part p).link k.lt k.op with
      | none => d
      | some k => resettle p (fun _ _ _ => true) k 4 (settleParts p (fun _ _ _ => true) k d)
    else if k.delivered && k.mode = 1 && k.destDev = dev then setLink d p { k with fin := true }
    else d

/-- Every link settles what it awaits from a stopped device. -/
def settle (d : Device) (p dev : Nat) : Device := (d.part p).links.foldl (fun d k => settleLink p dev k d) d

/-- A formed link's part becomes zero, and what leaves it carries VOID (R168). -/
def zeroLink (p : Nat) (k0 : Link) (d : Device) : Device :=
  match (d.part p).link k0.lt k0.op with
  | none => d
  | some k =>
    let k := { k with zero := true, void := true }
    if k.relay && !k.sent then
      let k := if k.this = 0 && !k.fan then { k with epoch := 0, bias := 0, halt := false } else { k with halt := false }
      relayZero (setLink d p k) p k.lt k.op
    else setLink d p k
/-- The links of a stopped logical tile. -/
def zeroLinks (d : Device) (p l : Nat) : Device :=
  ((d.part p).links.filter (fun k => decide (k.lt = l) && !k.zero)).foldl (fun d k => zeroLink p k d) d

/-- A message that disagrees with its link (R159): the link's logical tile faults, its part becomes zero, and it takes +0 for
whatever it still awaits, so that the cable finishes without it (R168). -/
def disagree (p : Nat) (k : Link) (d : Device) : Device :=
  let d := if k.zero then d else zeroLink p k (tileFault d p k.lt .illegalInstr)
  match (d.part p).link k.lt k.op with
  | none => d
  | some k => resettle p (fun _ _ _ => true) k 4 (settleParts p (fun _ _ _ => true) k d)

-- Messages that arrive (R166, R167).

/-- The link a cable message is for. -/
def Part.linkFor (P : Part) (m : CableMsg) : Option Link :=
  P.links.find? (fun k => decide (k.cable = m.cableId.toNat) && decide (k.step = m.step.toNat) &&
    decide (k.this = m.dest.toNat) && (k.fan == bit m.flags.toNat 4))

/-- Does a message agree with the link it is for (R159)? -/
def Link.agrees (k : Link) (m : CableMsg) : Bool :=
  decide (m.links.toNat = k.links) && decide (m.fmt.toNat = k.fmt) && (bit m.flags.toNat 0 == !k.relay)

/-- Does a segment fit the link's S1? -/
def Link.fits (k : Link) (m : CableMsg) : Bool :=
  decide (m.seg.toNat < segCount k.fmt k.s1) && decide (m.values.length = segLen k.fmt k.s1 m.seg.toNat) &&
  (bit m.flags.toNat 1 == decide (m.seg.toNat + 1 = segCount k.fmt k.s1))

/-- A restarted leaf takes +0 again for the leaves and nodes that a VOID stands for. -/
def restartLink (d : Device) (p : Nat) (k : Link) (epoch : Nat) (bias : Int) : Device :=
  (d.part p).voids.foldl (fun d dev => settleLink p dev k d) (linkRestart d p k epoch bias)

/-- A SEG for a formed link. -/
def segArrive (d : Device) (p : Nat) (k : Link) (m : CableMsg) : Device :=
  let e := m.epoch.toNat
  if !k.agrees m || !k.fits m then disagree p k d
  else if e < k.epoch then d
  else
    let up := decide (k.epoch < e)
    let d := if up && k.fan then restartLink d p k e m.bias.toInt else d
    match (d.part p).link k.lt k.op with
    | none => d
    | some k =>
      let k := if up && !k.fan then k.renew e m.bias.toInt else k
      let k := { k with void := k.void || bit m.flags.toNat 3, gauge := k.gauge || bit m.flags.toNat 2,
                        bias := if k.fan then k.bias else m.bias.toInt }
      let s := m.seg.toNat
      let d := setLink d p k
      if k.fan then
        let lv := m.level.toNat
        let j := m.src.toNat / 2 ^ lv
        if (k.node lv j s).isSome then d else fanPut p k.lt k.op 14 lv j s m.values d
      else if k.halt || k.done.contains s || (tget [] k.got s) ≠ [] then d
      else linkSeg d p k.lt k.op s m.mbNext.toNat true m.values

/-- Is a RESTART for a leaf of the step that is not formed yet? Another leaf of its fan may have overflowed first. -/
def Part.awaitsLeaf (P : Part) (m : CableMsg) : Bool :=
  P.isRunning && bit m.flags.toNat 4 && decide (P.step ≤ m.step.toNat) && !P.formed.contains (true, m.cableId.toNat, m.dest.toNat)

/-- RESTART: link 0 or a leaf acts on an EPOCH above its own and ignores any other; one for a leaf not yet formed waits for
it (R170), and is dropped with the step if the leaf is never formed (R425). -/
def restartArrive (m : CableMsg) (d : Device) : Device :=
  let p := m.part.val
  match (d.part p).linkFor m with
  | none => if (d.part p).awaitsLeaf m then d.modPart p (fun P => { P with early := P.early ++ [.restart m] }) else d
  | some k =>
    if !k.agrees m then disagree p k d
    else if (k.fan || decide (k.this = 0)) && decide (k.epoch < m.epoch.toNat) then
      restartLink d p { k with void := k.void || bit m.flags.toNat 3 } m.epoch.toNat m.bias.toInt
    else d
/-- RESTART -/
def execRestart (m : CableMsg) (s : State) : Host.Outcome State Fault Refusal := onDev (restartArrive m) s

/-- FINISH completes every link but the final one, whatever has left it: the final link has delivered (R165). -/
def finishArrive (m : CableMsg) (d : Device) : Device :=
  let p := m.part.val
  match (d.part p).linkFor m with
  | none => d
  | some k =>
    if !k.agrees m then
      let d := disagree p k d
      match (d.part p).link k.lt k.op with
      | none => d
      | some k => setLink d p { k with fin := true, delivered := k.delivered || decide (k.this ≠ k.final) }
    else if k.this = k.final then d
    else setLink d p { k with fin := true, delivered := true, void := k.void || bit m.flags.toNat 3 }
/-- FINISH -/
def execFinish (m : CableMsg) (s : State) : Host.Outcome State Fault Refusal := onDev (finishArrive m) s

/-- HELD completes the final link of a MODE 1 cable or fan: its TO is LINKS - 1 (R165, R206). One that disagrees with the
link faults it (R159), and stands for the HELD it awaits all the same. -/
def heldArrive (m : CableMsg) (d : Device) : Device :=
  let p := m.part.val
  match (d.part p).links.find? (fun k => decide (k.cable = m.cableId.toNat) && decide (k.step = m.step.toNat) &&
      decide (k.this = k.final) && decide (k.mode = 1) && k.delivered && (k.fan == bit m.flags.toNat 4)) with
  | none => d
  | some k =>
    if k.agrees m then setLink d p { k with fin := true }
    else
      let d := disagree p k d
      match (d.part p).link k.lt k.op with
      | none => d
      | some k => setLink d p { k with fin := true }
/-- HELD -/
def execHeld (m : CableMsg) (s : State) : Host.Outcome State Fault Refusal := onDev (heldArrive m) s

/-- May a link complete: FINISH has come, or what stands for it and its last segments have left it (R165, R425)? -/
def Link.over (k : Link) : Bool :=
  k.fin && (k.this = k.final || k.delivered || k.segNums.all (fun s =>
    if k.fan then (k.node k.topLevel (k.this / 2 ^ k.topLevel) s).isSome else k.done.contains s))

/-- A link goes on with what waited for a stack (R346): segments of its part, the delivery at AD. -/
def resumeLink (p l op : Nat) (d : Device) : Device :=
  match (d.part p).link l op with
  | none => d
  | some k =>
    let d := if k.stall = [] || !d.readable p [(locOf k.as).h] || !d.enginesAdd p ((d.part p).stacksOf (locOf k.as).h) then d
      else k.stall.foldl (fun d x => linkAdd d p l op x.1 x.2) (setLink d p { k with stall := [] })
    match (d.part p).link l op with
    | none => d
    | some k => resettleVoid p k (if k.this = k.final && !k.delivered then deliver d p k else d)
/-- The links of every partition go on. -/
def resumeLinks (d : Device) : Device :=
  (List.range 8).foldl (fun d p => (d.part p).links.foldl (fun d k => resumeLink p k.lt k.op d) d) d

-- XCHG.CABLE and XCHG.FAN (R157 to R159, Tables 6-3, 6-4).

/-- Fields of Table 3-22. -/
def xchUsed : List (Nat × Nat) := [(53, 42), (41, 24), (22, 16)]

/-- A link as its descriptor gives it. -/
def linkOf (fan : Bool) (id : Nat) (t : LTile) (step w : Nat) (b entries : List Byte) : Link :=
  let n := fld b 6 2
  { lt := 0, op := id, cf := cfOf w, fan := fan, relay := decide (fld b 1 1 = 0), gid := 0,
    cable := (t.sreg (bits w 47 42)).toNat, step := step, fmt := bits w 53 50, mode := bits w 49 48,
    s1 := (t.sreg (bits w 41 36)).toNat, links := n, this := fld b 8 2, ag := fld b 5 1, pfmt := fld b 2 1,
    bsz := fld b 3 1, trailers := bit (fld b 4 1) 0, destDev := fld b 0xA 2, npass := fld b 0xC 4, mbLo := fld b 0x10 4,
    mbN := fld b 0x14 4, pstride := fld b 0x18 8, as := t.areg (bits w 27 24), ad := t.areg (bits w 31 28),
    table := (List.range n).map (fun i => (fld entries (8 * i) 2 % 4096, fld entries (8 * i + 2) 1 % 32)),
    epoch := 0, bias := 0, void := false, zero := false, gauge := false, halt := false, mbNext := 0, got := [],
    done := [], vals := [], nodes := [], stall := [], ready := false, sent := false, delivered := false, fin := false }

/-- Does a link entry break Table 6-4 or name a device at or above DEV_COUNT? -/
def entryBad (e devCount : Nat) : Bool :=
  decide (2 ^ 21 ≤ e) || decide (bits e 15 12 ≠ 0) || decide (devCount ≤ bits e 11 0)

/-- The descriptor checks of R159 that fault ILLEGAL_INSTR. -/
def linkLegal (d : Device) (p l : Nat) (k : Link) (b entries : List Byte) : Bool :=
  let P := d.part p
  let f (o n : Nat) := fld b o n
  decide (f 0 1 = if k.fan then 1 else 0) && decide (f 1 1 ≤ 1) && decide (f 4 1 ≤ 1) && decide (f 5 1 ≤ 15) &&
  decide ((if k.fan then 2 else 1) ≤ k.links) && decide (k.links ≤ 4096) && decide (k.this < k.links) &&
  zeros b 0x20 32 && decide (k.destDev < 4096) && (decide (k.mode = 0) || decide (k.destDev < P.devCount)) &&
  !(List.range k.links).any (fun i => entryBad (fld entries (8 * i) 8) P.devCount) &&
  decide (1 ≤ k.s1) && decide (k.s1 ≤ 268435456) && !P.formed.contains (k.fan, k.cable, k.this) &&
  (if k.relay then
     decide (k.pfmt = 0) && decide (k.bsz = 0) && decide (1 ≤ k.npass) && decide (k.npass ≤ 8192) && decide (k.mbN = 0) &&
     decide (k.pstride = 0) &&
     (match tget none (d.lt p l).ags k.ag with
      | none => false
      | some (_, m, acc) => decide (k.s1 = m * 1024) && decide (accCode acc = k.fmt))
   else
     decide (k.pfmt ≤ 9) && (if scaled k.pfmt then decide (k.bsz ≤ 3) else decide (k.bsz = 0)) && decide (k.ag = 0) &&
     decide (k.npass = 0) && decide (k.mbN ≤ 4096) &&
     (decide (k.mbN = 0) || (decide (k.pstride % 64 = 0) && decide (k.partBytes ≤ k.pstride))))

/-- XCHG.CABLE or XCHG.FAN executes, with the stacks of its descriptor and its part ON: the link is formed, or its descriptor faults (R425). `early`: what is done with the
messages that wait for it. -/
def linkAct (fan : Bool) (early : Nat → Link → Device → Device) (id p l w : Nat) (d : Device) : Device :=
  let t := d.lt p l
  let x := locOf (t.areg (bits w 35 32))
  match d.readFault p x 64 with
  | some c => tileFault d p l c
  | none =>
    let d := d.touch p l x 64
    let b := d.readAt p l x 64
    let n := 8 * (if fld b 6 2 ≤ 4096 then fld b 6 2 else 0)
    match d.readFault p (x.plus 64) n with
    | some c => tileFault d p l c
    | none =>
      let d := d.touch p l (x.plus 64) n
      let es := d.readAt p l (x.plus 64) n
      let k := { linkOf fan id t (d.part p).step w b es with lt := l }
      let k := { k with gid := ((tget none t.ags k.ag).map (·.1)).getD 0, descH := x.h }
      if !linkLegal d p l k b es then tileFault d p l .illegalInstr
      else
        let d := d.modPart p (fun P => { P with links := P.links ++ [k], formed := (fan, k.cable, k.this) :: P.formed })
        let d := d.modLt p l (fun t => { t with xch := t.xch ++ [{ id := id, kind := if fan then 2 else 1, au := 0, cf := k.cf }] })
        let d := linkStart d p l id
        let d := early p k d
        let d := (d.refusedBy p k).foldl (fun d dev => peerLost d p dev) d
        let d := (d.part p).voids.foldl (fun d dev => settleLink p dev k d) d
        (d.part p).fataled.foldl (fun d dev => loseLink p dev k d) d

/-- Is a message for the link? -/
def Link.takes (k : Link) (m : CableMsg) : Bool :=
  decide (m.cableId.toNat = k.cable) && decide (m.step.toNat = k.step) && decide (m.dest.toNat = k.this) &&
  (k.fan == bit m.flags.toNat 4)
/-- SEG and RESTART messages that waited for a link go to it, in the order they came (R166, R170). -/
def takeEarly (p : Nat) (k : Link) (d : Device) : Device :=
  let mine (e : Early) : Bool := match e with
    | .seg m _ => k.takes m
    | .restart m => k.takes m
    | _ => false
  let es := (d.part p).early.filter mine
  es.foldl (fun d e => match e, (d.part p).link k.lt k.op with
    | .seg m x, some k => segArrive d p k (d.openSeg m x)
    | .restart m, _ => restartArrive m d
    | _, _ => d) (d.modPart p (fun P => { P with early := P.early.filter (fun e => !mine e) }))

/-- XCHG.CABLE (opcode 0x01) and XCHG.FAN (0x02). -/
def opLink (fan : Bool) : Op :=
  { cls := 8, opc := if fan then 2 else 1, used := xchUsed,
    legal := fun w => cfLegal w && (decide (bits w 53 50 = 0) || decide (bits w 53 50 = 9)) && decide (bits w 49 48 ≤ 1) &&
      (decide (bits w 49 48 = 0) || decide (bits w 31 28 = 0)),
    regs := fun w => [.s (bits w 41 36), .s (bits w 47 42)], full := fun t _ => decide (16 ≤ t.xch.length),
    check := fun d p l w => decide (((d.lt p l).sreg (bits w 47 42)).toNat ≤ 65535) &&
      !((d.part p).compat && decide (bits w 53 50 = 9)),
    skip := skipOne, act := unitAct (linkAct fan takeEarly),
    needs := fun d p l w => let t := d.lt p l; [(locOf (t.areg (bits w 35 32))).h, (locOf (t.areg (bits w 27 24))).h] }
/-- XCHG.CABLE forms a cable link. -/
def execXchgCable (p : Fin 8) (l : Fin 32) (w : BitVec 128) (s : State) : Host.Outcome State Fault Refusal :=
  onDev (issue (opLink false) p l w) s
/-- XCHG.FAN forms a leaf of a fan. -/
def execXchgFan (p : Fin 8) (l : Fin 32) (w : BitVec 128) (s : State) : Host.Outcome State Fault Refusal :=
  onDev (issue (opLink true) p l w) s

end Sys2Proof.Machine
end

