-- ==== Sys2Proof/Machine/Move.lean ====
section
/-! DEFINITION. MOVE (R78 to R80): the stream engines' loads, stores, gathers and scatters, the window-mode descriptor
(R112, R113), gather leases (R224), and the selvedge check every access passes (R317). -/
namespace Sys2Proof.Machine

-- The selvedge (R317).

/-- A passage begins (R311, R312): mode PASSAGE, step 1, its cause; `force` stops running work items. It refuses tiles and
stacks any state but OFF (Table 13-3, SEC). -/
def beginPassage (d : Device) (inward force : Bool) (cause : Nat) : Device :=
  let d := (((d.wr fMode 1).wr fPassStep 1).wr fInward (if inward then 1 else 0)).wr fPassCause cause
  refuseDoms (({ d with passageForce := force } : Device).inc fPassages) ((List.range 64).filter (fun n => decide (d.rd (fTarget n) = 1)))
    Refuser.sec.num

/-- A request of partition `p` that meets a stack not its own is dropped: a FATAL record of source SEC, counted, and in
SERVICE an outward passage (R317, R374). -/
def selvedgeCrossing (d : Device) (p x : Nat) : Device :=
  let d := (addRecord d (({ mkRec 2 0x0C 1 x with action := 11, detail := p } : ERec).inPart d p)).inc fSelvedge
  if d.rd fMode = 2 then beginPassage d false true 4 else d

/-- A stack of a handle that is not assigned to the partition, if any. -/
def Device.foreignStack (d : Device) (p h : Nat) : Option Nat :=
  ((d.part p).stacksOf h).find? (fun x => decide (d.rd (fSAssigned x) = 0) || decide (d.rd (fSPart x) ≠ p))

-- Operations in a stream engine's queue.

/-- Queue of an engine. -/
def LTile.queue (t : LTile) (e : Nat) : List MoveOp := tget [] t.moves e
/-- Replace the queue of an engine. -/
def LTile.setQueue (t : LTile) (e : Nat) (q : List MoveOp) : LTile := { t with moves := tput e q t.moves }

/-- Operation `id` of a logical tile ends without completing: nothing waits for it any longer, nothing is posted. -/
def endOp (d : Device) (p l id : Nat) : Device := complete d p l id none

/-- Fields of Table 3-10. -/
def moveUsed : List (Nat × Nat) := [(65, 28), (26, 24), (22, 16)]
/-- Register values of a MOVE, read at issue (R65). -/
def moveOf (kind id : Nat) (t : LTile) (w : Nat) : MoveOp :=
  { id := id, kind := kind, lease := bits w 65 64, as := t.areg (bits w 35 32), ad := t.areg (bits w 31 28),
    ai := t.areg (bits w 39 36), len := (t.sreg (bits w 45 40)).toNat, rows := (t.sreg (bits w 51 46)).toNat,
    sstr := (t.sreg (bits w 57 52)).toNat, dstr := (t.sreg (bits w 63 58)).toNat, cf := cfOf w }
/-- Scalar registers a MOVE reads. -/
def moveRegs (kind w : Nat) : List RegRef :=
  if kind = 4 then []
  else [.s (bits w 45 40), .s (bits w 51 46)] ++ (if kind = 2 then [] else [.s (bits w 57 52)]) ++
    (if kind = 3 then [] else [.s (bits w 63 58)])
/-- Fields that must be 0 (Table 3-9), LEASE 3 reserved, completion field. -/
def moveLegal (kind w : Nat) : Bool :=
  cfLegal w &&
  (match kind with
   | 0 | 1 => decide (bits w 39 36 = 0) && decide (bits w 65 64 = 0)
   | 2 => decide (bits w 57 52 = 0) && decide (bits w 65 64 ≠ 3)
   | 3 => decide (bits w 63 58 = 0) && decide (bits w 65 64 = 0)
   | _ => decide (bits w 31 28 = 0) && decide (bits w 63 40 = 0) && decide (bits w 65 64 = 0))
/-- Issue checks of R79 and R80. -/
def moveCheck (kind : Nat) (t : LTile) (w : Nat) : Bool :=
  let m := moveOf kind 0 t w
  (decide (kind = 4) || decide (m.len % 64 = 0)) &&
  (decide (kind = 2) || decide (kind = 4) || decide (m.sstr % 64 = 0)) &&
  (decide (kind = 3) || decide (kind = 4) || decide (m.dstr % 64 = 0)) &&
  (match kind with
   | 0 => t.isSpad (bits w 31 28)
   | 1 => t.isSpad (bits w 35 32)
   | 2 => t.isSpad (bits w 31 28) && t.isSpad (bits w 39 36) && (decide (m.lease = 0) || !t.isSpad (bits w 35 32))
   | 3 => t.isSpad (bits w 35 32) && t.isSpad (bits w 39 36)
   | _ => t.isSpad (bits w 39 36))

-- The window-mode descriptor (Table 4-6).

/-- Numerator and denominator of the element width in bytes: half bytes over 2. -/
def elemSpan (fmt n : Nat) : Nat := n * halfBytes fmt / 2

/-- Checks of R112 and R113 on a descriptor's 64 bytes. -/
def winLegal (b : List Byte) : Bool :=
  let f (o n : Nat) := fld b o n
  let fmt := f 1 1
  let c := f 4 4
  let kdim (k s dl pd : Nat) : Bool := decide (1 ≤ k) && decide (k ≤ 7) && decide (1 ≤ s) && decide (s ≤ 4) &&
    decide (1 ≤ dl) && decide (dl ≤ 4) && decide (pd ≤ (k - 1) * dl)
  decide (1 ≤ f 0 1) && decide (f 0 1 ≤ 3) && decide (1 ≤ fmt) && decide (fmt ≤ 8) && decide (f 2 1 ≤ 3) &&
  bszLegal fmt (f 2 1) && decide (f 3 1 ≤ 1) && decide (1 ≤ c) && decide (c ≤ 65536) && decide (c % chunkOf fmt = 0) &&
  (!scaled fmt || decide (c % blockOf (f 2 1) = 0)) &&
  decide (1 ≤ f 8 2) && decide (1 ≤ f 10 2) && decide (1 ≤ f 12 2) && zeros b 14 2 &&
  kdim (f 0x10 1) (f 0x14 1) (f 0x18 1) (f 0x1C 1) && kdim (f 0x11 1) (f 0x15 1) (f 0x19 1) (f 0x1D 1) &&
  kdim (f 0x12 1) (f 0x16 1) (f 0x1A 1) (f 0x1E 1) && zeros b 0x13 1 && zeros b 0x17 1 && zeros b 0x1B 1 &&
  zeros b 0x1F 1 && decide (1 ≤ f 0x20 2) && decide (1 ≤ f 0x22 2) && decide (1 ≤ f 0x24 2) && zeros b 0x26 2 &&
  decide (f 0x28 4 % 32 = 0) && decide (elemSpan fmt (f 8 2 * c) ≤ f 0x28 4) &&
  decide (f 0x2C 4 % 32 = 0) && decide (f 10 2 * f 0x28 4 ≤ f 0x2C 4) &&
  decide (f 0x30 4 % 64 = 0) && (scaled fmt || decide (f 0x30 4 = 0)) && decide (f 0x38 4 % 32 = 0) && zeros b 0x3C 4

/-- Is a grouped walk running on the logical tile? -/
def Part.walking (P : Part) (l : Nat) : Bool := P.walks.any (fun w => w.started && bit w.mask l && !w.done.contains l)
/-- A running walk uses engines 6 and 7 of its tiles: MOVEs naming them wait in their queues (R119). -/
def Part.engineHeld (P : Part) (l e : Nat) : Bool := decide (6 ≤ e) && P.walking l

/-- An engine whose next operation is a MOVE.WIN reads the descriptor and is armed (R80), or the MOVE.WIN faults
(R113); an engine that a walk uses is not armed until the walk is over (R119). -/
def armEngine (d : Device) (p l e : Nat) : Device :=
  let t := d.lt p l
  match t.queue e, tget none t.armed e with
  | m :: q, none =>
    if m.kind ≠ 4 || (d.part p).engineHeld l e then d
    else
      let x := locOf m.ai
      match d.readFault p x 64 with
      | some c => tileFault (endOp (d.setLt p l (t.setQueue e q)) p l m.id) p l c
      | none =>
        let d := d.touch p l x 64
        if winLegal (d.readAt p l x 64) then
          d.modLt p l (fun t => { t with armed := tput e (some { id := m.id, as := m.as, ai := m.ai, used := false }) t.armed })
        else tileFault (endOp (d.setLt p l (t.setQueue e q)) p l m.id) p l .illegalInstr
  | _, _ => d

/-- A MOVE enters its engine's queue; an idle engine is armed at once by a MOVE.WIN. -/
def moveAct (kind id p l w : Nat) (d : Device) : Device :=
  let t := d.lt p l
  let e := bits w 26 24
  armEngine (d.setLt p l (t.setQueue e (t.queue e ++ [moveOf kind id t w]))) p l e

/-- A MOVE opcode (Table 3-9). -/
def opMove (kind : Nat) : Op :=
  { cls := 2, opc := kind, used := moveUsed, legal := moveLegal kind, regs := moveRegs kind,
    full := fun t w => decide (16 ≤ (t.queue (bits w 26 24)).length),
    check := fun d p l w => moveCheck kind (d.lt p l) w, skip := skipOne, act := unitAct (moveAct kind) }

/-- MOVE.LD enters its engine's queue. -/
def execMoveLd (p : Fin 8) (l : Fin 32) (w : BitVec 128) (s : State) : Host.Outcome State Fault Refusal :=
  onDev (issue (opMove 0) p l w) s
/-- MOVE.ST enters its engine's queue. -/
def execMoveSt (p : Fin 8) (l : Fin 32) (w : BitVec 128) (s : State) : Host.Outcome State Fault Refusal :=
  onDev (issue (opMove 1) p l w) s
/-- MOVE.GATHER enters its engine's queue. -/
def execMoveGather (p : Fin 8) (l : Fin 32) (w : BitVec 128) (s : State) : Host.Outcome State Fault Refusal :=
  onDev (issue (opMove 2) p l w) s
/-- MOVE.SCATTER enters its engine's queue. -/
def execMoveScatter (p : Fin 8) (l : Fin 32) (w : BitVec 128) (s : State) : Host.Outcome State Fault Refusal :=
  onDev (issue (opMove 3) p l w) s
/-- MOVE.WIN enters its engine's queue and arms the engine when it is its turn. -/
def execMoveWin (p : Fin 8) (l : Fin 32) (w : BitVec 128) (s : State) : Host.Outcome State Fault Refusal :=
  onDev (issue (opMove 4) p l w) s

-- Gather leases (R224).

/-- Is the entry keyed by this shard and logical tile of this partition? -/
def leaseKey (p l h : Nat) (e : Lease) : Bool := decide (e.part = p) && decide (e.lt = l) && decide (e.shard = h)

/-- UPD_LEASE.OPEN follows the table. -/
def leaseCount (d : Device) (p : Nat) : Device :=
  d.wr (fLeaseOpen p) ((d.leases.filter (fun e => decide (e.part = p))).length)

/-- GEN of a shard, from its header (Table 8-1). -/
def Device.shardGen (d : Device) (p h : Nat) : Nat := fld (d.hRead p h 0x40 4) 0 4
/-- Is a shard's STATE TORN? -/
def Device.shardTorn (d : Device) (p h : Nat) : Bool := decide (fld (d.hRead p h 0x54 1) 0 1 = 1)

/-- LEASE 1 of R224: the cause it faults with, or the device with the lease opened or counted. -/
def leaseOpen (d : Device) (p l h : Nat) : Except Cause Device :=
  let gen := d.shardGen p h
  match d.leases.find? (leaseKey p l h) with
  | none =>
    if d.leases.length = 4096 then .error .illegalInstr
    else .ok (leaseCount { d with leases := d.leases ++
      [{ shard := h, gen := gen, step := (d.part p).step, lt := l, part := p, count := 1 }] } p)
  | some e =>
    if e.gen ≠ gen then .error .stale
    else if e.count = 65535 then .error .illegalInstr
    else .ok { d with leases := replaceFirst (leaseKey p l h) (fun e => { e with count := e.count + 1 }) d.leases }

/-- LEASE 2 of R224: the device with the lease counted down, and whether it faults STALE. -/
def leaseClose (d : Device) (p l h : Nat) : Device × Bool :=
  match d.leases.find? (leaseKey p l h) with
  | none => (d, true)
  | some e =>
    let ls := if e.count = 1 then dropFirst (leaseKey p l h) d.leases
      else replaceFirst (leaseKey p l h) (fun e => { e with count := e.count - 1 }) d.leases
    (leaseCount { d with leases := ls } p, decide (e.gen ≠ d.shardGen p h))

/-- A lease action of a gather on a source handle: a handle without ACCESS.PARAM faults ILLEGAL_INSTR (R80), a TORN
shard TORN (R220), a mismatch STALE, which is counted. -/
def leaseAct (d : Device) (p l lease h : Nat) : Device × Option Cause :=
  if lease = 0 then (d, none)
  else match (d.part p).entry h with
    | none => (d, some .bounds)
    | some e =>
      if !bit e.access 3 then (d, some .illegalInstr)
      else if d.shardTorn p h then (d, some .torn)
      else if lease = 1 then
        match leaseOpen d p l h with
        | .ok d => (d, none)
        | .error .stale => (d.inc fStale, some .stale)
        | .error c => (d, some c)
      else
        let r := leaseClose d p l h
        if r.2 then (r.1.inc fStale, some .stale) else (r.1, none)

-- Data movement.

/-- Location of row `r` of the source, given its index entry. -/
def MoveOp.src (m : MoveOp) (r idx : Nat) : Loc := (locOf m.as).plus (if m.kind = 2 then idx * m.len else r * m.sstr)
/-- Location of row `r` of the destination. -/
def MoveOp.dst (m : MoveOp) (r idx : Nat) : Loc := (locOf m.ad).plus (if m.kind = 3 then idx * m.len else r * m.dstr)
/-- Does the operation use an index list? -/
def MoveOp.indexed (m : MoveOp) : Bool := decide (m.kind = 2) || decide (m.kind = 3)

/-- One row of a MOVE (R78, R79), or the cause it faults with. -/
def moveRow (p l : Nat) (m : MoveOp) (r : Nat) (d : Device) : Except Cause Device :=
  let x := (locOf m.ai).plus (4 * r)
  match (if m.indexed then d.readFault p x 4 else none) with
  | some c => .error c
  | none =>
    let d := if m.indexed then d.touch p l x 4 else d
    let idx := if m.indexed then fld (d.readAt p l x 4) 0 4 else 0
    match d.readFault p (m.src r idx) m.len with
    | some c => .error c
    | none =>
      match d.writeFault p (m.dst r idx) m.len with
      | some c => .error c
      | none =>
        let d := d.touch p l (m.src r idx) m.len
        let bs := d.readAt p l (m.src r idx) m.len
        let d := d.writeAt p l (m.dst r idx) bs
        .ok (d.touch p l (m.dst r idx) m.len)

/-- Rows in ascending order; a fault stops the operation, rows written stay written (R79, R93). -/
def moveRows (p l : Nat) (m : MoveOp) : Nat → Nat → Device → Device × Option Cause
  | 0, _, d => (d, none)
  | n + 1, r, d =>
    match moveRow p l m r d with
    | .error c => (d, some c)
    | .ok d => moveRows p l m n (r + 1) d

/-- Writes in order until one faults; what is written stays written (R93). A write that addresses the partial-sum region
while it holds groups leaves it open (R106). -/
def writeParts (p l : Nat) : List (Loc × List Byte) → Device → Device × Option Cause
  | [], d => (d, none)
  | (x, bs) :: t, d =>
    match d.writeFault p x bs.length with
    | some c => (d, some c)
    | none => writeParts p l t ((d.writeAt p l x bs).touch p l x bs.length)

/-- Handles a MOVE accesses. -/
def MoveOp.handles (m : MoveOp) : List Nat := [(locOf m.as).h, (locOf m.ad).h]

/-- The head operation of an engine finishes: rows, lease action, completion post (R66, R79, R224); a fault ends it
without a post. -/
def moveFinish (p l e : Nat) (m : MoveOp) (d : Device) : Device :=
  let d := d.modLt p l (fun t => t.setQueue e ((t.queue e).drop 1))
  let a := leaseAct d p l m.lease (locOf m.as).h
  let r := match a.2 with
    | some c => (a.1, some c)
    | none => if m.len = 0 then (a.1, none) else moveRows p l m m.rows 0 a.1
  let d := match r.2 with
    | some c => tileFault (endOp r.1 p l m.id) p l c
    | none => complete r.1 p l m.id m.cf
  armEngine d p l e

/-- The head operation of an engine finishes, with what the tile's checks found (R367); one with an error that cannot be corrected ends
as one that faults does. -/
def moveEnd (p l e : Nat) (m : MoveOp) (found : TileFind) (d : Device) : Device :=
  let d := tileFound d p l 0 found
  if findUe found then armEngine (endOp (d.modLt p l (fun t => t.setQueue e ((t.queue e).drop 1))) p l m.id) p l e
  else moveFinish p l e m d

/-- MOVE_COMPLETE on engine `e`: nothing while a walk holds the engine, the tile is out of service, a shard it reads is being updated, or a
stack it needs is not ON; a MOVE.WIN completes once its stream is consumed (R80). `ue`: what its read of a handle meets (R267). -/
def moveComplete (p l e : Nat) (ue : Nat → Device → Device) (found : TileFind) (d : Device) : Device :=
  let t := d.lt p l
  match (if (d.hostOf p l).any d.tileOut then [] else t.queue e) with
  | [] => d
  | m :: _ =>
    if (d.part p).engineHeld l e then d
    else if m.kind = 4 then
      match tget none t.armed e with
      | some w =>
        if w.used then
          armEngine (complete (d.setLt p l { (t.setQueue e ((t.queue e).drop 1)) with armed := tput e none t.armed })
            p l m.id m.cf) p l e
        else d
      | none => d
    else match m.handles.findSome? (fun h => d.foreignStack p h) with
      | some x => selvedgeCrossing (endOp (d.modLt p l (fun t => t.setQueue e ((t.queue e).drop 1))) p l m.id) p x
      | none => whenRead d p [(locOf m.as).h] [(locOf m.ad).h] 4 (fun d => moveEnd p l e m found (ue (locOf m.as).h d))

end Sys2Proof.Machine
end

