-- ==== Sys2Proof/Machine/Skein.lean ====
section
/-! DEFINITION. Token exchange (R179 to R195): sending skeins, the receive plan and how rows land, tags and their checks,
returns, VOID, and completion. -/
namespace Sys2Proof.Machine

-- Addresses of descriptors (R180) and row sizes (R181).

/-- A field that names the scratchpad with a bit of [31:25] set. -/
def fieldBad (a : Nat) : Bool := decide (a / 2 ^ 32 = 0) && decide (2 ^ 25 ≤ a)
/-- Location of an 8-byte address field. -/
def fieldLoc (a : Nat) : Loc := locOf (BitVec.ofNat 64 a)
/-- Bytes of a scale block, w × B. -/
def blockBytes (fmt bsz : Nat) : Nat := elemBytes fmt (blockOf bsz)
/-- Scale bytes of a row. -/
def rowScales (fmt bsz db : Nat) : Nat := if scaled fmt then db / blockBytes fmt bsz else 0
/-- REC of R183. -/
def recBytes (fmt bsz db : Nat) : Nat := 8 + db + rowScales fmt bsz db
/-- Range of DATA_BYTES, and of FMT and BSZ beside it (Tables 7-10, 7-11). -/
def rowLegal (fmt bsz db top : Nat) : Bool :=
  decide (fmt ≤ top) && (if scaled fmt then decide (bsz ≤ 3) && decide (db % blockBytes fmt bsz = 0) else decide (bsz = 0)) &&
  decide (db % 64 = 0) && decide (64 ≤ db) && decide (db ≤ 65536)

-- Tags (R179).

/-- A tag with its CHECK for an exchange and step. -/
def sealTag (tag exch step : Nat) : Nat := tag % 2 ^ 48 + tagCheck tag exch step * 2 ^ 48
/-- A dispatched row's tag from the sorted one. -/
def dispatchTag (t slot dev mode exch step : Nat) : Nat :=
  sealTag (bits t 45 16 * 2 ^ 16 + slot * 2 ^ 12 + dev + mode * 2 ^ 46) exch step
/-- A returned row's tag from the landed one: FLAGS is the MODE. -/
def returnTag (t mode exch step : Nat) : Nat := sealTag (t % 2 ^ 46 + mode * 2 ^ 46) exch step
/-- Does a tag carry the right CHECK and FLAGS? -/
def tagOk (t mode exch step : Nat) : Bool := decide (bits t 63 48 = tagCheck t exch step) && decide (bits t 47 46 = mode)

-- Sending.

/-- A row to send: its tag, its data and its scales. -/
structure SRow where
  tag : Nat
  data : Loc
  scale : Loc
  deriving DecidableEq, Repr

/-- A skein to send: destination and rows. -/
structure OutSkein where
  dev : Nat
  rows : List SRow
  deriving DecidableEq, Repr

/-- Runs of ascending experts: expert and rows (R183). -/
def runsOf : List SRow → List (Nat × Nat)
  | [] => []
  | r :: t => match runsOf t with
    | (e, n) :: u => if bits r.tag 45 34 = e then (e, n + 1) :: u else (bits r.tag 45 34, 1) :: (e, n) :: u
    | [] => [(bits r.tag 45 34, 1)]

/-- A skein message (Table 7-13). -/
def skeinMsg (p mode exch step src dst rows off fmt bsz db : Nat) (payload : List Byte) : SkeinMsg :=
  { part := Fin.ofNat 8 p, mode := BitVec.ofNat 8 mode, exch := BitVec.ofNat 16 exch, step := BitVec.ofNat 32 step,
    src := BitVec.ofNat 12 src, dst := BitVec.ofNat 12 dst, rows := BitVec.ofNat 32 rows, offset := BitVec.ofNat 64 off,
    fmt := BitVec.ofNat 8 fmt, bsz := BitVec.ofNat 8 bsz, dataBytes := BitVec.ofNat 32 db, payload := payload }

/-- Cut a record stream into ROWS payloads with their offsets. The first argument bounds them. -/
def cutStream : Nat → Nat → List Byte → List (Nat × List Byte)
  | 0, _, _ => []
  | n + 1, o, bs => if bs = [] then [] else (o, bs.take 8160) :: cutStream n (o + 8160) (bs.drop 8160)

/-- Record stream of a skein's rows up to the first row that faults. What stands before that is no remainder, and leaves in whole messages
only (R183). -/
def streamOf (d : Device) (p l fmt bsz db : Nat) : List SRow → List Byte × Option Cause
  | [] => ([], none)
  | r :: t =>
    let sb := rowScales fmt bsz db
    match d.readFault p r.data db with
    | some c => ([], some c)
    | none => match (if sb = 0 then none else d.readFault p r.scale sb) with
      | some c => ([], some c)
      | none =>
        let u := streamOf d p l fmt bsz db t
        (toLe 8 r.tag ++ d.readAt p l r.data db ++ (if sb = 0 then [] else d.readAt p l r.scale sb) ++ u.1, u.2)

/-- HEADs to every destination, then ROWS (R185). -/
def sendSkeins (p l mode exch fmt bsz db : Nat) (ss : List OutSkein) (d : Device) : Device × Option Cause :=
  let P := d.part p
  let msg (s : OutSkein) (off : Nat) (b : List Byte) : SkeinMsg :=
    skeinMsg p mode exch P.step P.devId s.dev s.rows.length off fmt bsz db b
  let d := ss.foldl (fun d s => sendPeer d p s.dev (.skein 0x11
    (msg s 0 ((runsOf s.rows).flatMap (fun r => toLe 4 (r.1 + r.2 * 4096)))))) d
  ss.foldl (fun (r : Device × Option Cause) s =>
    match r.2 with
    | some _ => r
    | none =>
      let b := streamOf r.1 p l fmt bsz db s.rows
      let cs := (cutStream (b.1.length / 8160 + 1) 0 b.1).filter (fun x => b.2.isNone || decide (x.2.length = 8160))
      (cs.foldl (fun d x => sendPeer d p s.dev (.skein 0x12 (msg s x.1 x.2))) r.1, b.2))
    (d, none)

/-- The send header at a location (Table 7-10), or a cause. -/
def readSendHeader (d : Device) (p l : Nat) (x : Loc) : Except Cause (List Byte) :=
  match d.readFault p x 64 with
  | some c => .error c
  | none =>
    let b := d.readAt p l x 64
    let f (o n : Nat) := fld b o n
    if rowLegal (f 0 1) (f 1 1) (f 4 4) 8 && decide (f 2 1 ≤ 15) && zeros b 3 1 && zeros b 0x28 24 && !fieldBad (f 8 8) &&
       !fieldBad (f 0x10 8) && !fieldBad (f 0x18 8) && !fieldBad (f 0x20 8) && (scaled (f 0 1) || decide (f 0x18 8 = 0))
    then .ok b else .error .illegalInstr

/-- Skein headers: destination, first row, rows (Table 7-8). -/
def readSkeins (d : Device) (p l : Nat) (b : List Byte) (n : Nat) : Except Cause (List (Nat × Nat × Nat)) :=
  let x := fieldLoc (fld b 8 8)
  match d.readFault p x (16 * n) with
  | some c => .error c
  | none =>
    let h := d.readAt p l x (16 * n)
    let ss := (List.range n).map (fun i => (fld h (16 * i) 2, fld h (16 * i + 4) 4, fld h (16 * i + 8) 4))
    if (List.range n).all (fun i => zeros h (16 * i + 2) 2 && zeros h (16 * i + 12) 4) && ascending (ss.map (·.1)) &&
       ss.all (fun s => decide (s.1 < (d.part p).devCount)) then .ok ss else .error .illegalInstr

/-- Are numbers ascending, equal ones allowed? -/
def rising : List Nat → Bool
  | [] => true
  | [_] => true
  | a :: b :: t => decide (a ≤ b) && rising (b :: t)

/-- The skeins a DISPATCH or BWD_DISPATCH sends (R181). -/
def dispatchSkeins (d : Device) (p l mode exch : Nat) (b : List Byte) (ss : List (Nat × Nat × Nat)) :
    Except Cause (List OutSkein) :=
  let P := d.part p
  let f (o n : Nat) := fld b o n
  let db := f 4 4
  let sb := rowScales (f 0 1) (f 1 1) db
  let tags := fieldLoc (f 0x20 8)
  match ss.findSome? (fun s => if s.2.2 = 0 then none else d.readFault p (tags.plus (8 * s.2.1)) (8 * s.2.2)) with
  | some c => .error c
  | none =>
    let out := ss.map (fun s => ({ dev := s.1, rows := (List.range s.2.2).map (fun r =>
      let i := s.2.1 + r
      { tag := dispatchTag (fld (d.readAt p l (tags.plus (8 * i)) 8) 0 8) (f 2 1) P.devId mode exch P.step,
        data := (fieldLoc (f 0x10 8)).plus (i * db), scale := (fieldLoc (f 0x18 8)).plus (i * sb) }) } : OutSkein))
    if out.all (fun s => rising (s.rows.map (fun r => bits r.tag 45 34))) then .ok out else .error .illegalInstr

/-- ΣROW_CAP of the entries before `i`. -/
def capBefore (ents : List Byte) (i : Nat) : Nat := ((List.range i).map (fun k => fld ents (32 * k + 4) 4)).sum

/-- Does an output map break the checks of R187? -/
def mapBad (b : List Byte) : Bool :=
  !rowLegal (fld b 8 1) 0 (fld b 0xC 4) 2 || !zeros b 9 3 || !zeros b 0x10 48 || fieldBad (fld b 0 8)
/-- The skeins a RETURN or BWD_RETURN sends (R187): `n` is S1. -/
def returnSkeins (d : Device) (p l mode exch n : Nat) (x : Loc) : Except Cause (List OutSkein × Nat × Nat) :=
  match d.readFault p x 64 with
  | some c => .error c
  | none =>
    let b := d.readAt p l x 64
    let db := fld b 0xC 4
    let y := fieldLoc (fld b 0 8)
    if mapBad b then .error .illegalInstr
    else match d.readFault p y 64 with
      | some c => .error c
      | none =>
        let h := d.readAt p l y 64
        let ns := fld h 4 2
        let ne := fld h 6 2
        if ns ≠ n || fieldBad (fld h 0x20 8) then .error .illegalInstr
        else match d.readFault p y (64 + 32 * ne + 4 * ne * ns), d.readFault p (x.plus 64) (8 * ne),
                   d.readFault p (fieldLoc (fld h 0x20 8)) (2 * ns) with
          | none, none, none =>
            let ents := d.readAt p l (y.plus 64) (32 * ne)
            let land := d.readAt p l (y.plus (64 + 32 * ne)) (4 * ne * ns)
            let outs := d.readAt p l (x.plus 64) (8 * ne)
            let srcs := d.readAt p l (fieldLoc (fld h 0x20 8)) (2 * ns)
            let runs (i j : Nat) : Nat := fld land (4 * (i * ns + j)) 4
            let tags := fieldLoc (fld h 0x10 8)
            let tagAt (k : Nat) : Nat := fld (d.readAt p l (tags.plus (8 * k)) 8) 0 8
            let out := (List.range ns).map (fun j => ({ dev := fld srcs (2 * j) 2, rows := (List.range ne).flatMap (fun i =>
              let start := ((List.range j).map (runs i)).sum
              (List.range (runs i j)).map (fun r =>
                { tag := returnTag (tagAt (capBefore ents i + start + r)) mode exch (d.part p).step,
                  data := (fieldLoc (fld outs (8 * i) 8)).plus ((start + r) * db), scale := fieldLoc 0 })) } : OutSkein))
            if (List.range ne).any (fun i => fieldBad (fld outs (8 * i) 8)) || fieldBad (fld h 0x10 8) then .error .illegalInstr
            else match (List.range ne).findSome? (fun i =>
                let m := ((List.range ns).map (runs i)).sum
                if m = 0 then none else d.readFault p (tags.plus (8 * capBefore ents i)) (8 * m)) with
              | some c => .error c
              | none => .ok (out, fld b 8 1, db)
          | some c, _, _ => .error c
          | _, some c, _ => .error c
          | _, _, some c => .error c

-- The receive plan (R182).

/-- Does a plan header pass R182 for the instruction's MODE? -/
def planLegal (b : List Byte) (mode : Nat) : Bool :=
  let f (o n : Nat) := fld b o n
  let fwd := decide (mode % 2 = 0)
  let fill := decide (f 3 1 = 1)
  let addr (o : Nat) (used : Bool) : Bool := if used then !fieldBad (f o 8) else decide (f o 8 = 0)
  decide (f 0 1 = mode) && rowLegal (f 1 1) (f 2 1) (f 8 4) (if fwd then 8 else 2) && decide (f 3 1 ≤ 1) && (fwd || !fill) &&
  decide (f 4 2 ≤ 4096) && decide (f 6 2 ≤ (if fwd then 1024 else 0)) && addr 0x10 fwd && addr 0x18 fill && addr 0x20 fwd &&
  addr 0x28 (!fwd) && addr 0x30 (!fwd) && zeros b 0x38 8

/-- Do the instance entries pass R182 and Table 7-12? -/
def entsLegal (e : List Byte) (n fmt : Nat) : Bool :=
  ascending ((List.range n).map (fun i => fld e (32 * i) 2)) &&
  (List.range n).all (fun i =>
    decide (fld e (32 * i) 2 < 4096) && decide (fld e (32 * i + 2) 2 < 1024) && decide (fld e (32 * i + 4) 4 ≤ 524287) &&
    !fieldBad (fld e (32 * i + 8) 8) && (if scaled fmt then !fieldBad (fld e (32 * i + 16) 8) else decide (fld e (32 * i + 16) 8 = 0)))

/-- Read a plan: header, instance entries, sources, and for a RETURN the matching send list (R182, R188). -/
def readPlan (d : Device) (p l mode : Nat) (at_ : Word) (blank : Exch) : Except Cause Exch :=
  let x := locOf at_
  match d.readFault p x 64 with
  | some c => .error c
  | none =>
    let b := d.readAt p l x 64
    let ns := fld b 4 2
    let ne := fld b 6 2
    if !planLegal b mode then .error .illegalInstr
    else
      let src (v : Nat) : SrcIn := { dev := v, runs := none, pieces := [], landed := false, void := false }
      if mode % 2 = 0 then
        match d.readFault p x (64 + 32 * ne + 4 * ne * ns), d.readFault p (fieldLoc (fld b 0x20 8)) (2 * ns) with
        | none, none =>
          let e := d.readAt p l (x.plus 64) (32 * ne)
          let ds := wordsOf 2 ns (d.readAt p l (fieldLoc (fld b 0x20 8)) (2 * ns))
          if entsLegal e ne (fld b 1 1) && ascending ds && ds.all (fun v => decide (v < (d.part p).devCount)) then
            .ok { blank with plan := b, ents := e, planAt := at_, srcs := ds.map src }
          else .error .illegalInstr
        | some c, _ => .error c
        | _, some c => .error c
      else
        match readSendHeader d p l (fieldLoc (fld b 0x30 8)) with
        | .error c => .error c
        | .ok h =>
          match readSkeins d p l h ns with
          | .error c => .error c
          | .ok ss => .ok { blank with plan := b, planAt := at_, srcs := ss.map (fun s => src s.1), slist := ss,
                                       tagsAt := BitVec.ofNat 64 (fld h 0x20 8), slot := fld h 2 1 }

-- Landing (R184, R188, R191).

/-- FMT, BSZ and DATA_BYTES of an exchange's plan. -/
def Exch.fmt (x : Exch) : Nat := fld x.plan 1 1
/-- BSZ -/
def Exch.bsz (x : Exch) : Nat := fld x.plan 2 1
/-- DATA_BYTES -/
def Exch.db (x : Exch) : Nat := fld x.plan 8 4
/-- NENT -/
def Exch.nent (x : Exch) : Nat := fld x.plan 6 2
/-- EXPERT of entry `i`. -/
def Exch.expert (x : Exch) (i : Nat) : Nat := fld x.ents (32 * i) 2
/-- ROW_CAP of entry `i`. -/
def Exch.cap (x : Exch) (i : Nat) : Nat := fld x.ents (32 * i + 4) 4
/-- Rows that a source's HEAD gives for an expert. -/
def SrcIn.run (s : SrcIn) (e : Nat) : Nat := ((s.runs.getD []).filter (fun r => decide (r.1 = e))).map (·.2) |>.sum
/-- Total rows of a source. -/
def SrcIn.total (s : SrcIn) : Nat := ((s.runs.getD []).map (·.2)).sum
/-- Rows that lower sources land for entry `i` (start of R184). -/
def Exch.start (x : Exch) (i dev : Nat) : Nat :=
  ((x.srcs.filter (fun s => decide (s.dev < dev))).map (fun s => s.run (x.expert i))).sum
/-- Rows landed for entry `i`. -/
def Exch.landed (x : Exch) (i : Nat) : Nat := (x.srcs.map (fun s => s.run (x.expert i))).sum

/-- The exchange of an operation. -/
def Part.exchOf (P : Part) (l op : Nat) : Option Exch := P.exchs.find? (fun x => decide (x.lt = l) && decide (x.op = op))
/-- Change an exchange. -/
def modExch (d : Device) (p l op : Nat) (f : Exch → Exch) : Device :=
  d.modPart p (fun P => { P with exchs := replaceFirst (fun x => decide (x.lt = l) && decide (x.op = op)) f P.exchs })
/-- Change a source of an exchange. -/
def Exch.modSrc (x : Exch) (dev : Nat) (f : SrcIn → SrcIn) : Exch :=
  { x with srcs := replaceFirst (fun s => decide (s.dev = dev)) f x.srcs }

/-- A tag or row count fails: a UE of an exchange engine, contained to the work item (R179, R369). Which I/O die's
engine lands the rows is the device's own: a free value. -/
def skeinUe (d : Device) (p : Nat) (x : Exch) (kind : Nat) : Device :=
  ueFault { d with free := d.free + 1 } p [x.lt] { mkRec 1 0x0A kind (Config.freeNat d.free % 2) with detail := x.exch }

/-- Place row `r` of the stream of source `dev`: entry and landed row of a DISPATCH (R184). -/
def Exch.placeOf (x : Exch) (s : SrcIn) (r : Nat) : Option (Nat × Nat) :=
  ((List.range x.nent).foldl (fun (st : Nat × Option (Nat × Nat)) i =>
    let n := s.run (x.expert i)
    match st.2 with
    | some _ => st
    | none => if r < st.1 + n then (st.1 + n, some (i, x.start i s.dev + (r - st.1))) else (st.1 + n, none)) (0, none)).2

/-- Where one record lands, and whether its tag is right: data, scales, tag place (none: not written); `reads`: where the tag stands that it
is compared with; `fault`: that cannot be read (R180). -/
structure Landing where
  data : Loc
  scale : Loc
  tagAt : Option Loc
  reads : Option Loc
  fault : Option Cause
  ok : Bool
  room : Bool
  deriving DecidableEq, Repr

/-- Landing of row `r` of a source with tag `t`. -/
def Exch.landing (x : Exch) (d : Device) (p : Nat) (s : SrcIn) (r t : Nat) : Landing :=
  let f (o n : Nat) := fld x.plan o n
  let good := tagOk t x.mode x.exch x.step
  if x.mode % 2 = 0 then
    let c := (x.placeOf s r).getD (0, 0)
    let tl := (fieldLoc (f 0x10 8)).plus (8 * (capBefore x.ents c.1 + c.2))
    let fwd := fld (d.readAt p x.lt tl 8) 0 8
    let room := decide (c.2 < x.cap c.1)
    { data := (fieldLoc (fld x.ents (32 * c.1 + 8) 8)).plus (c.2 * x.db),
      scale := (fieldLoc (fld x.ents (32 * c.1 + 16) 8)).plus (c.2 * rowScales x.fmt x.bsz x.db),
      tagAt := if x.mode = 0 then some tl else none, reads := if x.mode = 2 && room then some tl else none,
      fault := if x.mode = 2 && room then d.readFault p tl 8 else none,
      ok := good && decide (bits t 45 34 = x.expert c.1) &&
        (if x.mode = 0 then decide (bits t 11 0 = s.dev) else !room || decide (t % 2 ^ 46 = fwd % 2 ^ 46)),
      room := room }
  else
    let h := (x.slist.find? (fun h => decide (h.1 = s.dev))).getD (0, 0, 0)
    let i := h.2.1 + r
    let tl := (fieldLoc x.tagsAt.toNat).plus (8 * i)
    let mine := fld (d.readAt p x.lt tl 8) 0 8
    { data := (fieldLoc (f 0x28 8)).plus (i * x.db), scale := fieldLoc 0, tagAt := none, reads := some tl, fault := d.readFault p tl 8,
      ok := good && decide (bits t 45 16 = bits mine 45 16) && decide (bits t 15 12 = x.slot) &&
        decide (bits t 11 0 = (d.part p).devId),
      room := true }

/-- One record lands, or faults. A row whose tag fails is not written. -/
def landRow (p : Nat) (x : Exch) (s : SrcIn) (b : List Byte) (r : Nat) (d : Device) : Device :=
  let n := recBytes x.fmt x.bsz x.db
  let rec_ := (b.drop (r * n)).take n
  let t := fld rec_ 0 8
  let d := d.touchAll p x.lt ((x.landing d p s r t).reads.map (·, 8)).toList
  let g := x.landing d p s r t
  if g.fault.isSome then tileFault d p x.lt (g.fault.getD .bounds)
  else if !g.ok then skeinUe (tileCount d p x.lt fTagFaults) p x 1
  else if !g.room then tileFault d p x.lt .illegalInstr
  else
    let sb := rowScales x.fmt x.bsz x.db
    let w := writeParts p x.lt ([(g.data, (rec_.drop 8).take x.db)] ++
      (if sb = 0 then [] else [(g.scale, rec_.drop (8 + x.db))]) ++
      (match g.tagAt with
       | some y => [(y, toLe 8 t)]
       | none => [])) d
    match w.2 with
    | some c => tileFault w.1 p x.lt c
    | none => w.1

/-- Bytes of a source's stream put in place by OFFSET. -/
def SrcIn.stream (s : SrcIn) : List Byte :=
  let m := s.pieces.foldl (fun m x => mwrite m x.1 x.2) []
  mread m 0 ((s.pieces.map (fun x => x.1 + x.2.length)).foldl max 0)

/-- Are the HEADs of a source and of every lower source held (R185)? -/
def Exch.headsTo (x : Exch) (dev : Nat) : Bool := x.srcs.all (fun s => decide (dev < s.dev) || s.runs.isSome)

/-- Handles that landing rows read and write (R184, R188). -/
def Exch.handles (x : Exch) : List Nat :=
  if x.mode % 2 = 0 then
    fld x.plan 0x14 4 :: (List.range x.nent).flatMap (fun i => [fld x.ents (32 * i + 12) 4, fld x.ents (32 * i + 20) 4])
  else [fld x.plan 0x2C 4, (fieldLoc x.tagsAt.toNat).h]

/-- A source whose stream is complete lands, once what it lands in serves (R346). -/
def landSource (p l op dev : Nat) (d : Device) : Device :=
  match (d.part p).exchOf l op with
  | none => d
  | some x =>
    match x.srcs.find? (fun s => decide (s.dev = dev)) with
    | none => d
    | some s =>
      let n := s.total * recBytes x.fmt x.bsz x.db
      let have_ := (s.pieces.map (fun y => y.2.length)).sum
      if s.landed || !x.headsTo dev || decide (have_ < n) then d
      else if !d.readable p x.handles && s.total ≠ 0 then wakeAll d p x.handles 4
      else
        let b := s.stream
        modExch ((List.range s.total).foldl (fun d r => landRow p x s b r d) d) p l op
          (fun x => x.modSrc dev (fun s => { s with landed := true, pieces := [] }))

/-- Every source that is complete lands, in ascending device. -/
def landAll (p l op : Nat) (d : Device) : Device :=
  match (d.part p).exchOf l op with
  | none => d
  | some x => x.srcs.foldl (fun d s => landSource p l op s.dev d) d

/-- The exchange a skein message is for. -/
def Part.exchFor (P : Part) (m : SkeinMsg) : Option Exch :=
  let hit := fun (x : Exch) => decide (x.exch = m.exch.toNat) && decide (x.step = m.step.toNat)
  match P.exchs.find? (fun x => hit x && decide (x.mode = m.mode.toNat)) with
  | some x => some x
  | none => P.exchs.find? hit

/-- Do a message's MODE, FMT, BSZ and DATA_BYTES agree with the plan (Table 7-14)? -/
def Exch.agrees (x : Exch) (m : SkeinMsg) : Bool :=
  decide (m.mode.toNat = x.mode) && decide (m.fmt.toNat = x.fmt) && decide (m.bsz.toNat = x.bsz) && decide (m.dataBytes.toNat = x.db)

/-- A HEAD for an exchange (R183, R194). -/
def headArrive (p : Nat) (x : Exch) (m : SkeinMsg) (d : Device) : Device :=
  let dev := m.src.toNat
  let runs := (wordsOf 4 (m.payload.length / 4) m.payload).map (fun e => (bits e 11 0, bits e 29 12))
  match x.srcs.find? (fun s => decide (s.dev = dev)) with
  | none => tileFault d p x.lt .illegalInstr
  | some s =>
    if s.void then d
    else if s.runs.isSome || !x.agrees m then tileFault d p x.lt .illegalInstr
    else if x.mode % 2 = 0 && runs.any (fun r => !((List.range x.nent).any (fun i => decide (x.expert i = r.1)))) then
      tileFault d p x.lt .illegalInstr
    else
      let total := (runs.map (·.2)).sum
      let want := ((x.slist.find? (fun h => decide (h.1 = dev))).map (·.2.2)).getD total
      let d := modExch d p x.lt x.op (fun x => x.modSrc dev (fun s => { s with runs := some runs }))
      let d := if total ≠ m.rows.toNat || total ≠ want then skeinUe d p x 2 else d
      landAll p x.lt x.op d

/-- A ROWS for an exchange whose HEADs up to its source are held (R184). The stream holds another number of records than the HEAD
gives when a message reaches beyond the total, when one that is not full, so the last, ends before it, or when one comes after the
stream is complete (R183). -/
def rowsArrive (p : Nat) (x : Exch) (m : SkeinMsg) (d : Device) : Device :=
  let dev := m.src.toNat
  match x.srcs.find? (fun s => decide (s.dev = dev)) with
  | none => tileFault d p x.lt .illegalInstr
  | some s =>
    let n := s.total * recBytes x.fmt x.bsz x.db
    let e := m.offset.toNat + m.payload.length
    if s.void then d
    else if !x.agrees m then tileFault d p x.lt .illegalInstr
    else if s.landed || m.rows.toNat ≠ s.total || n < e || (e < n && m.payload.length ≠ 8160) then skeinUe d p x 2
    else landSource p x.lt x.op dev (modExch d p x.lt x.op (fun x => x.modSrc dev (fun s =>
      { s with pieces := s.pieces ++ [(m.offset.toNat, m.payload)] })))

-- The early pool (R166, R185).

/-- Messages in the pool of 64 early messages of the device. -/
def Device.earlyCount (d : Device) : Nat :=
  (d.parts.map (fun e => (e.2.early.filter (fun m => match m with
    | .seg _ _ => true
    | .rows _ _ => true
    | _ => false)).length)).sum

/-- Hold an early message with its data as the die stores it (R317); with the pool full the carrying flow's credit is withheld, so none
arrives. -/
def holdEarly (d : Device) (p : Nat) (pooled : Bool) (data : List Byte) (e : Stored → Early) : Device :=
  if pooled && decide (64 ≤ d.earlyCount) then d
  else
    let x := d.store p data
    x.2.modPart p (fun P => { P with early := P.early ++ [e x.1] })
/-- A SEG waits in the pool. -/
def holdSeg (d : Device) (p : Nat) (m : CableMsg) : Device :=
  holdEarly d p true (m.values.flatMap (fun v => toLe 8 v.toNat)) (.seg { m with values := [] })
/-- A ROWS waits in the pool. -/
def holdRows (d : Device) (p : Nat) (m : SkeinMsg) : Device := holdEarly d p true m.payload (.rows { m with payload := [] })
/-- A HEAD waits. -/
def holdHead (d : Device) (p : Nat) (m : SkeinMsg) : Device := holdEarly d p false m.payload (.head { m with payload := [] })
/-- A VOID of a later step waits. -/
def holdVoid (d : Device) (p : Nat) (m : SkeinMsg) : Device := d.modPart p (fun P => { P with early := P.early ++ [.void m] })

/-- Messages of a stopped step are accepted and discarded, those of a later step wait, those of an earlier one are late. -/
def skeinEarly (p : Nat) (m : SkeinMsg) (hold f : Device → Device) (d : Device) : Device :=
  let P := d.part p
  if P.job.isNone || decide (m.step.toNat < P.step) then d
  else if m.step.toNat ≠ P.step then hold d
  else if P.voidSent then d
  else f d

/-- A HEAD goes to its exchange, or waits for it. -/
def headMsg (m : SkeinMsg) (d : Device) : Device :=
  let p := m.part.val
  skeinEarly p m (holdHead · p m) (fun d =>
    match (d.part p).exchFor m with
    | none => holdHead d p m
    | some x => headArrive p x m d) d

/-- A ROWS goes to its exchange once the HEADs up to its source are held, or waits in the pool. -/
def rowsMsg (m : SkeinMsg) (d : Device) : Device :=
  let p := m.part.val
  skeinEarly p m (holdRows · p m) (fun d =>
    match (d.part p).exchFor m with
    | none => holdRows d p m
    | some x => if x.headsTo m.src.toNat then rowsArrive p x m d else holdRows d p m) d

/-- Messages of an exchange that waited are taken up: HEADs first, then ROWS whose HEADs are held. -/
def takeSkeins (p : Nat) (d : Device) : Device :=
  let es := (d.part p).early
  let d := d.modPart p (fun P => { P with early := P.early.filter (fun e => match e with
    | .head _ _ => false
    | .rows _ _ => false
    | _ => true) })
  let d := es.foldl (fun d e => match e with
    | .head m x => headMsg (d.openSkein m x) d
    | _ => d) d
  es.foldl (fun d e => match e with
    | .rows m x => rowsMsg (d.openSkein m x) d
    | _ => d) d

/-- HEAD -/
def execHead (m : SkeinMsg) (s : State) : Host.Outcome State Fault Refusal :=
  onDev (fun d => takeSkeins m.part.val (headMsg m d)) s
/-- ROWS -/
def execRows (m : SkeinMsg) (s : State) : Host.Outcome State Fault Refusal := onDev (rowsMsg m) s

-- VOID (R195).

/-- A source counts as landed with 0 rows. -/
def SrcIn.voided (s : SrcIn) : SrcIn := if s.landed then s else { s with runs := some [], pieces := [], landed := true, void := true }
/-- An exchange with a source's skein counted as empty. -/
def Exch.voidFrom (x : Exch) (dev : Nat) : Exch := x.modSrc dev SrcIn.voided

/-- Device `dev` sends nothing further in the step: its skeins count as empty, its unformed links give +0 (R195, R425). -/
def voidFrom (d : Device) (p dev : Nat) : Device :=
  let d := d.modPart p (fun P => { P with voids := if P.voids.contains dev then P.voids else P.voids ++ [dev],
                                          exchs := P.exchs.map (fun x => x.voidFrom dev) })
  let d := (d.part p).exchs.foldl (fun d x => landAll p x.lt x.op d) d
  settle (takeSkeins p d) p dev

/-- VOID: after the device's own contribution it is a fault with cause PEER_FAULT. -/
def voidMsg (m : SkeinMsg) (d : Device) : Device :=
  let p := m.part.val
  let P := d.part p
  if P.job.isNone || decide (m.step.toNat < P.step) then d
  else if m.step.toNat ≠ P.step then holdVoid d p m
  else
    let d := voidFrom d p m.src.toNat
    if P.contrib then recordFault d p .peerFault else d
/-- VOID -/
def execVoid (m : SkeinMsg) (s : State) : Host.Outcome State Fault Refusal := onDev (voidMsg m) s

-- XCHG.SKEIN.

/-- Skeins to send with their FMT, BSZ and DATA_BYTES. -/
def skeinsOf (d : Device) (p l mode exch n : Nat) (x : Loc) : Except Cause (List OutSkein × Nat × Nat × Nat) :=
  if mode % 2 = 0 then
    match readSendHeader d p l x with
    | .error c => .error c
    | .ok b => match readSkeins d p l b n with
      | .error c => .error c
      | .ok ss => match dispatchSkeins d p l mode exch b ss with
        | .error c => .error c
        | .ok out => .ok (out, fld b 0 1, fld b 1 1, fld b 4 4)
  else match returnSkeins d p l mode exch n x with
    | .error c => .error c
    | .ok (out, fmt, db) => .ok (out, fmt, 0, db)

/-- Handles that an XCHG.SKEIN reads as it executes: the plan, its sources or send list, the send header or output map with what they
name (R180). They serve before it executes (R346). -/
def skeinNeeds (d : Device) (p l w : Nat) : List Nat :=
  let t := d.lt p l
  let plan := locOf (t.areg (bits w 35 32))
  let x := locOf (t.areg (bits w 27 24))
  let at_ (y : Loc) (os : List Nat) : List Nat :=
    y.h :: (if (d.readFault p y 64).isNone && d.reachAll p [y.h] then os.map (fun o => fld (d.readAt p l y 64) (o + 4) 4) else [])
  let next (y : Loc) (o : Nat) (os : List Nat) : List Nat :=
    if (d.readFault p y 64).isNone && d.reachAll p [y.h] then at_ (fieldLoc (fld (d.readAt p l y 64) o 8)) os else []
  if bits w 49 48 % 2 = 0 then at_ plan [0x20] ++ at_ x [0x08, 0x10, 0x18, 0x20]
  else at_ plan [0x30] ++ next plan 0x30 [0x08, 0x20] ++ at_ x [0] ++ next x 0 [0x10, 0x20] ++ skeinOuts d p l x
where
  /-- Handles of the output rows that an output map names. -/
  skeinOuts (d : Device) (p l : Nat) (x : Loc) : List Nat :=
    if (d.readFault p x 64).isSome || !d.reachAll p [x.h] then []
    else
      let y := fieldLoc (fld (d.readAt p l x 64) 0 8)
      if (d.readFault p y 64).isSome || !d.reachAll p [y.h] then []
      else
        let ne := fld (d.readAt p l y 64) 6 2
        if (d.readFault p (x.plus 64) (8 * ne)).isSome then []
        else (List.range ne).map (fun i => fld (d.readAt p l (x.plus 64) (8 * ne)) (8 * i + 4) 4)

/-- Places read in order, as far as the first read that faults. -/
def reached (d : Device) (p : Nat) (xs : List (Loc × Nat)) : List (Loc × Nat) := xs.takeWhile (fun x => (d.readFault p x.1 x.2).isNone)
/-- Where XCHG.SKEIN reads its plan and what that names: header, entries, sources, or the send list of a RETURN (R182, R188). -/
def planSpans (d : Device) (p l mode : Nat) (y : Loc) : List (Loc × Nat) :=
  let b := d.readAt p l y 64
  let ns := fld b 4 2
  let ne := fld b 6 2
  (y, 64) ::
  (if !planLegal b mode then []
   else if mode % 2 = 0 then [(y, 64 + 32 * ne + 4 * ne * ns), (fieldLoc (fld b 0x20 8), 2 * ns)]
   else
     let h := fieldLoc (fld b 0x30 8)
     (h, 64) :: (match readSendHeader d p l h with
       | .error _ => []
       | .ok c => [(fieldLoc (fld c 8 8), 16 * ns)]))
/-- Where a DISPATCH reads its send header, its skeins and their tags (R181). -/
def listSpans (d : Device) (p l n : Nat) (x : Loc) : List (Loc × Nat) :=
  (x, 64) :: (match readSendHeader d p l x with
    | .error _ => []
    | .ok b => (fieldLoc (fld b 8 8), 16 * n) :: (match readSkeins d p l b n with
      | .error _ => []
      | .ok ss => ss.map (fun s => ((fieldLoc (fld b 0x20 8)).plus (8 * s.2.1), 8 * s.2.2))))
/-- Where a RETURN reads its output map and the instances' plan, with its landing table, sources and tags (R187). -/
def mapSpans (d : Device) (p l n : Nat) (x : Loc) : List (Loc × Nat) :=
  let b := d.readAt p l x 64
  let y := fieldLoc (fld b 0 8)
  let h := d.readAt p l y 64
  let ne := fld h 6 2
  let ents := d.readAt p l (y.plus 64) (32 * ne)
  let land := d.readAt p l (y.plus (64 + 32 * ne)) (4 * ne * n)
  let outs := d.readAt p l (x.plus 64) (8 * ne)
  (x, 64) ::
  (if mapBad b then []
   else (y, 64) ::
    (if fld h 4 2 ≠ n || fieldBad (fld h 0x20 8) then []
     else [(y, 64 + 32 * ne + 4 * ne * n), (x.plus 64, 8 * ne), (fieldLoc (fld h 0x20 8), 2 * n)] ++
      (if (List.range ne).any (fun i => fieldBad (fld outs (8 * i) 8)) || fieldBad (fld h 0x10 8) then []
       else (List.range ne).map (fun i =>
        ((fieldLoc (fld h 0x10 8)).plus (8 * capBefore ents i), 8 * ((List.range n).map (fun j => fld land (4 * (i * n + j)) 4)).sum)))))
/-- What an XCHG.SKEIN reads as it executes, before any HEAD leaves: its plan, and once that passes its send list or output map. -/
def skeinSpans (d : Device) (p l n : Nat) (blank : Exch) (at_ : Word) (x : Loc) : List (Loc × Nat) :=
  reached d p (planSpans d p l blank.mode (locOf at_)) ++
  (match readPlan d p l blank.mode at_ blank with
   | .error _ => []
   | .ok _ => reached d p (if blank.mode % 2 = 0 then listSpans d p l n x else mapSpans d p l n x))
/-- Where it reads the rows it sends. -/
def rowSpans (fmt bsz db : Nat) (out : List OutSkein) : List (Loc × Nat) :=
  out.flatMap (fun s => s.rows.flatMap (fun r => [(r.data, db), (r.scale, rowScales fmt bsz db)]))
/-- Handles of the places read. -/
def spanHandles (xs : List (Loc × Nat)) : List Nat := ((xs.map (·.1.h)).filter (· ≠ 0)).dedup

/-- XCHG.SKEIN executes: plan and send list are checked before any HEAD leaves (R181, R182); where what it reads lies in the partial-sum region
with groups open, it reads unspecified bytes (R106). Devices that refused their flow are lost first (R296). DESIGN CHOICE (log 116): its AD, the
receive region of Table 3-21, has no stated effect beside the plan, which gives every landing address, and any AD is accepted and ignored. -/
def skeinAct (id p l w : Nat) (d : Device) : Device :=
  let t := d.lt p l
  let mode := bits w 49 48
  let exch := (t.sreg (bits w 47 42)).toNat
  let n := (t.sreg (bits w 41 36)).toNat
  let at_ := t.areg (bits w 35 32)
  let x := locOf (t.areg (bits w 27 24))
  let blank : Exch :=
    { lt := l, op := id, cf := cfOf w, mode := mode, exch := exch, step := (d.part p).step, plan := [],
      ents := [], planAt := 0, srcs := [], slist := [], tagsAt := 0, slot := 0, sentTo := [] }
  let xs := skeinSpans d p l n blank at_ x
  let d := d.touchAll p l xs
  match readPlan d p l mode at_ blank with
  | .error c => tileFault d p l c
  | .ok e =>
    match skeinsOf d p l mode exch n x with
    | .error c => tileFault d p l c
    | .ok (out, fmt, bsz, db) =>
      let d := (d.refusedOf p (out.map (·.dev) ++ e.srcs.map (·.dev))).foldl (fun d v => peerLost d p v) d
      let e := { e with sentTo := out.map (·.dev), reads := spanHandles (xs ++ rowSpans fmt bsz db out) }
      let e := (d.part p).voids.foldl (fun e v => e.voidFrom v) e
      let e := if (d.part p).voidSent then { e with srcs := e.srcs.map SrcIn.voided } else e
      let d := d.modPart p (fun P => { P with exchs := P.exchs ++ [e] })
      let d := d.modLt p l (fun t => { t with xch := t.xch ++ [{ id := id, kind := 0, au := 0, cf := cfOf w }] })
      let d := d.touchAll p l (reached d p (rowSpans fmt bsz db out))
      let r := sendSkeins p l mode exch fmt bsz db out d
      let d := takeSkeins p r.1
      match r.2 with
      | some c => tileFault d p l c
      | none => d

/-- XCHG.SKEIN (opcode 0x00). DESIGN CHOICE (log 117): R197 guarantees 256 exchanges in progress on the device and no rule says what one
more does; the model refuses none, so the queue of 16 per logical tile alone bounds them. -/
def opSkein : Op :=
  { cls := 8, opc := 0, used := [(49, 42), (41, 24), (22, 16)], legal := cfLegal,
    regs := fun w => [.s (bits w 41 36), .s (bits w 47 42)], full := fun t _ => decide (16 ≤ t.xch.length),
    check := fun d p l w => decide (((d.lt p l).sreg (bits w 47 42)).toNat ≤ 65535), needs := skeinNeeds, skip := skipOne, act := unitAct skeinAct }
/-- XCHG.SKEIN starts an exchange. -/
def execXchgSkein (p : Fin 8) (l : Fin 32) (w : BitVec 128) (s : State) : Host.Outcome State Fault Refusal :=
  onDev (issue opSkein p l w) s

-- Completion (R186).

/-- Is a message part of the exchange's skeins? -/
def Exch.owns (x : Exch) : Msg → Bool
  | .skein _ m => decide (m.exch.toNat = x.exch) && decide (m.step.toNat = x.step) && decide (m.mode.toNat = x.mode)
  | _ => false
/-- Has every skein it sent been delivered, or is its receiver unreachable? A skein to the device itself is delivered when
it lands; one that its plan does not expect never is, until the device stops. -/
def Device.delivered (d : Device) (p : Nat) (x : Exch) : Bool :=
  let P := d.part p
  x.sentTo.all (fun v => !P.peerWait.any (fun w => decide (w.1 = v) && w.2.any (fun m => x.owns m.2)) && match d.peerFlow p v with
    | none => decide (v ≠ P.devId) || x.srcs.any (fun s => decide (s.dev = v)) || P.voids.contains v
    | some i =>
      let f := d.flow i
      decide (f.st = .unreachable) || (!f.waiting.any (fun w => x.owns w.2) && !f.unacked.any (fun u => x.owns u.msg)))

/-- M of a grouped-operation table entry takes a landed count (Table 4-7). -/
def fillWrites (x : Exch) (d : Device) (p i : Nat) : List (Loc × List Byte) :=
  let n := x.landed i
  [fld x.ents (32 * i + 0x18) 2, fld x.ents (32 * i + 0x1A) 2].flatMap (fun e =>
    if e = 0xFFFF then []
    else
      let y := (fieldLoc (fld x.plan 0x18 8)).plus (32 * e)
      let b := d.readAt p x.lt y 8
      let lo := setBits (fld b 0 2) 15 14 (n / 131072)
      let hi := setBits (fld b 2 6) 16 0 n
      [(y, toLe 2 lo ++ toLe 6 hi)])

/-- LANDED, the landing table and FILL, but for entries beyond their ROW_CAP (R184, R194). -/
def planWrites (x : Exch) (d : Device) (p : Nat) : List (Loc × List Byte) :=
  let y := locOf x.planAt
  (List.range x.nent).flatMap (fun i =>
    if x.cap i < x.landed i then []
    else
      [(y.plus (64 + 32 * i + 0x1C), toLe 4 (x.landed i)),
       (y.plus (64 + 32 * x.nent + 4 * i * x.srcs.length), x.srcs.flatMap (fun s => toLe 4 (s.run (x.expert i))))] ++
      (if fld x.plan 3 1 = 1 then fillWrites x d p i else []))

end Sys2Proof.Machine
end

