-- ==== Sys2Proof/Machine/Update.lean ====
section
/-! DEFINITION. The update path (R198 to R227): descriptors and shards, delivery of sums, the gauge round, the update menu,
ledger blocks and the commit of a step. -/
namespace Sys2Proof.Machine

-- Shards (Table 8-1, Table 8-2).

/-- The 128-byte header of a shard. -/
def Device.shardHdr (d : Device) (p h : Nat) : List Byte := d.hRead p h 0 128
/-- ELEMS of a header. -/
def hdrElems (b : List Byte) : Nat := fld b 8 4

/-- Bytes of each region a header can name, with the place of its offset field (Table 8-2). -/
def regionSizes (b : List Byte) : List (Nat × Nat) :=
  let n := hdrElems b
  let mf := fld b 3 1
  let w := if fld b 0 1 = 0 then 2 * n else if fld b 0 1 = 1 then planeBytes (fld b 1 1) (fld b 2 1) 1 n else 0
  [(0x18, w), (0x1C, 2 * n), (0x20, elemBytes mf n), (0x24, elemBytes mf n), (0x28, elemBytes mf (fld b 0xC 4)),
   (0x2C, elemBytes mf (fld b 0x10 4)), (0x30, 4 * n), (0x34, 4 * n)]

/-- Present regions as byte ranges; the header is one more. -/
def presentRegions (b : List Byte) : List (Nat × Nat) :=
  (0, 128) :: (regionSizes b).filterMap (fun r => if fld b r.1 4 = 0 then none else some (fld b r.1 4 * 64, r.2))

/-- Do two byte ranges overlap? -/
def rangesMeet (a b : Nat × Nat) : Bool := decide (a.1 < b.1 + b.2) && decide (b.1 < a.1 + a.2) && decide (0 < a.2) && decide (0 < b.2)
/-- Are ranges pairwise clear of each other? -/
def rangesClear : List (Nat × Nat) → Bool
  | [] => true
  | a :: t => t.all (fun b => !rangesMeet a b) && rangesClear t
/-- Present regions within SIZE, clear of each other and of the header (R200). -/
def regionsFit (b : List Byte) (size : Nat) : Bool :=
  (presentRegions b).all (fun r => decide (r.1 + r.2 ≤ size)) && rangesClear (presentRegions b)

/-- Does a header keep Table 8-1? `fact`: the rule is the factored one. -/
def hdrLegal (b : List Byte) (fact : Bool) : Bool :=
  let f (o n : Nat) := fld b o n
  let n := f 8 4
  decide (f 0 1 ≤ 2) &&
  (match f 0 1 with
   | 0 => decide (f 1 1 = 1) && decide (f 2 1 = 0)
   | 1 => decide (3 ≤ f 1 1) && decide (f 1 1 ≤ 8) && decide (f 2 1 ≤ 3) && decide (n % blockOf (f 2 1) = 0)
   | _ => decide (f 1 1 = 0) && decide (f 2 1 = 0) && decide (f 3 1 = 0)) &&
  decide (f 3 1 ≤ 1) && decide (1 ≤ n) && decide (n ≤ 268435456) &&
  (if fact then decide (f 0xC 4 * f 0x10 4 = n) && decide (f 0xC 4 ≤ 65536) && decide (f 0x10 4 ≤ 65536)
   else decide (f 0xC 4 = 0) && decide (f 0x10 4 = 0)) &&
  (decide (f 0 1 = 0) || decide (f 0x1C 4 = 0)) && zeros b 0x14 4 && zeros b 0x38 8 && decide (f 0x54 1 ≤ 1) &&
  decide (f 0x55 1 ≤ 1) && decide (f 0x56 1 ≤ 1) && zeros b 0x57 1 &&
  (decide (f 0x58 2 < 1024) || decide (f 0x58 2 = 0xFFFF)) && zeros b 0x5A 38

/-- Places of the offset fields of the regions a rule needs (Table 8-2). -/
def regionsNeeded (b : List Byte) (rule b1 : Nat) : List Nat :=
  if rule = 0x10 then [0x30, 0x34]
  else [0x18] ++ (if fld b 0 1 = 0 then [0x1C] else []) ++
    (match rule with
     | 0 | 2 => [0x20]
     | 1 => [0x20, 0x24]
     | _ => [0x28, 0x2C] ++ (if vIsZero (decodeFmt 0 b1) then [] else [0x20]))

-- Descriptors (Table 8-3).

/-- A descriptor from its 64 bytes. -/
def udescOf (b : List Byte) : UDesc :=
  let f (o n : Nat) := fld b o n
  { rule := f 0 1, gated := decide (f 1 1 = 1), flags := f 2 1, gfmt := f 3 1, shard := f 4 4, cable := f 8 2, inst := f 0xA 2,
    gH := f 0xC 4, gOff := f 0x10 4, lr := f 0x18 4, b1 := f 0x1C 4, b2 := f 0x20 4, eps := f 0x24 4, wd := f 0x28 4,
    clip := f 0x2C 4, gscale := f 0x30 4, landed := decide (f 8 2 = 0xFFFF) || decide (f 0 1 = 0x10), void := false, got := [] }
/-- RES_COMMIT? -/
def UDesc.isRes (x : UDesc) : Bool := decide (x.rule = 0x10)
/-- First byte of the gradient region. -/
def UDesc.gAt (x : UDesc) : Nat := x.gOff * 64
/-- Bytes per gradient value. -/
def UDesc.gw (x : UDesc) : Nat := if x.gfmt = 0 then 4 else 8
/-- Bytes of the gradient region with its trailer (R204). -/
def UDesc.gBytes (x : UDesc) (n : Nat) : Nat := ceil64 (n * x.gw) + 64
/-- Reserved bytes and values of a descriptor; a RES_COMMIT has every field but SHARD 0. -/
def descLegal (b : List Byte) : Bool :=
  let f (o n : Nat) := fld b o n
  if f 0 1 = 0x10 then zeros b 1 3 && zeros b 8 56
  else decide (f 0 1 ≤ 3) && decide (f 1 1 ≤ 1) && decide (f 2 1 < 8) && (!bit (f 2 1) 0 || decide (f 0 1 = 0)) &&
    (decide (f 3 1 = 0) || decide (f 3 1 = 9)) && (decide (f 0xA 2 < 1024) || decide (f 0xA 2 = 0xFFFF)) && zeros b 0x14 4 &&
    zeros b 0x34 12 && (decide (f 1 1 = 0) || decide (f 0xA 2 ≠ 0xFFFF))

/-- Cause a descriptor faults with (R205). -/
def descFault (d : Device) (p : Nat) (b : List Byte) (taken : List UDesc) : Option Cause :=
  let P := d.part p
  let x := udescOf b
  if !descLegal b then some .illegalInstr
  else match P.entry x.shard with
    | none => some .bounds
    | some e =>
      let h := d.shardHdr p x.shard
      let n := hdrElems h
      if bit e.access 0 || !bit e.access 3 || decide (e.size < 128) || !hdrLegal h (decide (x.rule = 3)) || !regionsFit h e.size ||
         !(regionsNeeded h x.rule x.b1).all (fun o => decide (fld h o 4 ≠ 0)) || (x.isRes != decide (fld h 0 1 = 2)) ||
         taken.any (fun y => decide (y.shard = x.shard)) ||
         (!x.isRes && decide (x.cable ≠ 0xFFFF) && taken.any (fun y => !y.isRes && decide (y.cable = x.cable)))
      then some .illegalInstr
      else if d.shardTorn p x.shard then some .torn
      else if x.isRes then none
      else match P.entry x.gH with
        | none => some .bounds
        | some g => if g.size < x.gAt + x.gBytes n then some .bounds else none

/-- Descriptors taken one after another, or the first cause. -/
def takeDescs (d : Device) (p : Nat) : List (List Byte) → List UDesc → Except Cause (List UDesc)
  | [], ts => .ok ts
  | b :: bs, ts => match descFault d p b ts with
    | some c => .error c
    | none => takeDescs d p bs (ts ++ [udescOf b])

-- Where gradients land (R206, R223).

/-- Change a descriptor of the step. -/
def modDesc (d : Device) (p shard : Nat) (f : UDesc → UDesc) : Device :=
  d.modPart p (fun P => { P with descs := replaceFirst (fun x => decide (x.shard = shard)) f P.descs })

/-- HELD to the final link of a sum. -/
def sendHeld (d : Device) (p : Nat) (m : CableMsg) : Device :=
  let h : CableMsg :=
    { m with peer := BitVec.ofNat 12 (d.part p).devId, src := 0xFFFF, dest := m.links - 1,
             flags := m.flags &&& 0x11#8, seg := 0, level := 0, mbNext := 0, values := [] }
  sendPeer d p m.peer.toNat (.cable 4 h)

/-- The update path wakes a stack (source ACCESS_UPD), counting the request. -/
def wakeUpd (d : Device) (p x : Nat) : Device :=
  if d.domOn (32 + x) then d
  else
    let d := if d.rd (fDom (32 + x)) = 3 then d else d.inc (fTierWakes p)
    wakeDom d (32 + x) 6

/-- Regions of a stack's reserved area (Table 10-2). -/
inductive Reserved where
  | saveArea | metadata | deferral | overflow | swatch | purl | held
  deriving DecidableEq, Repr
/-- The regions in ascending offset. -/
def Reserved.all : List Reserved := [.saveArea, .metadata, .deferral, .overflow, .swatch, .purl, .held]
/-- Bytes of a region. -/
def Reserved.size (r : Reserved) : Nat :=
  2 ^ 20 * (match r with
    | .saveArea => 64
    | .metadata => 256
    | .deferral => 256
    | .overflow => 64
    | .swatch => 128
    | .purl => 64
    | .held => 192)
/-- Offset of a region in the reserved area, in bytes. -/
def Reserved.offset (r : Reserved) : Nat := ((Reserved.all.takeWhile (fun q => decide (q ≠ r))).map Reserved.size).sum

/-- Bytes of a stack's deferral area (R229, Table 10-2). -/
def deferralSize : Nat := Reserved.deferral.size
/-- Bytes parked in the deferral area of a stack. -/
def Part.deferred (P : Part) (x : Nat) : Nat := ((P.parked.filter (fun q => decide (q.area = x))).map (fun q => q.bytes.length)).sum
/-- The ready stack whose deferral area takes `n` parked bytes: the lowest one that is ON, has no channel PAUSED (R264) and has room; none
when every area is full. -/
def Device.deferralStack (d : Device) (p n : Nat) : Option Nat :=
  (unitsOf (d.part p).cols).find? (fun x =>
    d.domOn (32 + x) && decide (d.pausedCh x = []) && decide (d.rd (fSDormant x) = 0) && decide ((d.part p).deferred x + n ≤ deferralSize))
/-- A stack of the gradient region that is not ON, if any. -/
def Device.gradAsleep (d : Device) (p : Nat) (x : UDesc) : Option Nat := ((d.part p).stacksOf x.gH).find? (fun s => !d.domOn (32 + s))
/-- Can `n` bytes of a sum neither land nor be parked now (R223)? -/
def Device.gradFull (d : Device) (p : Nat) (x : UDesc) (n : Nat) : Bool := (d.gradAsleep p x).isSome && (d.deferralStack p n).isNone

/-- Bytes of a sum land in place, or are parked in a deferral area while a stack they need is not ON (R223). DESIGN CHOICE (log
115): the granules do not count as written by the work item, so a stopped step (R55) does not poison them. -/
def landGrad (d : Device) (p : Nat) (x : UDesc) (off : Nat) (bs : List Byte) : Device :=
  match d.gradAsleep p x with
  | none => d.hStore p x.gH off bs
  | some s =>
    let d := if (d.part p).parked.any (fun q => !q.due && decide (q.shard = x.shard)) then d else d.inc (fDeferrals p)
    let d := ((d.part p).stacksOf x.gH).foldl (fun d s => wakeUpd d p s) d
    let q : ParkedSeg := { shard := x.shard, stack := s, area := (d.deferralStack p bs.length).getD 0, h := x.gH, off := off, bytes := bs, due := false }
    d.modPart p (fun P => { P with parked := P.parked ++ [q] })

/-- A segment of a sum for a descriptor (R206): its FMT and length must suit GFMT and ELEMS. While every deferral area is full, or a
channel that it lands in is PAUSED (R264), it waits in the pool, credit withheld (R223). -/
def gradSeg (d : Device) (p : Nat) (x : UDesc) (m : CableMsg) : Device :=
  let n := hdrElems (d.shardHdr p x.shard)
  let s := m.seg.toNat
  let fits := decide (m.fmt.toNat = x.gfmt) && decide (s < segCount x.gfmt n) &&
    decide (m.values.length = segLen x.gfmt n s) && (bit m.flags.toNat 1 == decide (s + 1 = segCount x.gfmt n))
  let late := decide (x.got.length + 1 = segCount x.gfmt n)
  if x.landed || x.got.contains s then d
  else if (d.gradFull p x (m.values.length * x.gw + (if late then 128 else 0)) || ((d.gradAsleep p x).isNone && !d.reach p x.gH)) && fits &&
      !bit m.flags.toNat 3 then
    holdSeg (((d.part p).stacksOf x.gH).foldl (fun d s => wakeUpd d p s) d) p m
  else if !fits then
    recordFault (sendHeld (modDesc d p x.shard (fun x => { x with landed := true, void := true })) p m) p .illegalInstr
  else if bit m.flags.toNat 3 then sendHeld (modDesc d p x.shard (fun x => { x with landed := true, void := true })) p m
  else
    let d := landGrad d p x (x.gAt + s * segMax x.gfmt * x.gw) (m.values.flatMap (fun v => toLe x.gw v.toNat))
    let got := s :: x.got
    if got.length = segCount x.gfmt n then
      let used := n * x.gw
      let d := landGrad d p x (x.gAt + used) (List.replicate (ceil64 used - used) 0#8 ++
        trailer m.bias.toInt m.epoch.toNat (bit m.flags.toNat 2))
      sendHeld (modDesc d p x.shard (fun x => { x with landed := true, got := got })) p m
    else modDesc d p x.shard (fun x => { x with got := got })

/-- A sum that no descriptor can name any more is discarded, counted once, and answered (R206). -/
def discardSum (d : Device) (p : Nat) (m : CableMsg) : Device :=
  let k := (m.cableId.toNat, m.step.toNat)
  if (d.part p).gone.contains k then d
  else sendHeld ((d.modPart p (fun P => { P with gone := k :: P.gone })).inc fUnmatched) p m

/-- A SEG for the update path. -/
def segUpdate (m : CableMsg) (d : Device) : Device :=
  let p := m.part.val
  let P := d.part p
  if P.job.isNone then d
  else if P.step < m.step.toNat then holdSeg d p m
  else if m.step.toNat < P.step then discardSum d p m
  else match P.descs.find? (fun x => !x.isRes && decide (x.cable ≠ 0xFFFF) && decide (x.cable = m.cableId.toNat)) with
    | some x => gradSeg d p x m
    | none => if P.contrib then discardSum d p m else holdSeg d p m

/-- A SEG: to the update path, to its link, or to the pool while the link is not formed (R166); one of an earlier step is
late and dropped. -/
def segMsg (m : CableMsg) (d : Device) : Device :=
  let p := m.part.val
  if m.dest = 0xFFFF#16 then segUpdate m d
  else match (d.part p).linkFor m with
    | some k => segArrive d p k m
    | none =>
      if (d.part p).job.isNone || decide (m.step.toNat < (d.part p).step) ||
         (d.part p).formed.contains (bit m.flags.toNat 4, m.cableId.toNat, m.dest.toNat) then d
      else holdSeg d p m
/-- SEG -/
def execSeg (m : CableMsg) (s : State) : Host.Outcome State Fault Refusal := onDev (segMsg m) s

/-- Sums in the pool for the update path are tried again, or discarded once the contribution has left. -/
def takeSums (p : Nat) (d : Device) : Device :=
  let mine (e : Early) : Bool := match e with
    | .seg m _ => decide (m.dest = 0xFFFF#16) && decide (m.step.toNat ≤ (d.part p).step)
    | _ => false
  let es := (d.part p).early.filter mine
  es.foldl (fun d e => match e with
    | .seg m x => segUpdate (d.openSeg m x) d
    | _ => d) (d.modPart p (fun P => { P with early := P.early.filter (fun e => !mine e) }))

-- UPD.APPLY and UPD.GAUGE (R91, Table 3-23).

/-- UPD.APPLY executes: every descriptor is taken, or none (R205). -/
def applyAct (id p l w : Nat) (d : Device) : Device :=
  let t := d.lt p l
  let n := (t.sreg (bits w 33 28)).toNat
  let x := locOf (t.areg (bits w 27 24))
  if n = 0 then complete d p l id (cfOf w)
  else match d.readFault p x (64 * n) with
    | some c => tileFault d p l c
    | none =>
      let bs := (List.range n).map (fun i => d.readAt p l (x.plus (64 * i)) 64)
      let d := d.touch p l x (64 * n)
      if (d.part p).contrib then tileFault d p l .illegalInstr
      else match takeDescs d p bs (d.part p).descs with
        | .error c => tileFault d p l c
        | .ok ts =>
          let d := d.modPart p (fun P => { P with descs := ts })
          let o : OpenOp := { id := id, kind := 0, au := 0, cf := cfOf w }
          takeSums p (d.modLt p l (fun t => { t with upd := t.upd ++ [o] }))

/-- Shards whose headers UPD.APPLY reads (R205): a GATED descriptor whose instance is unvisited so far wakes no stack (R218). -/
def applyNeeds (d : Device) (p l w : Nat) : List Nat :=
  let t := d.lt p l
  let n := (t.sreg (bits w 33 28)).toNat
  let x := locOf (t.areg (bits w 27 24))
  if (d.readFault p x (64 * n)).isSome then []
  else (List.range n).filterMap (fun i =>
    let y := udescOf (d.readAt p l (x.plus (64 * i)) 64)
    if y.gated && !(d.part p).visitedNow.contains y.inst then none else some y.shard)

/-- UPD.APPLY (opcode 0x00): S2 0; AU the scratchpad; at most 1,024 descriptors. -/
def opApply : Op :=
  { cls := 9, opc := 0, used := [(33, 28), (27, 24), (22, 16)], legal := cfLegal, regs := fun w => [.s (bits w 33 28)],
    full := fun t _ => decide (16 ≤ t.upd.length),
    check := fun d p l w => (d.lt p l).isSpad (bits w 27 24) && decide (((d.lt p l).sreg (bits w 33 28)).toNat ≤ 1024),
    needs := applyNeeds, skip := skipOne, act := unitAct applyAct }
/-- UPD.APPLY hands descriptors to the update path. -/
def execUpdApply (p : Fin 8) (l : Fin 32) (w : BitVec 128) (s : State) : Host.Outcome State Fault Refusal :=
  onDev (issue opApply p l w) s

/-- UPD.GAUGE gives the tile's part and flag. -/
def gaugeAct (id p l w : Nat) (d : Device) : Device :=
  d.modLt p l (fun t =>
    { t with gaugePart := some (t.sreg (bits w 33 28)), gaugeFlag := decide (t.sreg (bits w 39 34) ≠ 0),
             upd := t.upd ++ [{ id := id, kind := 1, au := t.areg (bits w 27 24), cf := cfOf w }] })
/-- UPD.GAUGE (opcode 0x01): once per step. -/
def opGauge : Op :=
  { cls := 9, opc := 1, used := [(39, 34), (33, 28), (27, 24), (22, 16)], legal := cfLegal,
    regs := fun w => [.s (bits w 33 28), .s (bits w 39 34)], full := fun t _ => decide (16 ≤ t.upd.length),
    check := fun d p l w => (d.lt p l).isSpad (bits w 27 24) && (d.lt p l).gaugePart.isNone,
    skip := skipOne, act := unitAct gaugeAct }
/-- UPD.GAUGE gives a logical tile's part of the gauge. -/
def execUpdGauge (p : Fin 8) (l : Fin 32) (w : BitVec 128) (s : State) : Host.Outcome State Fault Refusal :=
  onDev (issue opGauge p l w) s

-- The gauge contribution (R209, R210).

/-- Is a GATED descriptor skipped in this step (R218)? -/
def Part.gatedSkips (P : Part) (x : UDesc) : Bool := x.gated && !P.visitedNow.contains x.inst

/-- Value of element `i` of a gradient region (R207). -/
def gradVal (x : UDesc) (bias : Int) (raw : Nat) : Val :=
  rn64 (vmul (rn64 (vscale (decodeFmt x.gfmt raw) (-bias))) (decodeFmt 0 x.gscale))
/-- Trailer of a gradient region: bias, gauge bit. -/
def gradTrailer (d : Device) (p : Nat) (x : UDesc) (n : Nat) : Int × Bool :=
  let t := d.hRead p x.gH (x.gAt + ceil64 (n * x.gw)) 6
  (toInt 32 (fld t 0 4), bit (fld t 5 1) 0)
/-- Stored gradient value `i`. -/
def gradRaw (d : Device) (p : Nat) (x : UDesc) (i : Nat) : Nat := fld (d.hRead p x.gH (x.gAt + i * x.gw) x.gw) 0 x.gw

/-- One descriptor's gradient enters the norm: the sum, and whether a value was NaN or infinite or the trailer carries the
gauge bit. -/
def gradNorm (d : Device) (p : Nat) (x : UDesc) (acc : Val × Bool) : Val × Bool :=
  let n := hdrElems (d.shardHdr p x.shard)
  let t := gradTrailer d p x n
  (List.range n).foldl (fun a i =>
    let g := gradVal x t.1 (gradRaw d p x i)
    (rn64 (vadd a.1 (rn64 (vmul g g))), a.2 || vNonfin g)) (acc.1, acc.2 || t.2)

/-- Insert a descriptor by ascending shard handle. -/
def insertDesc (x : UDesc) : List UDesc → List UDesc
  | [] => [x]
  | y :: t => if x.shard ≤ y.shard then x :: y :: t else y :: insertDesc x t
/-- Descriptors by ascending shard handle. -/
def byShard (xs : List UDesc) : List UDesc := xs.foldr insertDesc []

/-- Segments that wait in deferral areas, as if in place. -/
def withParked (d : Device) (p : Nat) : Device := (d.part p).parked.foldl (fun d q => d.hStore p q.h q.off q.bytes) d

/-- Number of an operation of the arrays' queue. -/
def ArrOp.num : ArrOp → Nat
  | .openG id .. => id
  | .pass q => q.id
  | .close id .. => id
  | .walk id .. => id

/-- Has a logical tile given what the contribution waits for (R91): UPD.GAUGE issued, or held at its seam, and every
operation before that complete? A stopped one counts once its stores are complete; its exchanges go on (R55). -/
def LTile.gaugeReady (stopping : Bool) (t : LTile) : Bool :=
  let lim := match t.upd.find? (fun o => decide (o.kind = 1)) with
    | some o => o.id
    | none => t.nextOp
  let rest := match t.block with
    | .seam _ => true
    | .ended => true
    | .stopped => true
    | .halted => true
    | _ => false
  let arrs := t.arr.map ArrOp.num
  let xchs := if t.block = .stopped then [] else t.xch.map (fun o => o.id)
  let done := (t.moves.flatMap (fun e => e.2.map (fun o => o.id)) ++ t.vec.map (fun o => o.id) ++ t.rte.map (fun o => o.id) ++
    xchs ++ arrs).all (fun i => decide (lim ≤ i))
  done && (rest || (t.gaugePart.isSome && !stopping))

/-- Is the final link of a sum one that a stopped device never formed, so that its VOID stands for the link and no sum comes (R425)? `un`:
the cables of which the command says so. It is so only with a VOID held and no segment come, and not where a link of the cable formed here
names a final link that no held VOID stands for. DESIGN CHOICE (log 125): such a sum is not awaited. -/
def Device.sumMissing (d : Device) (p : Nat) (un : List Nat) (x : UDesc) : Bool :=
  let P := d.part p
  un.contains x.cable && decide (P.voids ≠ []) && decide (x.got = []) &&
  (match P.links.find? (fun k => decide (k.mode = 1) && decide (k.cable = x.cable)) with
   | some k => d.voided p k k.final
   | none => true)
/-- Conditions of the contribution (R91, R209): every sum named is written or discarded, but for one that no link will send. -/
def Device.canContribute (d : Device) (p : Nat) (un : List Nat) : Bool :=
  let P := d.part p
  P.isRunning && !P.contrib && (List.range P.ltCount).all (fun l => (d.lt p l).gaugeReady P.stopping) &&
  P.descs.all (fun x => x.landed || d.sumMissing p un x)

/-- Parts of the norm: tiles ascending, then gradients by ascending shard (R209). -/
def deviceNorm (d : Device) (p : Nat) : Val × Bool :=
  let P := d.part p
  let tiles := (List.range P.ltCount).foldl (fun a l =>
    rn64 (vadd a (decodeFmt 9 ((d.lt p l).gaugePart.getD 0).toNat))) vzero
  let flag := P.flag || P.carried || (List.range P.ltCount).any (fun l => (d.lt p l).gaugeFlag)
  ((byShard P.descs).filter (fun x => !x.isRes && !P.gatedSkips x)).foldl (fun a x => gradNorm d p x a) (tiles, flag)

/-- The cause the norm's read of a gradient faults with, if any (R60, R267). -/
def Device.gradFault (d : Device) (p : Nat) : Option Cause :=
  let P := d.part p
  P.descs.findSome? (fun x =>
    if x.isRes || P.gatedSkips x then none
    else
      let n := x.gBytes (hdrElems (d.shardHdr p x.shard))
      if P.lost x.gH x.gAt n then some .ue else if P.poisoned x.gH x.gAt n then some .poisonRead else none)

/-- Cause of the running work item. -/
def Part.cause (P : Part) : Cause := (P.running.map (·.cause)).getD .none

/-- Descriptors whose gradients the norm's read needs in place: those that count, but for sums parked (R223). -/
def Part.normDescs (P : Part) : List UDesc :=
  P.descs.filter (fun x => !x.isRes && !P.gatedSkips x && !P.parked.any (fun q => !q.due && decide (q.shard = x.shard)))
/-- Their gradient handles. -/
def Part.normReads (P : Part) : List Nat := P.normDescs.map (·.gH)

/-- Does the norm's read take a byte of a handle: one of a gradient region, in place, that counts? -/
def Device.normMeets (d : Device) (p h off : Nat) : Bool :=
  (d.part p).normDescs.any (fun x => decide (x.gH = h) && decide (x.gAt ≤ off) && decide (off < x.gAt + x.gBytes (hdrElems (d.shardHdr p x.shard))))

/-- GAUGE_CONTRIBUTION: the norm is read once the stacks it needs serve, a poisoned gradient faults first, and the message goes to
every device. -/
def gaugeContribution (p : Nat) (un : List Nat) (d : Device) : Device :=
  if !d.canContribute p un then d
  else if !(d.part p).stopping && !d.reachAll p (d.part p).normReads then
    ((d.part p).normReads.flatMap (d.part p).stacksOf).foldl (fun d x => wakeUpd d p x) d
  else
    let e := withParked d p
    match (if (d.part p).stopping then none else e.gradFault p) with
    | some c => recordFault d p c
    | none =>
      let n := deviceNorm e p
      let P := d.part p
      let c := P.cause.code
      let m : GaugeMsg :=
        { part := Fin.ofNat 8 p, flags := BitVec.ofNat 8 ((if n.2 then 1 else 0) + (if c = 0 then 0 else 2)),
          cause := BitVec.ofNat 8 c, step := BitVec.ofNat 32 P.step, jobId := P.jobId, srcDev := BitVec.ofNat 12 P.devId,
          norm2 := BitVec.ofNat 64 (encodeFmt 9 n.1), limit := BitVec.ofNat 64 (d.rd (fLimit p)) }
      let d := takeSums p (d.modPart p (fun P => { P with contrib := true }))
      (List.range P.devCount).foldl (fun d v => sendPeer d p v (.gauge m)) d

-- The commit of a step (R226, R208, R220).

/-- A write of device-kept header bytes. -/
def hdrWrite (d : Device) (p h off n v : Nat) : Device := d.hStore p h off (toLe n v)
/-- GEN rises by 1 (R199). -/
def bumpGen (d : Device) (p h : Nat) : Device := hdrWrite d p h 0x40 4 (d.shardGen p h + 1)
/-- PENDING follows the updates. -/
def setPending (d : Device) (p : Nat) : Device := d.wr (fPending p) (d.part p).updates.length

/-- The commit of step `s` is recorded: residual regions flip, NEXT_STEP and LAST_STEP advance. -/
def commitStep (d : Device) (p s : Nat) (job : BitVec 32) : Device :=
  let d := ((d.part p).resFlips.filter (fun x => decide (x.1 = s))).foldl (fun d x =>
    hdrWrite (bumpGen (hdrWrite d p x.2 0x55 1 (1 - fld (d.shardHdr p x.2) 0x55 1)) p x.2) p x.2 0x48 4 s) d
  let mark (w : WorkItem) : WorkItem := if w.coversOf s job then { w with lastStep := s } else w
  let mine := decide ((d.part p).jobId = job)
  let d := d.modPart p (fun P =>
   { P with
    resFlips := P.resFlips.filter (fun x => decide (x.1 ≠ s)), uncommitted := P.uncommitted.filter (fun x => decide (x.1 ≠ s)),
    wis := P.wis.map mark, finalWait := P.finalWait.map mark,
    job := P.job.map (fun j => if mine then { j with lastStep := s, nextStep := (s + 1) % 2 ^ 32 } else j) })
  releaseFinal (if mine then d.wr (fLastCommit p) s else d) p

/-- Does an open lease on the shard hold what an update of step `s` does to it: the step's seam is not yet recorded (R225)? -/
def Device.leaseHolds (d : Device) (p s h : Nat) : Bool :=
  decide ((d.part p).step = s) && decide ((d.part p).seam = .none) && d.leases.any (fun e => decide (e.part = p) && decide (e.shard = h))
/-- Is something of step `s` still to be written: an update, or a flip of RES_SEL that a lease holds? -/
def Device.stepOpen (d : Device) (p s : Nat) : Bool :=
  (d.part p).updates.any (fun u => decide (u.step = s)) || (d.part p).resFlips.any (fun x => decide (x.1 = s) && d.leaseHolds p s x.2)

/-- Shards whose RES_SEL flips as step `s` commits. -/
def Part.flipsOf (P : Part) (s : Nat) : List Nat := (P.resFlips.filter (fun x => decide (x.1 = s))).map (·.2)
/-- Steps whose every update is written commit, in order, once the stacks of the shards that flip serve; until then those are woken (R264,
R346). The first argument bounds them. -/
def commitReady (p : Nat) : Nat → Device → Device
  | 0, d => d
  | n + 1, d =>
    match (d.part p).uncommitted with
    | [] => d
    | (s, j) :: _ =>
      let hs := (d.part p).flipsOf s
      if d.stepOpen p s then d
      else if !d.reachAll p hs then (hs.flatMap (d.part p).stacksOf).foldl (fun d x => wakeUpd d p x) d
      else commitReady p n (commitStep d p s j)
/-- Parked sums of a step that commits land in place, once what they land in serves (R223, R264). -/
def landParked (p : Nat) (d : Device) : Device :=
  (d.part p).parked.foldl (fun d q =>
    if q.due && d.reach p q.h then
      (d.hStore p q.h q.off q.bytes).modPart p (fun P => { P with parked := dropFirst (fun x => decide (x = q)) P.parked })
    else d) d

/-- STK_PURL.STAGED follows the blocks a stack holds. -/
def setStaged (d : Device) (x : Nat) (bs : List Staged) : Device :=
  (d.modStack x (fun s => { s with staged := bs })).wr (fStaged x) bs.length
/-- Is a staged block one of shard `h` of partition `p`? -/
def Staged.of (p h : Nat) (b : Staged) : Bool := decide (b.part = p) && decide (b.shard = h)
/-- Staged blocks of a shard are released. -/
def dropStaged (d : Device) (p h : Nat) : Device :=
  (List.range 32).foldl (fun d x =>
    if (d.stack x).staged.any (Staged.of p h) then setStaged d x ((d.stack x).staged.filter (fun b => !b.of p h)) else d) d

/-- A shard turns TORN (R220): its own update ends, and the commit of the update's step is never recorded. -/
def tearShard (d : Device) (p h : Nat) : Device :=
  let d := (hdrWrite (dropStaged d p h) p h 0x54 1 1).inc fTorn
  match (d.part p).updates.find? (fun u => decide (u.desc.shard = h)) with
  | none => d
  | some u =>
    let s := u.step
    let hit (w : WorkItem) : Bool := (d.part p).uncommitted.any (fun x => decide (x.1 = s) && w.coversOf s x.2)
    let d := setPending (d.modPart p (fun P =>
     { P with
      updates := P.updates.filter (fun u => decide (u.desc.shard ≠ h)),
      tornStep := some s, uncommitted := P.uncommitted.filter (fun x => decide (x.1 < s)),
      resFlips := P.resFlips.filter (fun x => decide (x.1 < s)),
      finalWait := P.finalWait.map (fun w =>
        if !hit w then w else { w.blame .torn with state := if w.cause = .none then .faulted else w.state } ) })) p
    let d := recordFault d p .torn
    let d := if (d.part p).finalWait.any hit then flushQueued d p else d
    releaseFinal d p

-- The gauge round (R211 to R213).

/-- What a device's place in the round holds: its message, or cause FATAL for a lost one (R304). -/
def Part.gaugeOf (P : Part) (v : Nat) : Option GaugeMsg :=
  if P.fataled.contains v then
    some { part := 0, flags := 2, cause := 12, step := BitVec.ofNat 32 P.step, jobId := P.jobId, srcDev := BitVec.ofNat 12 v,
           norm2 := 0, limit := BitVec.ofNat 64 (nanCode 9) }
  else P.gauges.find? (fun m => decide (m.step.toNat = P.step) && decide (m.srcDev.toNat = v))

/-- gauge_outcome of R211 with the fields of Table 8-5. -/
def gaugeOutcome (step : Nat) (ms : List GaugeMsg) : GaugeRes :=
  let n2 := ms.foldl (fun a m => rn64 (vadd a (decodeFmt 9 m.norm2.toNat))) vzero
  let lim := ms.foldl (fun a m =>
    let l := decodeFmt 9 m.limit.toNat
    if vlt l a then l else a) (.inf false)
  let data := ms.any (fun m => bit m.flags.toNat 0)
  let bad (m : GaugeMsg) : Bool := bit m.flags.toNat 0 || decide (m.cause ≠ 0)
  { step := step,
    outcome := if ms.any (fun m => decide (m.cause ≠ 0)) then .skipFault
      else if data || vNonfin n2 || vlt lim n2 then .skipData else .commit,
    norm := BitVec.ofNat 64 (encodeFmt 9 n2), limit := BitVec.ofNat 64 (encodeFmt 9 lim),
    firstCause := ((ms.find? (fun m => decide (m.cause ≠ 0))).map (·.cause.toNat)).getD 0,
    flagged := (ms.filter bad).length, firstDev := ((ms.find? bad).map (·.srcDev.toNat)).getD 0xFFFF }

/-- Code of an outcome (Table 8-5). -/
def Outcome.code : Outcome → Nat
  | .commit => 0 | .skipData => 1 | .skipFault => 2
/-- The 64-byte gauge result (Table 8-5). -/
def GaugeRes.bytes (r : GaugeRes) : List Byte :=
  toLe 4 r.step ++ toLe 1 r.outcome.code ++ toLe 1 r.firstCause ++ toLe 2 r.flagged ++ toLe 8 r.norm.toNat ++
  toLe 8 r.limit.toNat ++ toLe 2 r.firstDev ++ List.replicate 38 0#8

/-- Each UPD.GAUGE writes the result and completes, each UPD.APPLY completes (R91, R212). -/
def finishUpd (r : GaugeRes) (p l : Nat) (d : Device) : Device :=
  let ops := (d.lt p l).upd
  ops.foldl (fun d o =>
    if o.kind = 0 then complete d p l o.id o.cf
    else
      let x := locOf o.au
      match d.writeFault p x 64 with
      | some c => tileFault (complete d p l o.id none) p l c
      | none => complete ((d.writeAt p l x r.bytes).touch p l x 64) p l o.id o.cf) (d.modLt p l (fun t => { t with upd := [] }))

/-- The Purl engine that takes a shard changes only time (R219): that of its stack, or one of the stacks it spreads over. -/
def pickEngine (d : Device) (p h : Nat) : Nat × Device :=
  let xs := (d.part p).stacksOf h
  (d.engineOf p (xs.getD (Config.freeNat d.free % max 1 xs.length) 0), { d with free := d.free + 1 })

-- The update menu (R214, R215).

/-- A descriptor's binary32 fields as values, with the step's clip factor and t (R215). -/
structure UParams where
  lr : Val
  b1 : Val
  b2 : Val
  eps : Val
  wd : Val
  nesterov : Bool
  bias : Bool
  clipf : Val
  t : Nat
  gap : Nat
  deriving DecidableEq, Repr

/-- rn64 of a product. -/
def mul64 (a b : Val) : Val := rn64 (vmul a b)
/-- rn64 of a sum. -/
def add64 (a b : Val) : Val := rn64 (vadd a b)
/-- rn64 of a difference. -/
def sub64 (a b : Val) : Val := rn64 (vsub a b)
/-- rn64 of a quotient. -/
def div64 (a b : Val) : Val := rnDiv 9 a b
/-- a * x + (1 - a) * y, each operation rounded. -/
def lerp64 (a x y : Val) : Val := add64 (mul64 a x) (mul64 (sub64 vone a) y)

/-- clip_factor -/
def clipFactor (clip : Bool) (lim n2 : Val) : Val :=
  if !clip || vIsZero n2 then vone
  else
    let n := rnSqrt 9 n2
    if vle n lim then vone else div64 lim n
/-- wstep -/
def wstep (w u : Val) (q : UParams) : Val :=
  sub64 (mul64 w (sub64 vone (mul64 q.lr q.wd))) (mul64 q.lr u)
/-- sgdm: weight and moment. -/
def sgdm (w m g : Val) (q : UParams) : Val × Val :=
  let m := add64 (mul64 q.b1 m) g
  let u := if q.nesterov then add64 g (mul64 q.b1 m) else m
  (wstep w u q, m)
/-- adamw: weight, first and second moment. -/
def adamw (w m v g : Val) (q : UParams) : Val × Val × Val :=
  let m := lerp64 q.b1 m g
  let v := lerp64 q.b2 v (mul64 g g)
  let mh := if q.bias then div64 m (sub64 vone (powi q.b1 q.t)) else m
  let vh := if q.bias then div64 v (sub64 vone (powi q.b2 q.t)) else v
  let u := div64 mh (add64 (rnSqrt 9 vh) q.eps)
  (wstep w u q, m, v)
/-- lion: weight and moment. -/
def lion (w m g : Val) (q : UParams) : Val × Val :=
  (wstep w (vsign (lerp64 q.b1 m g)) q, lerp64 q.b2 m g)
/-- The element pass of factored: weight and moment from the stored statistics. -/
def factoredElem (w m rs cs rm g : Val) (q : UParams) : Val × Val :=
  let bc := if q.bias then sub64 vone (powi q.b2 q.t) else vone
  let vh := if vIsZero rm then vzero else div64 (div64 (mul64 rs cs) rm) bc
  let u := div64 g (add64 (rnSqrt 9 vh) q.eps)
  if vIsZero q.b1 then (wstep w u q, m)
  else
    let m := lerp64 q.b1 m u
    (wstep w m q, m)
/-- A decay of catch_up over the steps skipped (R218). -/
def decay (x b : Val) (q : UParams) : Val := if q.gap = 0 then x else mul64 x (powi b q.gap)
/-- The weight's decay of catch_up. -/
def decayW (w : Val) (q : UParams) : Val := decay w (sub64 vone (mul64 q.lr q.wd)) q

-- Ledger blocks (R219).

/-- Parameters of a shard's update. -/
def paramsOf (u : ShardUpd) (h : List Byte) : UParams :=
  let x := u.desc
  let v (n : Nat) : Val := decodeFmt 0 n
  let gap := if x.gated && decide (fld h 0x44 4 ≠ 0) then u.step - fld h 0x48 4 - 1 else 0
  { lr := v x.lr, b1 := v x.b1, b2 := v x.b2, eps := v x.eps, wd := v x.wd, nesterov := bit x.flags 0, bias := bit x.flags 1,
    clipf := clipFactor (bit x.flags 2) (v x.clip) (decodeFmt 9 u.norm.toNat), t := fld h 0x44 4 + gap + 1, gap := gap }

/-- A shard as its update reads it. -/
structure ShardRd where
  hdr : List Byte
  n : Nat
  rd : Nat → Nat → List Byte
  grad : Nat → Val
  rnd : Nat → Nat → Rounding

/-- The reader of a shard's update. -/
def shardRd (d : Device) (p : Nat) (u : ShardUpd) (q : UParams) : ShardRd :=
  let h := d.shardHdr p u.desc.shard
  let n := hdrElems h
  let bias := (gradTrailer d p u.desc n).1
  { hdr := h, n := n, rd := fun o k => d.hRead p u.desc.shard o k,
    grad := fun i => mul64 (gradVal u.desc bias (gradRaw d p u.desc i)) q.clipf,
    rnd := fun i role => plyRounding u.compat u.seed u.step (fld h 4 4) (4 * i + role) }
/-- First byte of a region. -/
def ShardRd.base (r : ShardRd) (o : Nat) : Nat := fld r.hdr o 4 * 64
/-- A moment or statistic. -/
def ShardRd.mom (r : ShardRd) (o i : Nat) : Val :=
  if fld r.hdr o 4 = 0 then vzero
  else
    let w := halfBytes (fld r.hdr 3 1) / 2
    decodeFmt (fld r.hdr 3 1) (fld (r.rd (r.base o + i * w) w) 0 w)
/-- A weight. -/
def ShardRd.weight (r : ShardRd) (i : Nat) : Val :=
  if fld r.hdr 0 1 = 0 then
    decodeFmt 0 (fld (r.rd (r.base 0x18 + 2 * i) 2) 0 2 * 65536 + fld (r.rd (r.base 0x1C + 2 * i) 2) 0 2)
  else elemAt (fun o k => r.rd (r.base 0x18 + o) k) (fld r.hdr 1 1) (fld r.hdr 2 1) 1 r.n 0 i

/-- A stored moment or statistic (sr to MFMT, R216). -/
def ShardRd.store (r : ShardRd) (i role : Nat) (v : Val) : Val := vround (rfmt (fld r.hdr 3 1)) (r.rnd i role) v
/-- A row or column of R rows × C columns as a fresh statistic. -/
def statNew (r : ShardRd) (q : UParams) (old : Val) (sq : List Val) (i : Nat) : Val :=
  let s := sq.foldl (fun s g => add64 s (mul64 g g)) vzero
  r.store i 3 (lerp64 q.b2 (decay old q.b2 q) (div64 s (vnat sq.length)))

/-- New row and column statistics of a factored shard. -/
def newStats (r : ShardRd) (q : UParams) : List Val × List Val :=
  let R := fld r.hdr 0xC 4
  let C := fld r.hdr 0x10 4
  ((List.range R).map (fun i => statNew r q (r.mom 0x28 i) ((List.range C).map (fun j => r.grad (i * C + j))) i),
   (List.range C).map (fun j => statNew r q (r.mom 0x2C j) ((List.range R).map (fun i => r.grad (i * C + j))) (R + j)))

/-- New weight and moments of element `i`; `rm` is the mean of the row statistics. -/
def newElem (r : ShardRd) (q : UParams) (rule : Nat) (rm : Val) (i : Nat) : Val × Val × Val :=
  let w := decayW (r.weight i) q
  let g := r.grad i
  match rule with
  | 0 => let x := sgdm w (decay (r.mom 0x20 i) q.b1 q) g q
         (x.1, x.2, vzero)
  | 1 => adamw w (decay (r.mom 0x20 i) q.b1 q) (decay (r.mom 0x24 i) q.b2 q) g q
  | 2 => let x := lion w (decay (r.mom 0x20 i) q.b2 q) g q
         (x.1, x.2, vzero)
  | _ =>
    let C := fld r.hdr 0x10 4
    let x := factoredElem w (decay (r.mom 0x20 i) q.b1 q) (r.mom 0x28 (i / C)) (r.mom 0x2C (i % C)) rm g q
    (x.1, x.2, vzero)

/-- Is a value beyond a narrow format's range once rounded, so that it saturates? -/
def saturates (code : Nat) (md : Rounding) (v : Val) : Bool :=
  let f := rfmt code
  match vround { f with le := f.le + 4096 } md v with
  | .fin _ m e => magLt f.lm f.le m e
  | _ => false

/-- Bytes of a SHORT shard's weights from element `lo` on, with the bytes from the end of the data plane to the scales as 0 (R132),
and which elements are stored saturated or as NaN. -/
def shortWrites (r : ShardRd) (lo : Nat) (ws : List Val) : List (Nat × List Byte) × List Bool :=
  let code := fld r.hdr 1 1
  let bsz := fld r.hdr 2 1
  let b := blockOf bsz
  let qs := (List.range (cdiv ws.length b)).map (fun k =>
    let vs := (ws.drop (k * b)).take b
    let z := quantize vs code (fun i => r.rnd (lo + k * b + i) 0)
    (z, if z.1 = 0xFF then vs.map (fun _ => true)
        else vs.zipIdx.map (fun v => saturates code (r.rnd (lo + k * b + v.2) 0) (vscale v.1 (127 - (z.1 : Int))))))
  let used := elemBytes code r.n
  let pad := if lo + ws.length = r.n then [(r.base 0x18 + used, List.replicate (ceil64 used - used) 0#8)] else []
  (pad ++ [(r.base 0x18 + elemBytes code lo, packElems code (qs.flatMap (fun z => z.1.2))),
    (r.base 0x18 + ceil64 (elemBytes code r.n) + lo / b, qs.map (fun z => BitVec.ofNat 8 z.1.1))], qs.flatMap (·.2))

/-- Bytes of a SPLIT shard's weights, and which are not finite. -/
def splitWrites (r : ShardRd) (lo : Nat) (ws : List Val) : List (Nat × List Byte) × List Bool :=
  let cs := ws.map (fun w => encodeFmt 0 (rn32 w))
  ([(r.base 0x18 + 2 * lo, cs.flatMap (fun c => toLe 2 (c / 65536))), (r.base 0x1C + 2 * lo, cs.flatMap (fun c => toLe 2 c))],
   ws.map (fun w => vNonfin (rn32 w)))

/-- Bytes of stored moments or statistics at a region, from index `lo`, and which are not finite. -/
def momWrites (r : ShardRd) (o lo : Nat) (vs : List Val) : List (Nat × List Byte) × List Bool :=
  let mf := fld r.hdr 3 1
  let w := halfBytes mf / 2
  if fld r.hdr o 4 = 0 then ([], [])
  else ([(r.base o + lo * w, vs.flatMap (fun v => toLe w (encodeFmt mf v)))], vs.map vNonfin)

/-- What ledger block `k` of a shard writes, and how many elements it stores non-finite or saturated, each counted once (R216). -/
def blockWrites (r : ShardRd) (q : UParams) (x : UDesc) (k : Nat) : List (Nat × List Byte) × Nat :=
  if x.rule = 3 && k = 0 then
    let s := newStats r q
    let a := momWrites r 0x28 0 s.1
    let b := momWrites r 0x2C 0 s.2
    (a.1 ++ b.1, ((a.2 ++ b.2).filter id).length)
  else
    let lo := 4096 * (if x.rule = 3 then k - 1 else k)
    let R := fld r.hdr 0xC 4
    let rm := if x.rule = 3 then div64 ((List.range R).foldl (fun a i => add64 a (r.mom 0x28 i)) vzero) (vnat R) else vzero
    let es := (List.range (min 4096 (r.n - lo))).map (fun i => newElem r q x.rule rm (lo + i))
    let ws := es.map (·.1)
    let w := if fld r.hdr 0 1 = 0 then splitWrites r lo ws else shortWrites r lo ws
    let m := if x.rule = 3 && vIsZero q.b1 then ([], []) else momWrites r 0x20 lo (es.zipIdx.map (fun e => r.store (lo + e.2) 1 e.1.2.1))
    let v := if x.rule = 1 then momWrites r 0x24 lo (es.zipIdx.map (fun e => r.store (lo + e.2) 2 e.1.2.2)) else ([], [])
    (w.1 ++ m.1 ++ v.1, ((List.range es.length).filter (fun i => w.2.getD i false || m.2.getD i false || v.2.getD i false)).length)

/-- Ledger blocks of a shard. -/
def blockCount (x : UDesc) (n : Nat) : Nat := cdiv n 4096 + (if x.rule = 3 then 1 else 0)

/-- Does an open lease hold the start of a shard's update (R225)? -/
def Device.leased (d : Device) (p : Nat) (u : ShardUpd) : Bool := decide (u.block = 0) && d.leaseHolds p u.step u.desc.shard

/-- The staged block of a shard's update. -/
def Device.stagedOf (d : Device) (p : Nat) (u : ShardUpd) : Option Staged := (d.stack u.eng).staged.find? (Staged.of p u.desc.shard)
/-- Steps 1 and 2 of R219: the next block of an update is computed and staged, if its engine is ON, under no check (R371) and has room (32 blocks), no lease
holds it and its stacks serve. -/
def stageBlock (p : Nat) (u : ShardUpd) (d : Device) : Device :=
  let h := u.desc.shard
  let bs := (d.stack u.eng).staged
  if (d.stagedOf p u).isSome || d.leased p u || !d.domOn (32 + u.eng) || d.outOfService [7] u.eng || decide (32 ≤ bs.length) ||
     !d.reachAll p [h, u.desc.gH] then d
  else
    let q := paramsOf u (d.shardHdr p h)
    let w := blockWrites (shardRd d p u q) q u.desc u.block
    setStaged d u.eng (bs ++ [{ part := p, shard := h, step := u.step, block := u.block, writes := w.1, nonfin := w.2,
                                overflow := decide (u.desc.rule = 3) && decide (u.block = 0) }])
/-- Blocks of the partition's updates are staged as far as they can be. -/
def stageAll (p : Nat) (d : Device) : Device := (d.part p).updates.foldl (fun d u => stageBlock p u d) (landParked p d)

/-- The last block is written: STEPS, LAST_STEP, GEN, INST, and LEDGER_MARK back to 0. -/
def finishShard (p : Nat) (u : ShardUpd) (t : Nat) (d : Device) : Device :=
  let h := u.desc.shard
  let d := hdrWrite (hdrWrite (hdrWrite (bumpGen d p h) p h 0x44 4 t) p h 0x48 4 u.step) p h 0x50 4 0
  let d := hdrWrite d p h 0x58 2 u.desc.inst
  let d := d.modPart p (fun P => { P with updates := dropFirst (fun v => decide (v.desc.shard = h)) P.updates })
  commitReady p 4 (setPending d p)

-- The decision of a step (R213).

/-- On COMMIT every descriptor that is not skipped begins its update, parked sums land as soon as they can, and the step waits for its
commit; with a torn step before it no commit follows (R213, R220). The first blocks are staged. -/
def startUpdates (r : GaugeRes) (p : Nat) (d : Device) : Device :=
  let P := d.part p
  let d := ((P.parked.map (fun q => (q.shard, q.stack))).dedup).foldl (fun d q => d.inc (fParked q.2)) d
  let d := landParked p (d.modPart p (fun P => { P with parked := P.parked.map (fun q => { q with due := true }) }))
  let xs := P.descs.filter (fun x => !P.gatedSkips x)
  let d := (xs.filter (fun x => !x.isRes)).foldl (fun d x =>
    let e := pickEngine d p x.shard
    e.2.modPart p (fun P => { P with updates := P.updates ++ [{ desc := x, step := r.step, norm := r.norm, block := 0, eng := e.1, seed := P.seed, compat := P.compat }] })) d
  let d := d.modPart p (fun P =>
   { P with
    resFlips := if P.tornStep.isSome then P.resFlips else P.resFlips ++ (xs.filter (·.isRes)).map (fun x => (r.step, x.shard)),
    uncommitted := if P.tornStep.isSome then P.uncommitted else P.uncommitted ++ [(r.step, P.jobId)] })
  let d := refuseDoms d ((d.part p).updates.map (fun u => 32 + u.eng)) Refuser.upd.num
  stageAll p (commitReady p 4 (setPending d p))

/-- NEXT_STEP advances past a step skipped with DATA, once the step before has ended (R32). -/
def skipAdvance (d : Device) (p s : Nat) : Device :=
  let P := d.part p
  if P.uncommitted = [] && P.tornStep.isNone then
    d.modPart p (fun P => { P with job := P.job.map (fun j => { j with nextStep := (s + 1) % 2 ^ 32 }) })
  else d

/-- The step is decided once the device's own contribution and every message are there; a non-data cause from another device
is PEER_FAULT (Table 2-12). -/
def tryDecide (p : Nat) (d : Device) : Device :=
  let P := d.part p
  let ms := (List.range P.devCount).filterMap P.gaugeOf
  if !P.contrib || P.result.isSome || decide (ms.length ≠ P.devCount) || !P.isRunning then d
  else
    let r := gaugeOutcome P.step ms
    let d := d.modPart p (fun P => { P with result := some r, gauges := P.gauges.filter (fun m => decide (P.step < m.step.toNat)) })
    let d := ((((d.wr (fGaugeStep p) r.step).wr (fGaugeFlagged p) r.flagged).wr (fGaugeCause p) r.firstCause).wr (fGaugeOut p)
      r.outcome.code).wr (fGaugeNorm p) r.norm.toNat
    let d := (List.range P.ltCount).foldl (fun d l => finishUpd r p l d) d
    match r.outcome with
    | .commit => startUpdates r p d
    | .skipData => skipAdvance (d.modPart p (fun P => { P with parked := P.parked.filter (·.due) })) p r.step
    | .skipFault =>
      let d := d.modPart p (fun P => { P with parked := P.parked.filter (·.due) })
      if ms.any (fun m => decide (m.cause ≠ 0) && decide (m.srcDev.toNat ≠ P.devId)) then recordFault d p .peerFault else d

/-- GAUGE: a message of the open job for this step or the next is held, once per device (R210). -/
def gaugeMsg (m : GaugeMsg) (d : Device) : Device :=
  let p := m.part.val
  let P := d.part p
  let s := m.step.toNat
  if P.job.isNone || decide (P.jobId ≠ m.jobId) || decide (P.devCount ≤ m.srcDev.toNat) || decide (s < P.step) ||
     decide (P.step + 1 < s) || (decide (s = P.step) && P.result.isSome) ||
     P.gauges.any (fun g => decide (g.step = m.step) && decide (g.srcDev = m.srcDev)) then d
  else tryDecide p (d.modPart p (fun P => { P with gauges := P.gauges ++ [m] }))
/-- GAUGE -/
def execGauge (m : GaugeMsg) (s : State) : Host.Outcome State Fault Refusal := onDev (gaugeMsg m) s

-- Writing blocks.

/-- Steps 3 to 5 of R219: the staged block is written, the mark advances, the block is released, and the next one is staged. -/
def writeBlock (p : Nat) (u : ShardUpd) (b : Staged) (d : Device) : Device :=
  let h := u.desc.shard
  let hd := d.shardHdr p h
  let d := (b.writes.foldl (fun d x => d.hStore p h x.1 x.2) d).inc fNonfin b.nonfin
  let d := hdrWrite (hdrWrite d p h 0x4C 4 u.step) p h 0x50 4 (u.block + 1)
  let d := dropStaged (d.inc (fUpdBlocks u.eng)) p h
  if u.block + 1 = blockCount u.desc (hdrElems hd) then finishShard p u (paramsOf u hd).t d
  else
    let v := { u with block := u.block + 1 }
    stageBlock p v (d.modPart p (fun P => { P with updates := replaceFirst (fun w => decide (w.desc.shard = h)) (fun _ => v) P.updates }))

/-- Does engine `g` of partition `p` do work that goes before updates, moves, copies and patrol: a row repair, a tile's save or restore
(R271)? Or is it under check (R371)? -/
def Device.engineHeld (d : Device) (p g : Nat) : Bool :=
  d.engineRepairs p g || (List.range 32).any (fun x => d.saving x && decide (d.engineOf p x = g))
/-- Has an engine a block to write of an update that no lease holds? -/
def Device.engineUpdates (d : Device) (p g : Nat) : Bool := (d.part p).updates.any (fun u => decide (u.eng = g) && !d.leased p u)
/-- Are the engines of some stacks free for tier moves and copies, which come after repairs and updates (R271)? -/
def Device.enginesFree (d : Device) (p : Nat) (xs : List Nat) : Bool :=
  xs.all (fun x => let g := d.engineOf p x
                   !d.engineHeld p g && !d.engineUpdates p g)
/-- Must a shard's engine do other work first: work of higher priority, or an update given to it before this one (R271)? -/
def Device.engineBusy (d : Device) (p : Nat) (u : ShardUpd) : Bool :=
  d.engineHeld p u.eng ||
  ((d.part p).updates.takeWhile (fun v => decide (v.desc.shard ≠ u.desc.shard))).any (fun v => decide (v.eng = u.eng) && !d.leased p v)

/-- The next block of a shard's oldest update. -/
def ledgerWrite (p h : Nat) (d : Device) : Device :=
  match (d.part p).updates.find? (fun u => decide (u.desc.shard = h)) with
  | none => d
  | some u =>
    if d.leased p u || d.engineBusy p u then d
    else
      let d := stageBlock p u d
      match (if d.reachAll p [h, u.desc.gH] then d.stagedOf p u else none) with
      | some b => writeBlock p u b d
      | none => (u.eng :: (d.part p).stacksOf h ++ (d.part p).stacksOf u.desc.gH).foldl (fun d x => wakeUpd d p x) d

end Sys2Proof.Machine
end

