-- ==== Sys2Proof/Machine/Power.lean ====
section
/-! DEFINITION. Power domains (R336 to R348): who asks for an entry, who refuses it, the entry's steps with their abort
points, the exit's phases, and the power cap (R350, R351). -/
namespace Sys2Proof.Machine

-- What a domain is.

/-- Is the domain a tile, a stack, a port (Table 13-1)? -/
def isTileDom (n : Nat) : Bool := decide (n < 32)
/-- Stack domain. -/
def isStackDom (n : Nat) : Bool := decide (32 ≤ n) && decide (n < 64)
/-- Port domain. -/
def isPortDom (n : Nat) : Bool := decide (64 ≤ n) && decide (n < 72)
/-- Fabric domain. -/
def isFabDom (n : Nat) : Bool := decide (74 ≤ n) && decide (n < 78)

/-- Domains of a self-test target (Table 15-7); X0 and X1 are never left. -/
def bistDoms (kind idx : Nat) : List Nat :=
  if kind = 0 then [idx] else if kind = 1 then [32 + idx] else if kind = 3 then [64 + idx] else if kind = 4 then [74 + idx]
  else []

/-- Partition of a tile's or stack's column, if any. -/
def Device.partOf (d : Device) (n : Nat) : Option Nat :=
  if n < 32 then (d.tile n).part
  else if d.rd (fSAssigned (n - 32)) = 1 then some (d.rd (fSPart (n - 32))) else none

/-- Is a work item of the partition queued or running? -/
def Part.busy (P : Part) : Bool := !P.wis.isEmpty
/-- Is a work item of the partition about to start? -/
def Part.starting (P : Part) : Bool := !P.isRunning && !P.wis.isEmpty
/-- Does any partition have an open job? -/
def Device.anyJob (d : Device) : Bool := (List.range 8).any (fun p => (d.part p).job.isSome)

/-- A logical tile is blocked in SYNC.WAIT or CTL.SEAM. -/
def LTile.blocked (t : LTile) : Bool :=
  match t.block with
  | .wait .. => true
  | .seam _ => true
  | _ => false

/-- Every logical tile hosted on the tile is blocked (Table 13-2). -/
def Device.tileBlocked (d : Device) (t : Nat) : Bool :=
  match (d.tile t).part with
  | none => false
  | some p => (d.tile t).hosted.all (fun l => (d.lt p l).blocked)
/-- The last PWR.HINT of the running logical tile was IDLE. -/
def Device.tileHinted (d : Device) (t : Nat) : Bool :=
  match (d.tile t).part with
  | none => false
  | some p => (d.lt p (d.tile t).run).hinted

/-- Every unit of the tile is idle and its arrays have ramped down (R339). -/
def Device.tileIdle (d : Device) (t : Nat) : Bool :=
  decide ((d.tile t).level = 0) &&
  (match (d.tile t).part with
   | none => true
   | some p => (d.tile t).hosted.all (fun l => (d.lt p l).quiet))

-- Requests (R338).

/-- Target state of a request: 1 RET, 2 OFF. -/
def entryTarget (d : Device) : Requester → Nat
  | .workItemEnd => if d.rd fTileOffEn = 1 then 2 else 1
  | .placementOff => 2
  | .security => 2
  | .portDisable => 2
  | _ => 1

/-- Is a message in flight on the mesh: a post that a tile has issued and that has not arrived (R48, R338)? -/
def Device.meshBusy (d : Device) : Bool := d.lts.any (fun e => decide (e.2.posts ≠ []))
/-- Does the requester ask for an entry of domain `n` now (Table 13-2)? -/
def asks (d : Device) (n : Nat) : Requester → Bool
  | .hint => isTileDom n && d.tileBlocked n && d.tileHinted n && decide (d.rd fHintEn = 1)
  | .tileIdle => isTileDom n && d.tileBlocked n && !d.tileHinted n && decide (d.rd fTileIdle ≠ 0)
  | .workItemEnd => isTileDom n && (match d.partOf n with
      | none => false
      | some p => !(d.part p).busy)
  | .placementRet => isStackDom n && decide (d.rd (fSDormant (n - 32)) = 1)
  | .stackIdle => isStackDom n && decide (d.rd fStackIdle ≠ 0) && (match d.partOf n with
      | none => false
      | some p => !(d.part p).busy)
  | .placementOff => (isTileDom n && ((d.partOf n).isNone || (d.tile n).retired)) ||
      (isStackDom n && (((d.partOf n).isNone && !(d.stack (n - 32)).scrubbing) || decide (d.rd (fSRetired (n - 32)) = 1)))
  | .security => isTileDom n && ((decide (d.rd fMode = 1) && decide (3 ≤ d.rd fPassStep)) || (d.dom n).changing ||
      (match d.partOf n with
       | none => false
       | some p => decide (d.rd (fPartState p) = 1)))
  | .portIdle => isPortDom n && decide (d.rd (fAllowRet (n - 64)) = 1) && decide (d.rd fPortIdle ≠ 0)
  | .portDisable => isPortDom n && decide (d.rd (fEnable (n - 64)) = 0)
  | .fabricIdle => isFabDom n && (List.range 64).all (fun k => decide (d.rd (fDom k) = 1) || decide (d.rd (fDom k) = 2)) && !d.meshBusy

/-- Requests that are never dropped (R340). -/
def insists : Requester → Bool
  | .placementOff => true
  | .security => true
  | _ => false

-- Refusals (R340, R288).

/-- Does a check or self-test involve the domain (R371)? -/
def Device.checking (d : Device) (n : Nat) : Bool :=
  d.checks.any (fun c => c.running && decide (c.req.domain = some n)) ||
  (match d.bist with
   | none => false
   | some b => b.targets.any (fun t => (bistDoms t.1 t.2).contains n))

/-- Is another port of the same plane ON with its link UP? -/
def Device.planeKept (d : Device) (n : Nat) : Bool :=
  (List.range 8).any (fun m => decide (m ≠ n) && decide (m / 4 = n / 4) && !d.isDirect m && d.domOn (64 + m) && decide (d.rd (fLink m) = 2))

/-- The device as it would be with the port kept: one on its way out of ON counts as ON and advertised up to its last abort point. -/
def Device.keepPort (d : Device) (n : Nat) : Device :=
  if d.rd (fDom (64 + n)) = 3 && decide (d.rd (fDomStep (64 + n)) ≤ 3) then (d.wr (fDom (64 + n)) 0).wr (fAdvertised n) 1 else d
/-- Is the port, which leaves ON if the entry goes on, the only usable one of a flow that has packets to send: OPENING, OPEN or CLOSING
(Table 11-9)? -/
def Device.onlyPath (d : Device) (n : Nat) : Bool :=
  let d := d.keepPort n
  d.flows.any (fun e => (decide (e.2.st = .opening) || decide (e.2.st = .opened) || decide (e.2.st = .closing)) && !(d.paths e.2).isEmpty && (d.paths e.2).all (fun k => decide (pathPort k = n)))

/-- Does a tier move of a seam involve the stack: one that the handle leaves, or a ready one (R222)? -/
def Part.moves (P : Part) (x : Nat) : Bool := P.moving.any (fun m => (P.stacksOf m.1).contains x) || (decide (P.moving ≠ []) && (unitsOf P.cols).contains x)
/-- Does the domain's fabric node hold a message not yet delivered: posts for a tile; for a stack, segments of a cable or requests of
a host that wait for it (R346)? -/
def Device.undelivered (d : Device) (n : Nat) : Bool :=
  if n < 32 then decide ((d.dom n).posts ≠ [])
  else match d.partOf n with
    | none => false
    | some p =>
      let P := d.part p
      P.links.any (fun k => decide (k.stall ≠ []) && (P.stacksOf (bits k.as.toNat 63 32)).contains (n - 32)) ||
      P.waitReqs.any (fun q => decide (5 ≤ q.typ) && (P.stacksOf (fld (d.openReq q).body 0 4)).contains (n - 32))

/-- The first refuser of Table 13-3 that holds for an entry of domain `n` to a target, asked for by `who`. DESIGN CHOICE (log 154): a tier
move counts against PLACE with the SPREAD granules that it relocates, which R260 makes a part of it. -/
def refuser (d : Device) (n target : Nat) (who : Requester) : Option Refuser :=
  let P := d.part ((d.partOf n).getD 0)
  if isPortDom n then
    if (d.anyJob && !d.isDirect (n - 64) && !d.planeKept (n - 64)) || d.onlyPath (n - 64) then some .net else none
  else if isFabDom n then (if asks d n .fabricIdle then none else some .net)
  else if (target = 1 && (d.dom n).changing) || (d.rd fMode = 1 && target ≠ 2) then some .sec
  else if d.checking n || d.staged.any (fun r => decide (r.domain = some n)) then some .ras
  else if isStackDom n && ((d.pausedCh (n - 32)) ≠ [] || (d.stack (n - 32)).repair.isSome || (d.stack (n - 32)).scrubbing) then some .mem
  else if d.undelivered n then some .net
  else if (isTileDom n && (d.tile n).switching) || (isStackDom n && (d.saving (n - 32) || ((d.partOf n).isSome && P.moves (n - 32)))) ||
      ((d.partOf n).isSome && P.starting) then some .place
  else if isStackDom n && (decide ((d.stack (n - 32)).staged ≠ []) || P.parked.any (fun q => decide (q.area = n - 32) || decide (q.stack = n - 32)) ||
      (List.range 8).any (fun p => (d.part p).updates.any (fun u => decide (u.eng = n - 32)))) then some .upd
  else if !insists who && bit (d.reg (if target = 1 then 0x10018 else 0x10020)).toNat n then some .mgt
  else if isTileDom n && (!d.tileIdle n || decide (0 < (d.tile n).holdCyc) || (d.tile n).ramping) then some .prog
  else none

/-- A refusal is counted once against its refuser: in the accounting registers of a tile or stack (Table 13-14), or by the port (R288). -/
def countRefusal (d : Device) (n : Nat) (r : Refuser) : Device :=
  if n < 64 then d.inc (fRefused n r)
  else if isPortDom n then d.modPort (n - 64) (fun x => { x with refused := min 0xFFFF (x.refused + 1) })
  else d
/-- An aborted entry is counted. -/
def countAbort (d : Device) (n : Nat) (r : Refuser) : Device := if n < 64 then d.inc (fAborted n r) else d

/-- Refuser that a wake source counts against (Table 13-6). -/
def wakeRefuser (code : Nat) : Option Refuser :=
  match code with
  | 1 => some .prog
  | 2 => some .place
  | 3 => some .prog
  | 4 => some .mem
  | 5 => some .mem
  | 6 => some .upd
  | 7 => some .place
  | 12 => some .ras
  | 13 => some .sec
  | _ => none

-- Registers of a domain that is not ON (Table 13-14).

/-- TILE_AG of tile `t`, group `g` (R153): the group of the logical tile that runs, else of LT_A. -/
def Device.agWord (d : Device) (t g : Nat) : Word :=
  match (d.tile t).part with
  | none => 0
  | some p =>
    match (if (d.part p).isRunning then (d.tile t).hosted.find? (fun m => decide (m = (d.tile t).run)) else (d.tile t).hosted.head?) with
    | none => 0
    | some l => match tget none (d.lt p l).groups g with
    | none => 0
    | some x =>
      let bound := (d.part p).links.any (fun k => k.relay && decide (k.lt = l) && decide (k.ag = g) && decide (k.gid = x.oid))
      let flag (b : Bool) (k : Nat) : Nat := if b then 2 ^ k else 0
      BitVec.ofNat 64 ((BitVec.ofInt 32 x.bias).toNat * 2 ^ 32 + x.m * 2 ^ 21 + x.recomp * 2 ^ 19 + flag x.gauge 18 + flag bound 17 +
        x.acc * 2 ^ 16 + flag x.init 15 + 2 ^ 14 + ((d.lt p l).passes.filter (fun q => decide (q.ag = g))).length)
/-- Work requests that wait for a stack's Purl engine (Table 10-7): a row-repair copy, parts of cables, a scratchpad's save or restore,
updates, tier moves, a swatch copy, a zeroing scrub. -/
def Device.purlQueue (d : Device) (x : Nat) : Nat :=
  (if (d.stack x).repair.isSome then 1 else 0) + ((List.range 32).filter (fun t => (d.tile t).switching && decide (d.saveStack t = x))).length + (if (d.stack x).scrubbing then 1 else 0) +
  ((List.range 8).map (fun p =>
    let P := d.part p
    (P.updates.filter (fun u => decide (u.eng = x))).length +
    ((P.links.filter (fun k => (P.stacksOf (bits k.as.toNat 63 32)).contains x)).map (fun k => k.stall.length)).sum +
    (P.moving.filter (fun m => (P.stacksOf m.1).contains x)).length +
    (if P.swatch.state = .copying && P.swatch.handles.any (fun h => (P.stacksOf h).contains x) then 1 else 0))).sum
/-- A register of the tile or stack block of domain `n` as it stands, at offset `o` of the block. -/
def Device.blockReg (d : Device) (n o : Nat) : Word :=
  if n < 32 then (if 0x300 ≤ o && o < 0x380 then d.agWord n ((o - 0x300) / 8) else d.reg (tileReg n o))
  else if o = 0x18 then putBits (d.reg (stkReg (n - 32) o)) 7 0 (min 255 (d.purlQueue (n - 32)))
  else d.reg (stkReg (n - 32) o)
/-- First address of the block of domain `n`. -/
def blockBase (n : Nat) : Nat := if n < 32 then tileReg n 0 else stkReg (n - 32) 0
/-- The registers of a domain's block that are not 0 as they stand, by offset. -/
def Device.block (d : Device) (n : Nat) : Tab Word :=
  let b := blockBase n
  let os := (d.regs.filter (fun e => decide (b ≤ e.1) && decide (e.1 < b + 0x10000))).map (fun e => e.1 - b)
  (os ++ (if n < 32 then 0x100 :: (List.range 16).map (fun g => 0x300 + 8 * g) else [0x8, 0x18])).foldl
    (fun t o => tset 0 t o (d.blockReg n o)) []
/-- When an entry of a domain that is ON begins, its registers read from then on as they stand (Table 13-14). -/
def freeze (d : Device) (n : Nat) : Device :=
  if n < 64 && d.domOn n then d.modDom n (fun x => { x with shown := some (d.block n) }) else d

-- Entry (R341, R342).

/-- What refuses a port's entry has changed: the condition is recorded for each port on its way out of ON (R288, R342). -/
def notePorts (d : Device) : Device :=
  refuseDoms d (((List.range 8).filter (fun n => decide (d.rd (fDom (64 + n)) = 3) && decide (d.rd (fDomStep (64 + n)) ≤ 3) &&
    (refuser d (64 + n) (d.rd (fTarget (64 + n))) .hint).isSome)).map (64 + ·)) Refuser.net.num

/-- Step 1 of an entry begins; a port stops advertising (R288). A domain in RET that goes OFF only loses its supply
(step 5). An OFF that Placement or Security has asked for waits on behind an entry to RET (R340). -/
def startEntry (d : Device) (n target : Nat) : Device :=
  let st := if d.rd (fDom n) = 1 then 5 else 1
  let d := (freeze d n).modDom n (fun x =>
    { x with wake := none, refuse := none, want := if target ≠ 2 && x.want.any (fun w => insists w.2) then x.want else none, thenOff := false })
  let d := (((d.wr (fDom n) 3).wr (fDomStep n) st).wr (fTarget n) target)
  if isPortDom n then notePorts ((d.wr (fAdvertised (n - 64)) 0).modPort (n - 64) (fun x => { x with draining := true })) else d

/-- A request for domain `n` is tested (R340, R344): started, refused and counted, or left waiting. -/
def requestEntry (n : Nat) (who : Requester) (d : Device) : Device :=
  let target := entryTarget d who
  let st := d.rd (fDom n)
  let keep (d : Device) : Device := d.modDom n (fun x =>
    { x with want := if x.want.any (fun w => insists w.2) && !insists who then x.want else some (target, who) })
  if !asks d n who then d
  else if st = 2 || (st = 1 && target = 1) then d
  else if st = 3 then
    if d.rd (fDomStep n) = 6 || insists who then keep d else d
  else match refuser d n target who with
    | some r => keep (countRefusal d n r)
    | none => startEntry d n target

/-- POWER_ENTRY_REQUEST -/
def execPowerEntryRequest (n : Fin 80) (who : Requester) (s : State) : Host.Outcome State Fault Refusal :=
  onDev (requestEntry n who) s
/-- TILE_IDLE_TIMER: an unhinted blocked tile asks for RET. -/
def execTileIdleTimer (t : Fin 32) (s : State) : Host.Outcome State Fault Refusal := onDev (requestEntry t .tileIdle) s
/-- STACK_IDLE_TIMER: a stack without access asks for RET. -/
def execStackIdleTimer (x : Fin 32) (s : State) : Host.Outcome State Fault Refusal := onDev (requestEntry (32 + x) .stackIdle) s
/-- PORT_IDLE_TIMER: a port without packets asks for RET. -/
def execPortIdleTimer (n : Fin 8) (s : State) : Host.Outcome State Fault Refusal := onDev (requestEntry (64 + n) .portIdle) s

/-- A request that waits is tested again; it is forgotten when its requester no longer asks (R340). -/
def reevaluate (n : Nat) (d : Device) : Device :=
  match (d.dom n).want with
  | none => d
  | some (_, who) =>
    if d.rd (fDom n) = 3 then d
    else requestEntry n who (d.modDom n (fun x => { x with want := none }))
/-- REFUSAL_REEVALUATE -/
def execRefusalReevaluate (n : Fin 80) (s : State) : Host.Outcome State Fault Refusal := onDev (reevaluate n) s

/-- An entry is abandoned: the domain is ON with its contents, the posts its fabric node held are applied (R346), and a request that may not
be dropped waits on. -/
def abandon (d : Device) (n : Nat) (r : Option Refuser) : Device :=
  let target := d.rd (fTarget n)
  let d := match r with
    | none => d
    | some r => countAbort d n r
  let d := ((d.wr (fDom n) 0).wr (fDomStep n) 0).wr (fTarget n) 0
  let who : Requester := if asks d n .security then .security else .placementOff
  let again := target = 2 && asks d n who
  let d := d.modDom n (fun x =>
    { x with wake := none, refuse := none, shown := none, want := if again && x.want.isNone then some (2, who) else x.want })
  if isPortDom n then
    (d.wr (fAdvertised (n - 64)) (if d.rd (fLink (n - 64)) = 2 then 1 else 0)).modPort (n - 64) (fun x => { x with draining := false })
  else applyPosts d n

/-- The arrays of a tile without current. -/
def PTile.idle (x : PTile) : PTile := { x with level := 0, gap := 256, holdCyc := 0, ramping := false, release := false }

/-- Contents that a domain loses in a state (Table 13-1): OFF loses everything, RET only what
the weight store holds. A staged block that is lost with its base die's power tears its shard (R220, R270). -/
def loseContents (d : Device) (n target : Nat) : Device :=
  if target ≠ 2 then
    (match (if isTileDom n then (d.tile n).part else none) with
     | none => d
     | some p => (d.tile n).hosted.foldl (fun d l => d.modLt p l LTile.noWeights) d)
  else if isTileDom n then
    let d := d.modTile n PTile.idle
    match (d.tile n).part with
    | none => d
    | some p => (d.tile n).hosted.foldl (fun d l =>
        { (d.setLt p l LTile.reset) with spad := mclear d.spad (spKey p l 0) spadSize }) d
  else if isStackDom n then
    let d := (d.stack (n - 32)).staged.foldl (fun d b => tearShard d b.part b.shard) d
    ((d.wr (fTrain (n - 32)) 0).wr (fStaged (n - 32)) 0).modStack (n - 32) (fun x => { x with clean := true, staged := [] })
  else if isPortDom n then (d.wr (fLink (n - 64)) 0).wr (fFecLock (n - 64)) 0
  else d

/-- The target state is reached: counted; then a partition change takes the domain on to OFF, or a recorded wake starts an
exit (R317, R342). -/
def enterDone (d : Device) (n : Nat) : Device :=
  let target := d.rd (fTarget n)
  let x := d.dom n
  let d := (((d.wr (fDom n) target).wr (fDomStep n) 0).wr (fDomReady n) 0).inc (fEntries n)
  let d := (loseContents d n target).modDom n (fun x => { x with changing := x.changing && decide (target ≠ 2) })
  let d := if isPortDom n then d.modPort (n - 64) (fun x => { x with draining := false }) else d
  if x.thenOff && target = 1 then (startEntry d n 2).modDom n (fun y => { y with wake := x.wake })
  else match x.wake with
    | some c => startExit d n c
    | none => reevaluate n d

/-- ENTRY_STEP_DONE: the step under way ends; after steps 1 to 3 lie the abort points. A port's drain ends with
PORT_DRAIN_DONE first. -/
def entryStep (n : Nat) (d : Device) : Device :=
  let s := d.rd (fDomStep n)
  if s = 0 || 5 < s || (s = 1 && isPortDom n && (d.port (n - 64)).draining) then d
  else if s = 5 then enterDone d n
  else if s = 4 then d.wr (fDomStep n) 5
  else
    let x := d.dom n
    let firm := d.rd (fTarget n) = 2 && (asks d n .placementOff || asks d n .security)
    match x.wake, x.refuse with
    | some c, _ => abandon d n (wakeRefuser c)
    | none, some r => abandon d n (some (Refuser.ofNum r))
    | none, none =>
      match refuser d n (d.rd (fTarget n)) (if firm then .placementOff else .hint) with
      | some r => abandon d n (some r)
      | none => d.wr (fDomStep n) (s + 1)

/-- A domain goes OFF at once and loses what it holds, posts held for it too. -/
def forceOff (d : Device) (n : Nat) : Device :=
  if d.rd (fDom n) = 2 then d
  else
    let d := freeze d n
    let d := ((((d.wr (fDom n) 2).wr (fDomStep n) 0).wr (fDomReady n) 0).wr (fTarget n) 0).inc (fEntries n)
    let d := if isPortDom n then (d.wr (fAdvertised (n - 64)) 0).modPort (n - 64) (fun x => { x with draining := false }) else d
    let d := (loseContents d n 2).modDom n (fun x => { x with posts := [], wake := none, refuse := none, thenOff := false, changing := false })
    if isPortDom n then notePorts d else d

/-- The assignment of a tile or stack domain to partitions changes (R317, R348): RET is refused from now on; a RET entry under way counts a
refusal against SEC (R332), and is abandoned before its last abort point, else the domain goes on to OFF, whatever woke it before; an entry to
OFF goes on to it, whatever woke the domain in its former partition. A domain already OFF counts as having passed through OFF. -/
def changeDomain (d : Device) (n : Nat) : Device :=
  if d.rd (fDom n) = 2 then d
  else
    let d := d.modDom n (fun x => { x with changing := true })
    if d.rd (fDom n) = 3 && d.rd (fTarget n) = 2 && d.rd (fDomStep n) ≠ 6 then d.modDom n (fun x => { x with wake := none })
    else if d.rd (fDom n) = 3 && d.rd (fTarget n) = 1 && d.rd (fDomStep n) ≠ 6 then
      let d := countRefusal d n .sec
      if d.rd (fDomStep n) ≤ 3 then
        d.modDom n (fun x => if x.wake.isNone && x.refuse.isNone then { x with refuse := some Refuser.sec.num } else x)
      else d.modDom n (fun x => { x with thenOff := true, wake := none })
    else d

-- Exit (R343).

/-- Memory ready: a stack's channels are trained (R268). DESIGN CHOICE (log 129): this training does not count in RETRAINS. -/
def trained (d : Device) (x : Nat) : Device := d.wr (fTrain x) 2

/-- Logic ready: the domain is ON; posts held for a tile are applied in order (R346), a port advertises again, and an
entry request that waited is evaluated (R344). -/
def exitDone (d : Device) (n : Nat) : Device :=
  let d := applyPosts ((((d.wr (fDom n) 0).wr (fDomStep n) 0).wr (fTarget n) 0).modDom n (fun x => { x with shown := none })) n
  let d := if isPortDom n && d.rd (fLink (n - 64)) = 2 then d.wr (fAdvertised (n - 64)) 1 else d
  reevaluate n d

/-- Is a fabric domain not ON: on its way back, or still to abandon or end an entry whose wake is recorded? The fabric wakes before any
tile or stack, and its exit adds to theirs (R345). -/
def Device.fabricExits (d : Device) : Bool := (List.range 4).any (fun k => !d.domOn (74 + k))
/-- EXIT_PHASE_DONE: regulator ready, oscillator lock, memory ready, logic ready, in order; a tile's or stack's exit follows that
of the fabric. -/
def exitPhase (n : Nat) (d : Device) : Device :=
  if d.rd (fDomStep n) ≠ 6 || (decide (n < 64) && d.fabricExits) then d
  else
    let r := d.rd (fDomReady n)
    let d := d.wr (fDomReady n) (2 * r + 1)
    if r = 3 && isStackDom n then trained d (n - 32)
    else if r = 7 then exitDone d n
    else d

/-- Does a check, waiting or running, or a self-test need the domain (Table 13-6, CHECK)? -/
def Device.checkNeeds (d : Device) (n : Nat) : Bool := d.checking n || d.checks.any (fun c => decide (c.req.domain = some n))
/-- Does a wake source of Table 13-6 wake this domain? A FAILED port's link stays DOWN, and nothing of it wakes the port (R373). A column in no partition holds its tiles and stacks OFF but for scrubs and
checks (R315). -/
def sourceFits (d : Device) (n code : Nat) : Bool :=
  let off := decide (d.rd (fDom n) = 2)
  match code with
  | 0 => false
  | 1 | 2 | 3 => isTileDom n && (d.partOf n).isSome
  | 4 | 5 | 6 | 7 => isStackDom n && (d.partOf n).isSome
  | 12 => (isTileDom n || isStackDom n) && d.checkNeeds n
  | 13 => isStackDom n && (d.stack (n - 32)).scrubbing
  | 8 | 9 => isPortDom n && !off && !(d.port (n - 64)).failed
  | 10 => isPortDom n && !(d.port (n - 64)).failed
  | 11 => isFabDom n
  | _ => false

/-- WAKE_SOURCE: a source meets a domain (R344, R345); FABRIC_MSG wakes the four fabric domains at once. -/
def wakeSource (n code : Nat) (d : Device) : Device :=
  occurs (sourceFits d n code) (fun d =>
    if code = 11 then (List.range 4).foldl (fun d k => wakeOne d (74 + k) 11) d else wakeDom d n code) d
/-- WAKE_SOURCE -/
def execWakeSource (n : Fin 80) (code : Fin 14) (s : State) : Host.Outcome State Fault Refusal := onDev (wakeSource n code) s

-- The power cap (R350).

/-- The throttle level moves by one. -/
def setLevel (d : Device) (l : Nat) : Device := (d.wr fLevel l).wr fCapped (if 0 < l then 1 else 0)

/-- CAP_WINDOW: a window of 100 us ends with the averages given. The fourth window in a row below 97 % of the cap lowers
the level; a window counts only if every reading of the newest sample lies at least 3 degrees below its throttle limit, and another restarts
the count (R403; log 83). -/
def capWindow (watts vin iin : Nat) (d : Device) : Device :=
  occurs (d.domOn 79) (fun d =>
  let d := ((d.wr fPinW watts).wr fVin vin).wr fIin iin
  let cap := d.rd fCapW
  let l := d.rd fLevel
  if cap < watts then { (setLevel d (min 15 (l + 1))) with pauseLow := 0 }
  else if 100 * watts < 97 * cap && !d.warm then
    if d.pauseLow = 3 then { (setLevel d (l - 1)) with pauseLow := 0 } else { d with pauseLow := d.pauseLow + 1 }
  else { d with pauseLow := 0 }) d
/-- CAP_WINDOW -/
def execCapWindow (watts vin iin : BitVec 16) (s : State) : Host.Outcome State Fault Refusal :=
  onDev (capWindow watts.toNat vin.toNat iin.toNat) s

end Sys2Proof.Machine
end

