-- ==== Sys2Proof/Machine/Memory.lean ====
section
/-! DEFINITION. Stacks (R253 to R279): where granules lie (spread_map, channel lists, placement classes), the states of a
channel, retrains and row repairs, the patrol read and the zeroing scrub. -/
namespace Sys2Proof.Machine

-- Channel lists and the interleave map (R258, R259).

/-- Frames of a channel usable by programs (R255); those from here on are the reserved area. -/
def usableFrames : Nat := 770048
/-- Channel c of stack x in a channel list. -/
def chanNo (x c : Nat) : Nat := 32 * x + c
/-- State of channel c of stack x (Table 10-4). -/
def Device.ch (d : Device) (x c : Nat) : Nat := d.rd (fCh x c)
/-- The stack list: channels ACTIVE or PAUSED of a stack that is not retired. -/
def Device.stackList (d : Device) (x : Nat) : List Nat :=
  if d.rd (fSRetired x) = 1 then [] else ((List.range 32).filter (fun c => decide (d.ch x c < 2))).map (chanNo x)
/-- Stacks of a partition that are in the ready tier. -/
def Device.readyStacks (d : Device) (p : Nat) : List Nat :=
  (unitsOf (d.part p).cols).filter (fun x => decide (d.rd (fSDormant x) = 0))
/-- The partition list. -/
def Device.partList (d : Device) (p : Nat) : List Nat := (d.readyStacks p).flatMap d.stackList

/-- Rotation of a row in spread_map. -/
def spreadRot (row n : Nat) : Nat := plyRound 0 row 0x0000100000100001 / 2 ^ 32 % n
/-- spread_map of R258: channel and row of index g. -/
def spreadMap (list : List Nat) (g : Nat) : Nat × Nat :=
  let n := list.length
  (list.getD ((g % n + spreadRot (g / n) n) % n) 0, g / n)
/-- Frame of a row: spread rows fill upward from 0, the rows of one stack downward from 770,047. -/
def frameOf (spread : Bool) (row : Nat) : Nat := if spread then row else usableFrames - 1 - row
/-- Device address (R254). -/
def deviceAddr (x frame c byte : Nat) : Nat := x * 2 ^ 36 + frame * 65536 + c * 2048 + byte

/-- Granule of the handle that index `g` holds. -/
def segGranule (g : Nat) : Nat → List (Nat × Nat) → Option Nat
  | _, [] => none
  | o, (s, c) :: t => if s ≤ g && g < s + c then some (o + (g - s)) else segGranule g (o + c) t
/-- Index of channel `ch` in row `row` of a list, if the list has it. -/
def indexAt (list : List Nat) (ch row : Nat) : Option Nat :=
  let n := list.length
  (indexOf? (fun c => decide (c = ch)) list).map (fun j => row * n + (j + n - spreadRot row n) % n)
/-- Granule of a handle at a channel and row. -/
def Placement.granuleAt (e : Placement) (ch row : Nat) : Option Nat :=
  match indexAt e.list ch row with
  | none => none
  | some g => segGranule g 0 e.segs
/-- Rows that a placement touches. -/
def Placement.rows (e : Placement) : List Nat :=
  let n := e.list.length
  (e.segs.flatMap (fun s => (List.range ((s.1 + s.2 - 1) / n + 1 - s.1 / n)).map (s.1 / n + ·))).dedup
/-- Index that holds a granule of the handle. -/
def segIndex (gr : Nat) : List (Nat × Nat) → Option Nat
  | [] => none
  | (s, c) :: t => if gr < c then some (s + gr) else segIndex (gr - c) t
/-- Channel and frame of a granule of a handle (R259). -/
def Placement.frameAt (e : Placement) (gr : Nat) : Option (Nat × Nat) :=
  (segIndex gr e.segs).map (fun g => let m := spreadMap e.list g; (m.1, frameOf e.spread m.2))

-- The reserved area (R256).

/-- Channel and frame of a byte of a region of a stack's reserved area, mapped under the stack's own channel list. -/
def Device.reservedAt (d : Device) (x : Nat) (r : Reserved) (o : Nat) : Nat × Nat :=
  let m := spreadMap (d.stackList x) ((r.offset + o) / 2048)
  (m.1, usableFrames + m.2)
/-- Channels that hold a metadata record first placed in channel c of its stack: it is held twice (Table 10-2). -/
def metadataChans (c : Nat) : List Nat := [c, (c + 16) % 32]
/-- Region that a frame of channel c of stack x belongs to; none for a frame usable by programs. -/
def Device.regionOf (d : Device) (x c frame : Nat) : Option Reserved :=
  if frame < usableFrames then none
  else match indexAt (d.stackList x) (chanNo x c) (frame - usableFrames) with
    | none => none
    | some g => Reserved.all.find? (fun r => decide (r.offset ≤ 2048 * g) && decide (2048 * g < r.offset + r.size))

/-- Granules of a handle in a channel. -/
def Placement.inChan (e : Placement) (ch : Nat) : List Nat := if e.list.contains ch then e.rows.filterMap (e.granuleAt ch) else []

-- Placing a handle (R35 to R37, R259).

/-- Granules of a handle. -/
def HEntry.count (e : HEntry) : Nat := cdiv e.size 2048
/-- Handles of a partition with their entries. -/
def Part.entries (P : Part) : List (Nat × HEntry) := P.handles.filterMap (fun e => e.2.map (fun x => (e.1, x)))
/-- Is the placement in the space: the spread space, or one stack? -/
def Placement.inSpace (e : Placement) (spread : Bool) (x : Nat) : Bool := (e.spread == spread) && (spread || decide (e.stack = x))

/-- Indexes that a placement takes in a space seen under `list`: its own, and under another list its whole rows. -/
def takenIn (list : List Nat) (e : Placement) : List (Nat × Nat) :=
  if e.list = list then e.segs
  else e.segs ++ e.segs.map (fun s =>
    let r := s.1 / e.list.length
    (r * list.length, ((s.1 + s.2 - 1) / e.list.length + 1 - r) * list.length))
/-- Insert an interval by its start. -/
def insertIv (a : Nat × Nat) : List (Nat × Nat) → List (Nat × Nat)
  | [] => [a]
  | b :: t => if a.1 ≤ b.1 then a :: b :: t else b :: insertIv a t
/-- The lowest `need` free indexes below `lim`, as intervals, given the taken ones in ascending order. -/
def takeGaps (lim : Nat) : List (Nat × Nat) → Nat → Nat → List (Nat × Nat)
  | [], at_, need => if min need (lim - at_) = 0 then [] else [(at_, min need (lim - at_))]
  | (s, c) :: t, at_, need =>
    let k := min need (min s lim - at_)
    (if k = 0 then [] else [(at_, k)]) ++ takeGaps lim t (max at_ (s + c)) (need - k)

/-- Rows used by a list of placements. -/
def rowsUsed (es : List Placement) : Nat :=
  (es.map (fun e => (e.segs.map (fun s => (s.1 + s.2 - 1) / e.list.length + 1)).foldl max 0)).foldl max 0
/-- Placements of a partition in a space. -/
def Part.inSpace (P : Part) (spread : Bool) (x : Nat) : List Placement :=
  (P.entries.map (fun e => e.2.place)).filter (fun e => e.inSpace spread x)

/-- Rows a space may use: spread rows and the rows of a stack grow toward each other. -/
def rowLimit (P : Part) (spread : Bool) (list : List Nat) : Nat :=
  if spread then usableFrames - (((list.map (· / 32)).dedup).map (fun x => rowsUsed (P.inSpace false x))).foldl max 0
  else usableFrames - rowsUsed ((P.inSpace true 0).filter (fun e => e.list.any (fun c => decide (c / 32 = list.getD 0 0 / 32))))

/-- Place `n` granules in a space at its lowest free indexes. -/
def placeIn (P : Part) (spread : Bool) (x n : Nat) (list : List Nat) : Option Placement :=
  let taken := ((P.inSpace spread x).flatMap (takenIn list)).foldl (fun r a => insertIv a r) []
  let segs := takeGaps (rowLimit P spread list * list.length) taken 0 n
  if list ≠ [] && (segs.map (·.2)).sum = n then some { spread := spread, stack := x, list := list, segs := segs } else none

/-- Placement of a new handle by its class (R37, R259). DESIGN CHOICE (log 58): the one stack that placement chooses for a COLD-ELIGIBLE
handle is the ready stack of lowest number with room. -/
def Device.placeHandle (d : Device) (p cls lt size : Nat) : Option Placement :=
  let P := d.part p
  let n := cdiv size 2048
  let spread := placeIn P true 0 n (d.partList p)
  let one (x : Nat) : Option Placement := if d.rd (fSDormant x) = 1 then none else placeIn P false x n (d.stackList x)
  let pick (o : Option Placement) : Option Placement := match o with
    | some e => some e
    | none => spread
  if cls = 1 then
    (match d.hostOf p lt with
     | none => spread
     | some t => pick (one t))
  else if cls = 2 && size ≤ 47 * 2 ^ 30 then pick ((d.readyStacks p).findSome? one)
  else spread

/-- MEM_PART and MEM_ROWS follow the lists and handles (R279). -/
def refreshMem (d : Device) (p : Nat) : Device :=
  let P := d.part p
  let list := d.partList p
  let cap := ((unitsOf P.cols).map (fun x => (d.stackList x).length)).sum * usableFrames
  let used := (P.entries.map (fun e => e.2.count)).sum
  (((d.wr (fSpreadN p) list.length).wr (fListed p) (((list.map (· / 32)).dedup.map (2 ^ ·)).sum)).wr (fSpreadRows p)
    (rowsUsed (P.inSpace true 0))).wr (fFreeMib p) ((cap - used) / 512)

-- Channel states (R266, R267, R257).

/-- Partition of a stack. -/
def Device.stackPart (d : Device) (x : Nat) : Option Nat := d.partOf (32 + x)
/-- Refresh the partition of a stack. -/
def refreshStack (d : Device) (x : Nat) : Device :=
  match d.stackPart x with
  | none => d
  | some p => refreshMem d p
/-- A channel's state changes; the counts and lists follow. -/
def setCh (d : Device) (x c st : Nat) : Device :=
  let d := d.wr (fCh x c) st
  let n (k : Nat) : Nat := ((List.range 32).filter (fun c => decide (d.ch x c = k))).length
  refreshStack ((d.wr (fChFailed x) (n 3)).wr (fChRetiring x) (n 2)) x

/-- Granules of a handle are lost: poisoned for good, and a shard turns TORN (R267). -/
def loseGranules (p h : Nat) (gs : List Nat) (d : Device) : Device :=
  if gs = [] then d
  else
    let d := d.modPart p (fun P =>
     { P with
      poison := gs.foldl (fun t g => tput (h * 2 ^ 27 + g) true t) P.poison,
      dead := gs.foldl (fun t g => tput (h * 2 ^ 27 + g) true t) P.dead })
    if (((d.part p).entry h).map (fun e => bit e.access 3)).getD false && !d.shardTorn p h then tearShard d p h else d
/-- Every handle loses its granules in a channel. -/
def loseChan (d : Device) (p ch : Nat) : Device :=
  (d.part p).entries.foldl (fun d e => loseGranules p e.1 (e.2.place.inChan ch) d) d
/-- Parked segments are lost: of a step not decided, it is skipped with cause UE (R267); of one that commits already, the shard's update has
no gradient any more, and the shard turns TORN. DEDUCED (log 155). -/
def loseSegs (d : Device) (p : Nat) (lost : ParkedSeg → Bool) : Device :=
  let qs := (d.part p).parked.filter lost
  let d := d.modPart p (fun P => { P with parked := P.parked.filter (fun q => !lost q) })
  let d := (((qs.filter (·.due)).map (·.shard)).dedup).foldl (fun d h => if d.shardTorn p h then d else tearShard d p h) d
  if qs.any (fun q => !q.due) then recordFault d p .ue else d
/-- Parked sums in a stack's deferral area are lost. -/
def loseParked (d : Device) (p x : Nat) : Device := loseSegs d p (fun q => decide (q.area = x))

/-- A stack is retired: it holds no granule and stands in no list (R257); save areas are settled at once, or when the running work item
ends (R43). -/
def retireStack (d : Device) (x : Nat) : Device :=
  let d := d.wr (fSRetired x) 1
  match d.stackPart x with
  | none => d
  | some p =>
    let d := refreshMem (loseParked ((List.range 32).foldl (fun d c => loseChan d p (chanNo x c)) d) p x) p
    if (d.part p).isRunning then d else settleAreas d p

/-- A channel becomes FAILED (R267); the seventh retires its stack. -/
def failChan (d : Device) (x c : Nat) : Device :=
  let d := setCh d x c 3
  let d := match d.stackPart x with
    | none => d
    | some p => loseParked (loseChan d p (chanNo x c)) p x
  if 6 < d.rd (fChFailed x) && d.rd (fSRetired x) = 0 then retireStack d x else d

/-- Does any handle lie in the channel? -/
def Device.chanUsed (d : Device) (x c : Nat) : Bool :=
  match d.stackPart x with
  | none => false
  | some p => (d.part p).entries.any (fun e => e.2.place.inChan (chanNo x c) ≠ [])
/-- A RETIRING channel with no granule of any handle becomes FAILED (R266). -/
def settleChan (x c : Nat) (d : Device) : Device := if d.ch x c = 2 && !d.chanUsed x c then failChan d x c else d
/-- Every RETIRING channel of a partition's stacks that has been emptied becomes FAILED. -/
def settleChans (d : Device) (p : Nat) : Device :=
  (unitsOf (d.part p).cols).foldl (fun d x =>
    if d.rd (fChRetiring x) = 0 then d else (List.range 32).foldl (fun d c => settleChan x c d) d) d
/-- A channel turns RETIRING, unless it is already FAILED. -/
def retireChan (d : Device) (x c : Nat) : Device := if d.ch x c < 2 then settleChan x c (setCh d x c 2) else d

/-- PART of a record: the partition of the unit, no work item concerned. -/
def ERec.ofDomain (r : ERec) (d : Device) (n : Nat) : ERec :=
  match d.partOf n with
  | none => r
  | some p => { r with part := 0x80 + p }

-- Retrains (R263, R264).

/-- May a channel start a retrain? -/
def Device.mayRetrain (d : Device) (m : Margin) : Bool :=
  let x := m.stack.val
  (m.below || m.failing) && decide (d.ch x m.ch < 2) && d.domOn (32 + x) && decide (d.rd (fTrain x) = 2) && decide (d.pausedCh x = []) &&
  (match (d.stack x).repair with
   | none => true
   | some r => decide (r.1 ≠ m.ch.val))

/-- The channel of stack `x` that a window retrains: the failure limit first, then ascending. -/
def windowPick (d : Device) (ms : List Margin) (x : Nat) : Option Nat :=
  let due := ms.filter (fun m => decide (m.stack.val = x) && d.mayRetrain m)
  let low (l : List Margin) : Option Nat := l.foldl (fun r m => match r with
    | none => some m.ch.val
    | some c => some (min c m.ch.val)) none
  match low (due.filter (fun m => m.failing)) with
  | some c => some c
  | none => low due

/-- A stack is refused RET and OFF from now on: a pause, a repair or a scrub of it begins (R268; Table 13-3, MEM). -/
def refuseMem (d : Device) (x : Nat) : Device := refuseDom d (32 + x) Refuser.mem.num

/-- RETRAIN_WINDOW: the margins are reported, and in each stack at most one channel pauses. -/
def retrainWindow (ms : List Margin) (d : Device) : Device :=
  let d := ms.foldl (fun d m => if d.domOn (32 + m.stack.val) then d.wr (fMargin m.stack m.ch) m.margin.toNat else d) d
  (List.range 32).foldl (fun d x => match windowPick d ms x with
    | none => d
    | some c => refuseMem (setCh d x c 1) x) d
/-- RETRAIN_WINDOW -/
def execRetrainWindow (ms : List Margin) (s : State) : Host.Outcome State Fault Refusal := onDev (retrainWindow ms) s

/-- RETRAIN_DONE: the pause ends; the second failure in succession requests a drop check of the channel. DESIGN CHOICE (log 129): RETRAINS
counts these retrains alone, not a stack's training at an exit or a warm reset. -/
def retrainDone (x c : Nat) (ok : Bool) (d : Device) : Device :=
  if d.ch x c ≠ 1 then d
  else
    let d := (setCh d x c 0).inc (fRetrains x c)
    let n := tget 0 (d.stack x).retrainFails c + 1
    let fails (k : Nat) : Device := d.modStack x (fun s => { s with retrainFails := tset 0 s.retrainFails c k })
    if ok then fails 0
    else if n < 2 then fails n
    else errorCheck (fails 0) (({ mkRec 0 6 1 (x + 256 * c) with detail := d.rd (fMargin x c) } : ERec).ofDomain d (32 + x))
-- Row repair (R265).

/-- An entry of the repair list is committed (R376). -/
def addRepair (d : Device) (source unit : Nat) (retire : Bool) : Device :=
  let e : Repair := { source := source, unit := unit, retire := retire }
  let d : Device := { d with repairs := d.repairs ++ [e] }
  d.wr fRepairUsed d.repairs.length

/-- Has the repair list room (R376)? -/
def Device.listRoom (d : Device) : Bool := decide (d.repairs.length < 16384)
/-- A retirement is entered, while the list has room. -/
def addRetire (d : Device) (source unit : Nat) : Device := if d.listRoom then addRepair d source unit true else d
/-- A channel retires: RETIRING, or FAILED when its training failed. -/
def endChannel (d : Device) (x c : Nat) (failed : Bool) : Nat × Device :=
  let was := d.rd (fSRetired x)
  let d := addRetire d 6 (x + 256 * c)
  let d := if failed then failChan d x c else retireChan d x c
  (if was = 0 && d.rd (fSRetired x) = 1 then 8 else if d.ch x c = 3 then 6 else 5, d)

-- Words that ECC cannot correct (R267, R274).

/-- Shards whose parked sums have bytes in the 2,048 bytes from `o` on of a stack's deferral area. DESIGN CHOICE (log 135): parked segments
lie one after another from the area's start, in the order of their arrival, and close up as sums leave. -/
def Part.parkedAt (P : Part) (x o : Nat) : List Nat :=
  ((P.parked.filter (fun q => decide (q.area = x))).foldl (fun r q =>
    (r.1 + q.bytes.length, if r.1 < o + 2048 && o < r.1 + q.bytes.length then r.2 ++ [q.shard] else r.2)) ((0, []) : Nat × List Nat)).2
/-- Parked sums that a word of a deferral area meets are lost, and the step is skipped with cause UE. -/
def loseParkedAt (d : Device) (p x c frame : Nat) : Device :=
  match indexAt (d.stackList x) (chanNo x c) (frame - usableFrames) with
  | none => d
  | some g =>
    let hs := (d.part p).parkedAt x (2048 * g - Reserved.deferral.offset)
    loseSegs d p (fun q => hs.contains q.shard)
/-- An uncorrectable word poisons its granule, and tears the granule's shard (R267). In the reserved area a parked sum that it meets is
lost, and a statistics block staged there cannot be read back; a metadata record stands in its other channel. DESIGN CHOICE (log 152): the
overflow has no layout, and every shard with a block staged there is torn. DESIGN CHOICE (log 153): in a save area, swatch staging or the Purl
working area it changes nothing but the record and the counter. -/
def poisonAt (d : Device) (x c frame : Nat) : Device :=
  match d.stackPart x with
  | none => d
  | some p => match d.regionOf x c frame with
    | some .deferral => loseParkedAt d p x c frame
    | some .overflow => ((d.stack x).staged.filter (·.overflow)).foldl (fun d b => tearShard d b.part b.shard) d
    | some _ => d
    | none => (d.part p).entries.foldl (fun d e =>
      let row := if e.2.place.spread then frame else usableFrames - 1 - frame
      match (if frame < usableFrames then e.2.place.granuleAt (chanNo x c) row else none) with
      | none => d
      | some g =>
        let d := d.modPart p (fun P => { P with poison := tput (e.1 * 2 ^ 27 + g) true P.poison })
        if bit e.2.access 3 && !d.shardTorn p e.1 then tearShard d p e.1 else d) d

/-- Record of a word's error; the symbol's position is open. -/
def wordRec (d : Device) (cls kind x c frame : Nat) : ERec :=
  { mkRec cls 5 kind (x + 256 * c) with addr := deviceAddr x frame c 0, detail := Config.freeNat d.free % 2 ^ 32 }
/-- Record of a patrol's finding. -/
def patrolRec (d : Device) (cls kind x c frame : Nat) : ERec := (wordRec d cls kind x c frame).ofDomain d (32 + x)

/-- A word that ECC corrects: a CE of the channel. -/
def wordCe (d : Device) (x c frame : Nat) : Device :=
  if d.ch x c = 3 then d
  else errorCheck (({ d with free := d.free + 1 } : Device).inc (fChCe x c)) (patrolRec d 0 1 x c frame)
/-- A word that ECC cannot correct, met by the patrol or a row copy: a UE of the channel; no work item ends (Table 10-8). -/
def wordUe (d : Device) (x c frame : Nat) : Device :=
  if d.ch x c = 3 then d
  else errorCheck (poisonAt (({ d with free := d.free + 1 } : Device).inc (fChUe x c)) x c frame) (patrolRec d 1 2 x c frame)

/-- A request of partition `p` reads a word that ECC cannot correct, at a byte of a handle (R267, Table 10-8): its granule is poisoned,
its shard torn. `who`: the request is a work item's, which faults with cause UE, and the logical tiles whose own instruction it is. -/
def readUe (p h off : Nat) (who : Option (List Nat)) (d : Device) : Device :=
  match ((d.part p).entry h).bind (fun e => e.place.frameAt (off / 2048)) with
  | none => d
  | some (k, frame) =>
    let x := k / 32
    let c := k % 32
    if d.ch x c = 3 then d
    else
      let r := (wordRec d 1 2 x c frame)
      let d := poisonAt (({ d with free := d.free + 1 } : Device).inc (fChUe x c)) x c frame
      match who with
      | some ls => ueFault d p ls r
      | none => errorCheck d (r.ofDomain d (32 + x))
/-- A request of partition `p` reads a word that ECC corrects, at a byte of a handle: a CE of the channel, and the request goes on (R367). -/
def readCe (p h off : Nat) (d : Device) : Device :=
  match ((d.part p).entry h).bind (fun e => e.place.frameAt (off / 2048)) with
  | none => d
  | some (k, frame) => wordCe d (k / 32) (k % 32) frame
/-- A request meets a word of a handle that ECC corrects or cannot correct. -/
def metOff (p h : Nat) (b : OffFind) (who : Option (List Nat)) (d : Device) : Device :=
  if b.corrected then readCe p h b.off.toNat d else readUe p h b.off.toNat who d
/-- Is there a word that a request may meet at a byte of a handle: a granule in a channel in service? -/
def Device.wordThere (d : Device) (p h off : Nat) : Bool :=
  (((d.part p).entry h).bind (fun e => e.place.frameAt (off / 2048))).any (fun k => decide (d.ch (k.1 / 32) (k.1 % 32) ≠ 3))
/-- The same of a word among those that an access to the handles `hs` meets. -/
def metBy (p : Nat) (who : Option (List Nat)) (hs : List Nat) (bad : Option WordFind) (d : Device) : Device :=
  match bad with
  | none => d
  | some b => occurs (hs.contains b.handle.toNat) (metOff p b.handle.toNat ⟨b.off, b.corrected⟩ who) d
/-- Is the find one that ECC cannot correct, in a handle among `hs`? -/
def findBad (hs : List Nat) (bad : Option WordFind) : Bool :=
  match bad with
  | none => false
  | some b => !b.corrected && hs.contains b.handle.toNat
/-- Can an operation that reads the handles `hs` meet the find now: one of them, that serves, and a word that is there? -/
def Device.canMeet (d : Device) (p : Nat) (hs : List Nat) (bad : Option WordFind) : Bool :=
  bad.any (fun b => hs.contains b.handle.toNat && d.readable p [b.handle.toNat] && d.wordThere p b.handle.toNat b.off.toNat)
/-- A logical tile's own operation meets the word. -/
def metWord (p l : Nat) (hs : List Nat) (bad : Option WordFind) (d : Device) : Device := metBy p (some [l]) hs bad d

/-- Is the Purl engine that works for a stack under a drop check (R371, R373)? -/
def Device.engineChecked (d : Device) (x : Nat) : Bool :=
  d.outOfService [7] (match d.stackPart x with
    | none => x
    | some p => d.engineOf p x)
/-- ROW_REPAIR_DONE: the copy is done, with the frames whose words it could not correct; the channel pauses, the remap is committed,
the row's address points at the spare, the pause ends, and the verdict is recorded. With no room left in the repair list the channel
retires instead, as beyond the spares (R373, R376). While the stack's Purl engine is under a drop check the copy waits (R372). -/
def rowRepairDone (x : Nat) (bad fixed : List Nat) (d : Device) : Device :=
  match (if d.engineChecked x then none else (d.stack x).repair) with
  | none => d
  | some (c, row) =>
    let r := (d.stack x).repairFor
    let d := fixed.foldl (fun d n => wordCe d x c n) d
    let d := (bad.foldl (fun d n => wordUe d x c n) d).modStack x (fun s => { s with repair := none, repairFor := none })
    let a := if d.listRoom then
        (4, (((addRepair d 5 (x + 256 * c + 65536 * row) false).inc (fRowsUsed x)).inc (fSparesUsed x c)).inc (fRowRepairs x))
      else endChannel d x c false
    match r with
    | none => a.2
    | some r => verdictRec a.2 r 3 a.1
-- Patrol read (R274).

/-- Frames of a stack, which one patrol pass reads. -/
def patrolFrames : Nat := 32 * 786432

/-- What a patrol read found in frame `n` of the pass takes effect: the frames come in ascending stack offset (Table 10-7), so the
channels of a row of frames one after another. -/
def patrolFound (x n : Nat) (f : PatrolFind) (d : Device) : Device :=
  match f with
  | .clean => d
  | .corrected => wordCe d x (n % 32) (n / 32)
  | .uncorrectable => wordUe d x (n % 32) (n / 32)

/-- Has the engine that serves a stack work that comes before a zeroing scrub (R271): a repair, a check, or for the stack's partition a save,
updates, tier moves, a swatch copy? -/
def Device.scrubWaits (d : Device) (x : Nat) : Bool :=
  (d.stack x).repair.isSome || d.engineChecked x ||
  (match d.stackPart x with
   | none => false
   | some p =>
     let P := d.part p
     !d.enginesFree p [x] || decide (P.moving ≠ []) ||
     (decide (P.swatch.state = .copying) && (P.swatch.bufH :: P.swatch.handles).any (fun h => (P.stacksOf h).contains x)))
/-- Has it work that comes before a patrol read: that, or a zeroing scrub? -/
def Device.patrolWaits (d : Device) (x : Nat) : Bool := (d.stack x).scrubbing || d.scrubWaits x
/-- PATROL_READ: the next frame is read while the stack is ON, patrol is enabled, its channel is not PAUSED (R264), and the engine has no
other work (R271, R273). -/
def patrolRead (x : Nat) (f : PatrolFind) (d : Device) : Device :=
  if d.rd (fPatrolEn x) = 0 || !d.domOn (32 + x) || d.patrolWaits x || decide (d.ch x ((d.stack x).patrolAt % 32) = 1) then d
  else
    let n := (d.stack x).patrolAt
    let d := d.modStack x (fun s => { s with patrolAt := (n + 1) % patrolFrames })
    patrolFound x n f (if n + 1 = patrolFrames then d.inc (fPatrolPasses x) else d)

-- Zeroing scrub (R273).

/-- A zeroing scrub of a stack begins and runs once the stack is ON, woken with the given source. DESIGN CHOICE (log 129): DONE_MIB reads 0
while it runs and 49,152 at its end, since no command reports its progress. -/
def runScrub (d : Device) (x code : Nat) : Device :=
  let d := (d.modStack x (fun s => { s with scrubbing := true })).wr (fScrub x) 1
  wakeDom (refuseMem (d.wr (fDoneMib x) 0) x) (32 + x) code

/-- SCRUB_START: refused for a stack of a partition, whether or not a scrub of it runs; else the scrub runs, unless it does already. The
registers are X0's: with D.X0 OFF nothing is written. -/
def scrubStart (x : Nat) (d : Device) : Device :=
  if !d.domOn 72 then d
  else if (d.stackPart x).isSome then d.wr (fScrub x) 3
  else if (d.stack x).scrubbing then d
  else runScrub d x 5
/-- SCRUB_START -/
def execScrubStart (x : Fin 32) (s : State) : Host.Outcome State Fault Refusal := onDev (scrubStart x) s

/-- SCRUB_DONE, once the engine has no work of higher priority (R271): all 48 GiB hold +0, and nothing of a former partition is left in the
stack (R317). -/
def scrubDone (x : Nat) (d : Device) : Device :=
  if !(d.stack x).scrubbing || !d.domOn (32 + x) || d.scrubWaits x then d
  else
    let d := ((d.wr (fScrub x) 2).wr (fDoneMib x) 49152).modStack x (fun s => { s with clean := true, scrubbing := false })
    d.modDom (32 + x) (fun y => { y with changing := false })

-- Initial training (R268).

/-- A channel failed initial training twice: FAILED, with a record, of the stack's partition if it has one. -/
def trainFailed (d : Device) (x c : Nat) : Device :=
  if d.ch x c = 3 then d
  else failChan (addRecord d (({ mkRec 0 6 2 (x + 256 * c) with action := 6, detail := d.rd (fMargin x c) } : ERec).ofDomain d (32 + x))) x c
/-- What the initial training of a stack found: channels that failed twice, channels that passed only in degraded form (R266). With no
channel left TRAIN reads FAILED. -/
def trainingFound (x : Nat) (failed degraded : List Nat) (d : Device) : Device :=
  let d := degraded.foldl (fun d c => retireChan d x c) (failed.foldl (fun d c => trainFailed d x c) d)
  if d.rd (fChFailed x) = 32 then d.wr (fTrain x) 3 else d

end Sys2Proof.Machine
end

