-- ==== Sys2Proof/Machine/Route.lean ====
section
/-! DEFINITION. The route unit (R89, R172 to R178, R189): choosing experts, capacity, the sort by destination, the inverse
permutation, and the checks of an expert table (R173). -/
namespace Sys2Proof.Machine

-- The expert table (Tables 7-1 to 7-3).

/-- Does an expert table's header pass R173? -/
def tableHeader (b : List Byte) (devCount : Nat) : Bool :=
  decide (fld b 0 2 = 1) && decide (1 ≤ fld b 2 2) && decide (fld b 2 2 ≤ 1024) && decide (fld b 4 2 = devCount) && zeros b 6 58
/-- Does a layer directory entry pass R173, its entries ending within `size` bytes of the table's start? -/
def layerEntry (e size : Nat) : Bool :=
  decide (e < 2 ^ 48) && decide (bits e 47 45 ≤ 4) && decide (1 ≤ bits e 44 32) && decide (bits e 44 32 ≤ 4096) &&
  decide (bits e 31 0 * 64 + 8 * bits e 44 32 ≤ size)
/-- Does an expert entry pass R173? -/
def expertEntry (e devCount : Nat) : Bool :=
  decide (e < 2 ^ 40) && decide (bits e 11 0 < devCount) && decide (bits e 39 22 ≤ 131072)

-- Choice records (Table 7-4).

/-- A choice record. -/
structure Choice where
  pos : Nat
  dropped : Bool
  valid : Bool
  rank : Nat
  expert : Nat
  gate : Nat
  deriving DecidableEq, Repr

/-- A record from its 64 bits. -/
def choiceOf (x : Nat) : Choice :=
  { pos := bits x 63 47, dropped := bit x 46, valid := bit x 45, rank := bits x 44 44, expert := bits x 43 32, gate := bits x 31 0 }
/-- Bits of a record. -/
def Choice.word (c : Choice) : Nat :=
  c.pos * 2 ^ 47 + (if c.dropped then 2 ^ 46 else 0) + (if c.valid then 2 ^ 45 else 0) + c.rank * 2 ^ 44 + c.expert * 2 ^ 32 + c.gate
/-- Is the choice accepted? -/
def Choice.accepted (c : Choice) : Bool := c.valid && !c.dropped
/-- Records of a byte list. -/
def choicesOf (b : List Byte) (o n : Nat) : List Choice := (List.range n).map (fun i => choiceOf (fld b (o + 8 * i) 8))

/-- Index and score of the greatest score at an index the test admits; the lowest index of equal ones (R174). -/
def best (ok : Nat → Bool) (vs : List Val) : Option Nat :=
  (vs.zipIdx.foldl (fun (r : Option (Val × Nat)) x =>
    if !ok x.2 then r else match r with
    | none => some x
    | some y => if vlt y.1 x.1 then some x else some y) none).map (·.2)

/-- Choices of one token from its scores' binary32 codes (R174, R175). -/
def choose (k : Nat) (ws : List Nat) : List Choice × Bool :=
  let vs := ws.map (decodeFmt 0)
  let nil (r : Nat) : Choice := { pos := 0, dropped := false, valid := false, rank := r, expert := 0, gate := 0 }
  let mk (r : Nat) (o : Option Nat) : Choice := match o with
    | none => nil r
    | some e => { nil r with valid := true, expert := e, gate := ws.getD e 0 }
  if vs.any vNonfin then ((List.range k).map nil, true)
  else
    let a := best (fun _ => true) vs
    ((List.range k).map (fun r => if r = 0 then mk 0 a else mk r (best (fun i => decide (some i ≠ a)) vs)), false)

-- Capacity (R176).

/-- One record of assign_capacity: counts, drops, and the record with POS and DROPPED. -/
def assignOne (cap : List Nat) (s : Tab Nat × Tab Nat) (c : Choice) : (Tab Nat × Tab Nat) × Choice :=
  let c := { c with pos := 0, dropped := false }
  if !c.valid then (s, c)
  else if tget 0 s.1 c.expert < cap.getD c.expert 0 then
    ((tset 0 s.1 c.expert (tget 0 s.1 c.expert + 1), s.2), { c with pos := tget 0 s.1 c.expert })
  else ((s.1, tset 0 s.2 c.expert (tget 0 s.2 c.expert + 1)), { c with dropped := true })

/-- assign_capacity of R176 on n × k records: all first choices in token order, then all second choices. -/
def assignCap (cap : List Nat) (k : Nat) (cs : List Choice) : (Tab Nat × Tab Nat) × List Choice :=
  let n := cs.length / k
  let order := (List.range k).flatMap (fun r => (List.range n).map (fun t => t * k + r))
  let blank : Choice := { pos := 0, dropped := false, valid := false, rank := 0, expert := 0, gate := 0 }
  let r := order.foldl (fun (s : (Tab Nat × Tab Nat) × Tab Choice) i =>
    let x := assignOne cap s.1 (cs.getD i blank)
    (x.1, tput i x.2 s.2)) (([], []), [])
  (r.1, (List.range cs.length).map (fun i => tget blank r.2 i))

-- Blocks of memory.

/-- Places of parts that each start at the next 64-byte boundary. -/
def placeParts (x : Loc) : Nat → List (List Byte) → List (Loc × List Byte)
  | _, [] => []
  | o, b :: bs => (x.plus o, b) :: placeParts x (ceil64 (o + b.length)) bs

/-- Offsets of the route block's arrays (Table 7-5): COUNT, DROP, DEVOF, DEVCNT, CHOICES. -/
def routeOffs (X D : Nat) : Nat × Nat × Nat × Nat × Nat :=
  let a := 64
  let b := ceil64 (a + 4 * X)
  let c := ceil64 (b + 4 * X)
  let d := ceil64 (c + 2 * X)
  (a, b, c, d, ceil64 (d + 4 * D))

/-- The route block's parts (Table 7-5). -/
def routeBlock (n X k D : Nat) (devs : List Nat) (s : Tab Nat × Tab Nat) (cs : List Choice) : List (List Byte) :=
  let acc := cs.filter Choice.accepted
  let dr (r : Nat) : Nat := ((List.range cs.length).filter (fun i => decide (i % k = r) && (cs.getD i (choiceOf 0)).dropped)).length
  let tok (t : Nat) : List Choice := (cs.drop (t * k)).take k
  let unrouted := ((List.range n).filter (fun t => (tok t).any (·.valid) && (tok t).all (fun c => !c.valid || c.dropped))).length
  let nonf := ((List.range n).filter (fun t => !((tok t).getD 0 (choiceOf 0)).valid)).length
  [toLe 4 n ++ toLe 2 X ++ toLe 1 k ++ toLe 1 0 ++ toLe 4 acc.length ++ toLe 4 (dr 0) ++ toLe 4 (dr 1) ++ toLe 4 unrouted ++
     toLe 4 nonf ++ List.replicate 36 0#8,
   (List.range X).flatMap (fun e => toLe 4 (tget 0 s.1 e)), (List.range X).flatMap (fun e => toLe 4 (tget 0 s.2 e)),
   devs.flatMap (toLe 2),
   (List.range D).flatMap (fun v => toLe 4 (acc.filter (fun c => decide (devs.getD c.expert 0 = v))).length),
   cs.flatMap (fun c => toLe 8 c.word)]

/-- Sort key of an accepted choice: device, expert, position. -/
def sortKey (devs : List Nat) (c : Choice) : Nat := (devs.getD c.expert 0 * 4096 + c.expert) * 2 ^ 18 + c.pos
/-- Insert by key. -/
def insertKey (x : Nat × Nat) : List (Nat × Nat) → List (Nat × Nat)
  | [] => [x]
  | y :: t => if x.1 < y.1 then x :: y :: t else y :: insertKey x t
/-- Indices of the accepted choices in sorted order (R178). -/
def sortedRows (devs : List Nat) (cs : List Choice) : List Nat :=
  ((cs.zipIdx.filter (fun x => x.1.accepted)).foldl (fun r x => insertKey (sortKey devs x.1, x.2) r) []).map (·.2)

/-- Slots of a token: indices of its records by ascending expert id, then rank (R178). -/
def slotsOf (k : Nat) (cs : List Choice) (t : Nat) : List Nat :=
  let e (i : Nat) : Nat := (cs.getD i (choiceOf 0)).expert
  ((List.range k).foldl (fun r i => insertKey (e (t * k + i), t * k + i) r) []).map (·.2)

/-- The sort block's parts (Table 7-7). -/
def sortBlock (n k D : Nat) (devs : List Nat) (cs : List Choice) : List (List Byte) :=
  let rows := sortedRows devs cs
  let c (i : Nat) : Choice := cs.getD i (choiceOf 0)
  let devOf (i : Nat) : Nat := devs.getD (c i).expert 0
  let cnt (f : Nat → Bool) : Nat := (rows.filter f).length
  let slots := (List.range n).flatMap (slotsOf k cs)
  [toLe 4 rows.length ++ toLe 4 n ++ toLe 1 k ++ List.replicate 55 0#8,
   (List.range D).flatMap (fun v => toLe 4 v ++ toLe 4 (cnt (fun i => decide (devOf i < v))) ++ toLe 4 (cnt (fun i => decide (devOf i = v))) ++ toLe 4 0),
   rows.flatMap (fun i => toLe 4 (i / k)),
   rows.flatMap (fun i => toLe 8 ((c i).expert * 2 ^ 34 + (c i).rank * 2 ^ 33 + i / k * 2 ^ 16)),
   slots.flatMap (fun i => toLe 4 (((indexOf? (fun j => decide (j = i)) rows)).getD 0xFFFFFFFF)),
   slots.flatMap (fun i => toLe 4 (if (c i).accepted then (c i).gate else 0))]

-- The operations.

/-- ROUTE.TOPK (R174, R175). -/
def runTopk (p l : Nat) (o : RouteOp) (d : Device) : Device × Option Cause :=
  let k := if o.k2 then 2 else 1
  let x := locOf o.as
  if o.s1 = 0 then (d, none)
  else match d.readFault p x (o.s1 * o.s2 * 4) with
    | some c => (d, some c)
    | none =>
      let d := d.touch p l x (o.s1 * o.s2 * 4)
      let ws := wordsOf 4 (o.s1 * o.s2) (d.readAt p l x (o.s1 * o.s2 * 4))
      let rs := (List.range o.s1).map (fun t => choose k ((ws.drop (t * o.s2)).take o.s2))
      let bad := (rs.filter (·.2)).length
      let r := writeParts p l [(locOf o.ad, rs.flatMap (fun r => r.1.flatMap (fun c => toLe 8 c.word)))] d
      match r.2 with
      | some c => (r.1, some c)
      | none =>
        let d := tileCount r.1 p l fNonfinite bad
        (if 0 < bad then setFlag d p l o.id else d, none)

/-- Experts of a layer in an expert table: entries as 64-bit numbers, or the cause ROUTE.SCAN faults with (R173). -/
def readLayer (d : Device) (p l : Nat) (x : Loc) (layer X : Nat) : Except Cause (List Nat) :=
  let P := d.part p
  let size := if x.h = 0 then spadSize - x.pos else P.sizeOf x.h - x.pos
  match d.readFault p x 64 with
  | some c => .error c
  | none =>
    let h := d.readAt p l x 64
    if !tableHeader h P.devCount || decide (fld h 2 2 ≤ layer) then .error .illegalInstr
    else match d.readFault p (x.plus (0x40 + 8 * layer)) 8 with
      | some c => .error c
      | none =>
        let e := fld (d.readAt p l (x.plus (0x40 + 8 * layer)) 8) 0 8
        if !layerEntry e size || decide (bits e 44 32 ≠ X) then .error .illegalInstr
        else
          let y := x.plus (bits e 31 0 * 64)
          match d.readFault p y (8 * X) with
          | some c => .error c
          | none =>
            let es := wordsOf 8 X (d.readAt p l y (8 * X))
            if es.all (fun e => expertEntry e P.devCount) then .ok es else .error .illegalInstr

/-- What reading a layer of an expert table addresses: its header, the layer's entry, the experts' entries (R106). -/
def touchLayer (d : Device) (p l : Nat) (x : Loc) (layer X : Nat) : Device :=
  let e := fld (d.readAt p l (x.plus (0x40 + 8 * layer)) 8) 0 8
  ((d.touch p l x 64).touch p l (x.plus (0x40 + 8 * layer)) 8).touch p l (x.plus (bits e 31 0 * 64)) (8 * X)

/-- ROUTE.SCAN (R176, R177). -/
def runScan (p l : Nat) (o : RouteOp) (d : Device) : Device × Option Cause :=
  let k := if o.k2 then 2 else 1
  let n := o.s1
  let D := (d.part p).devCount
  let d := touchLayer d p l (locOf o.ax) o.s3 o.s2
  match readLayer d p l (locOf o.ax) o.s3 o.s2 with
  | .error c => (d, some c)
  | .ok es =>
    match d.readFault p (locOf o.as) (8 * n * k) with
    | some c => (d, some c)
    | none =>
      let d := d.touch p l (locOf o.as) (8 * n * k)
      let cs := choicesOf (d.readAt p l (locOf o.as) (8 * n * k)) 0 (n * k)
      if cs.any (fun c => c.valid && decide (o.s2 ≤ c.expert)) then (d, some .illegalInstr)
      else
        let r := assignCap (es.map (fun e => bits e 39 22)) k cs
        let w := writeParts p l (placeParts (locOf o.ad) 0 (routeBlock n o.s2 k D (es.map (fun e => bits e 11 0)) r.1 r.2)) d
        match w.2 with
        | some c => (w.1, some c)
        | none =>
          let dr (q : Nat) : Nat := (r.2.zipIdx.filter (fun x => decide (x.2 % k = q) && x.1.dropped)).length
          (tileCount (tileCount w.1 p l fDropsFirst (dr 0)) p l fDropsSecond (dr 1), none)

/-- ROUTE.SORT (R178). -/
def runSort (p l : Nat) (o : RouteOp) (d : Device) : Device × Option Cause :=
  let k := if o.k2 then 2 else 1
  let n := o.s1
  let D := (d.part p).devCount
  let f := routeOffs o.s2 D
  let x := locOf o.as
  let size := f.2.2.2.2 + 8 * n * k
  let head := d.readAt p l x 64
  let wrong := fld head 0 4 ≠ n || fld head 4 2 ≠ o.s2 || fld head 6 1 ≠ k
  match d.readFault p x (if wrong then 64 else size) with
  | some c => (d, some c)
  | none =>
    let d := d.touch p l x size
    let b := d.readAt p l x size
    let devs := wordsOf 2 o.s2 (b.drop f.2.2.1)
    let cs := choicesOf b f.2.2.2.2 (n * k)
    if wrong || cs.any (fun c => c.accepted && (decide (o.s2 ≤ c.expert) || decide (D ≤ devs.getD c.expert 0))) then (d, some .illegalInstr)
    else writeParts p l (placeParts (locOf o.ad) 0 (sortBlock n k D devs cs)) d

/-- Slots of ROUTE.UNPERM in ascending order; a fault stops it (R189). -/
def unpermSlots (p l : Nat) (o : RouteOp) : Nat → Nat → Device → Device × Option Cause
  | 0, _, d => (d, none)
  | n + 1, s, d =>
    let x := (locOf o.ax).plus (4 * s)
    match d.readFault p x 4 with
    | some c => (d, some c)
    | none =>
      let d := d.touch p l x 4
      let i := fld (d.readAt p l x 4) 0 4
      let y := (locOf o.as).plus (i * o.s2)
      match (if i = 0xFFFFFFFF then none else d.readFault p y o.s2) with
      | some c => (d, some c)
      | none =>
        let d := if i = 0xFFFFFFFF then d else d.touch p l y o.s2
        let row := if i = 0xFFFFFFFF then List.replicate o.s2 0#8 else d.readAt p l y o.s2
        let r := writeParts p l [((locOf o.ad).plus (s * o.s2), row)] d
        match r.2 with
        | some c => (r.1, some c)
        | none => unpermSlots p l o n (s + 1) r.1

/-- A route operation runs. -/
def runRoute (p l : Nat) (o : RouteOp) (d : Device) : Device × Option Cause :=
  if o.op = 0 then runTopk p l o d
  else if o.op = 1 then runScan p l o d
  else if o.op = 2 then runSort p l o d
  else if o.s2 = 0 then (d, none)
  else unpermSlots p l o o.s1 0 d

/-- Checks at issue (R89): counts, row bytes, AS and AD in the scratchpad. -/
def routeCheck (op : Nat) (d : Device) (p l w : Nat) : Bool :=
  let t := d.lt p l
  let s1 := (t.sreg (bits w 41 36)).toNat
  let s2 := (t.sreg (bits w 47 42)).toNat
  t.isSpad (bits w 27 24) && t.isSpad (bits w 31 28) &&
  (if op = 3 then decide (s2 % 64 = 0) else decide (s1 ≤ 131072) && decide (1 ≤ s2) && decide (s2 ≤ 4096))

/-- A ROUTE as read at issue. -/
def routeOf (op id : Nat) (t : LTile) (w : Nat) : RouteOp :=
  { id := id, op := op, as := t.areg (bits w 27 24), ad := t.areg (bits w 31 28), ax := t.areg (bits w 35 32),
    s1 := (t.sreg (bits w 41 36)).toNat, s2 := (t.sreg (bits w 47 42)).toNat, s3 := (t.sreg (bits w 53 48)).toNat,
    k2 := bit w 54, cf := cfOf w }

/-- A ROUTE opcode: AX, S3 and K2 are fields of those that use them (Table 3-19). -/
def opRoute (op : Nat) : Op :=
  { cls := 7, opc := op,
    used := [(47, 36), (31, 24), (22, 16)] ++ (if op = 1 ∨ op = 3 then [(35, 32)] else []) ++ (if op = 1 then [(53, 48)] else []) ++
      (if op ≤ 2 then [(54, 54)] else []),
    legal := cfLegal,
    regs := fun w => [.s (bits w 41 36), .s (bits w 47 42)] ++ (if op = 1 then [.s (bits w 53 48)] else []),
    full := fun t _ => decide (8 ≤ t.rte.length), check := routeCheck op, skip := skipOne,
    act := unitAct (fun id p l w d => d.modLt p l (fun t => { t with rte := t.rte ++ [routeOf op id t w] })) }

/-- ROUTE.TOPK -/
def execRouteTopk (p : Fin 8) (l : Fin 32) (w : BitVec 128) (s : State) : Host.Outcome State Fault Refusal :=
  onDev (issue (opRoute 0) p l w) s
/-- ROUTE.SCAN -/
def execRouteScan (p : Fin 8) (l : Fin 32) (w : BitVec 128) (s : State) : Host.Outcome State Fault Refusal :=
  onDev (issue (opRoute 1) p l w) s
/-- ROUTE.SORT -/
def execRouteSort (p : Fin 8) (l : Fin 32) (w : BitVec 128) (s : State) : Host.Outcome State Fault Refusal :=
  onDev (issue (opRoute 2) p l w) s
/-- ROUTE.UNPERM -/
def execRouteUnperm (p : Fin 8) (l : Fin 32) (w : BitVec 128) (s : State) : Host.Outcome State Fault Refusal :=
  onDev (issue (opRoute 3) p l w) s

/-- Handles a route operation reads: SCAN's table and UNPERM's tags (Table 3-19). -/
def RouteOp.handles (o : RouteOp) : List Nat := if o.op = 1 || o.op = 3 then [(locOf o.ax).h] else []

/-- The operation at the head of the route unit's queue runs and posts, or faults (R66). -/
def routeFinish (p l : Nat) (o : RouteOp) (d : Device) : Device :=
  let r := runRoute p l o (d.modLt p l (fun t => { t with rte := t.rte.drop 1 }))
  match r.2 with
  | some c => tileFault (endOp r.1 p l o.id) p l c
  | none => complete r.1 p l o.id o.cf
/-- The operation at the head of the queue ends with what it met: a word it could not read (R267), an error of its tile (R367). -/
def routeEnd (p : Nat) (x : UnitEnd) (o : RouteOp) (d : Device) : Device :=
  let l := x.lt.val
  let d := tileFound (metWord p l o.handles x.bad d) p l 0 (findMet none x.found)
  if findUe (findMet none x.found) then endOp (d.modLt p l (fun t => { t with rte := t.rte.drop 1 })) p l o.id else routeFinish p l o d
/-- ROUTE_DONE: the head of the queue finishes once what it reads serves, in a tile that is in service. -/
def routeDone (p : Nat) (x : UnitEnd) (d : Device) : Device :=
  match (if (d.hostOf p x.lt).any d.tileOut then [] else (d.lt p x.lt).rte) with
  | [] => d
  | o :: _ => whenRead d p o.handles [] 4 (routeEnd p x o)
/-- ROUTE_DONE -/
def execRouteDone (p : Fin 8) (x : UnitEnd) (s : State) : Host.Outcome State Fault Refusal := onDev (routeDone p x) s

end Sys2Proof.Machine
end

