-- ==== Sys2Proof/Machine/Tiers.lean ====
section
/-! DEFINITION. The ready and dormant tiers (R221, R222, R260): which shards move at a seam, where to, and what else a move
takes with it. -/
namespace Sys2Proof.Machine

/-- INST of a shard's header. -/
def Device.shardInst (d : Device) (p h : Nat) : Nat := fld (d.shardHdr p h) 0x58 2
/-- Is a shard in the dormant tier (TIER of its header)? -/
def Device.shardDormant (d : Device) (p h : Nat) : Bool := decide (fld (d.shardHdr p h) 0x56 1 = 1)
/-- Dormant stacks of a partition. -/
def Device.dormantStacks (d : Device) (p : Nat) : List Nat :=
  (unitsOf (d.part p).cols).filter (fun x => decide (d.rd (fSDormant x) = 1))
/-- Ready stacks that are not retired. -/
def Device.liveReady (d : Device) (p : Nat) : List Nat := (d.readyStacks p).filter (fun x => decide (d.rd (fSRetired x) = 0))

/-- A handle's bytes keep their values and their poison, and lie elsewhere (R38, R260). -/
def setPlace (d : Device) (p h : Nat) (e : HEntry) (q : Placement) : Device :=
  d.modPart p (fun P =>
    { P with handles := tput h (some { e with place := q }) P.handles, dead := P.dead.filter (fun k => decide (k.1 / 2 ^ 27 ≠ h)) })
/-- The partition without a handle, for placing it anew. -/
def Device.without (d : Device) (p h : Nat) : Device := d.modPart p (fun P => { P with handles := tdel h P.handles })

/-- Every SPREAD handle is mapped under the partition list of now, if its rows fit (R260). -/
def relist (d : Device) (p : Nat) : Option Device :=
  let list := d.partList p
  let P := d.part p
  let es := P.entries.filter (fun e => e.2.place.spread)
  if list = [] || rowLimit P true list < rowsUsed (es.map (fun e => { e.2.place with list := list })) then none
  else some (es.foldl (fun d e => setPlace d p e.1 e.2 { e.2.place with list := list }) d)

/-- A handle is placed anew by its class. -/
def replaceOne (p : Nat) (o : Option Device) (e : Nat × HEntry) : Option Device :=
  match o with
  | none => none
  | some d => match (d.without p e.1).placeHandle p e.2.cls e.2.localLt e.2.size with
    | none => none
    | some q => some (setPlace d p e.1 e.2 q)

/-- A ready stack becomes dormant: what it holds moves to the ready stacks (R222). -/
def makeDormant (d : Device) (p x : Nat) : Option Device :=
  let d := d.wr (fSDormant x) 1
  let es := (d.part p).entries.filter (fun e => !e.2.place.spread && decide (e.2.place.stack = x))
  match es.foldl (replaceOne p) (some d) with
  | none => none
  | some d => relist d p

/-- May one more stack become dormant (CFG_PLACE.MIN_READY)? -/
def Device.spareReady (d : Device) (p : Nat) : Bool :=
  decide (min (d.rd fMinReady) (unitsOf (d.part p).cols).length < (d.liveReady p).length)

/-- Place a handle whole in a stack. -/
def intoStack (d : Device) (p h : Nat) (e : HEntry) (x : Nat) : Option Device :=
  (placeIn ((d.without p h).part p) false x e.count (d.stackList x)).map (setPlace d p h e)

/-- A handle moves to the dormant tier: to a dormant stack with room, else to a stack that becomes dormant. -/
def moveDown (d : Device) (p h : Nat) (e : HEntry) : Option Device :=
  match (d.dormantStacks p).findSome? (intoStack d p h e) with
  | some d => some d
  | none =>
    if d.spareReady p then
      (d.liveReady p).reverse.findSome? (fun x => match makeDormant (d.without p h) p x with
        | none => none
        | some f => intoStack f p h e x)
    else none
/-- A handle moves to the ready tier. -/
def moveUp (d : Device) (p h : Nat) (e : HEntry) : Option Device := replaceOne p (some d) (h, e)

/-- Shards that move at this seam, and whether to the dormant tier (R221): up those that its step's visits have named (`ups`), and in the
first 8 steps of the placement history all that are dormant (R251); down those unvisited for long. -/
def Device.dueMoves (d : Device) (p : Nat) (ups : List Nat) : List (Nat × Bool) :=
  let P := d.part p
  if P.noDormant || P.job.isNone then []
  else P.entries.filterMap (fun e =>
    let n := d.shardInst p e.1
    if e.2.cls ≠ 2 || e.2.place.spread || !bit e.2.access 3 || 1024 ≤ n then none
    else if d.shardDormant p e.1 then (if ups.contains e.1 || decide (P.steps < 8) then some (e.1, false) else none)
    else if decide (8 ≤ P.steps) && bit (d.rd fDormantEn) p && decide (d.rd fTierThresh ≤ d.rd (fIdle n)) then some (e.1, true)
    else none)

/-- Dormant shards whose instance the step that reaches its seam has visited; another partition's seam does not count for it (R221). -/
def Device.visitedShards (d : Device) (p : Nat) : List Nat :=
  ((d.part p).entries.filter (fun e => bit e.2.access 3 && d.shardDormant p e.1 && decide (d.rd (fIdle (d.shardInst p e.1)) = 0) &&
    decide (d.shardInst p e.1 < 1024))).map (·.1)

/-- Gradient regions that go with a shard: COLD-ELIGIBLE, named by a descriptor with the same INST. -/
def Device.coldGrads (d : Device) (p n : Nat) : List (Nat × HEntry) :=
  ((d.part p).coldGrads.filter (fun g => decide (g.1 = n))).filterMap (fun g => match (d.part p).entry g.2 with
    | none => none
    | some e => if e.cls = 2 && !e.place.spread then some (g.2, e) else none)

/-- A move of one shard, if there is room for it. -/
def moveShard (d : Device) (p : Nat) (m : Nat × Bool) : Option Device :=
  match (d.part p).entry m.1 with
  | none => none
  | some e =>
    match (if m.2 then moveDown d p m.1 e else moveUp d p m.1 e) with
    | none => none
    | some f =>
      let n := d.shardInst p m.1
      let f := (f.coldGrads p n).foldl (fun f g => ((if m.2 then moveDown f p g.1 g.2 else moveUp f p g.1 g.2)).getD f) f
      some (hdrWrite f p m.1 0x56 1 (if m.2 then 1 else 0))
/-- UPD_INST[n].DORMANT: is a shard naming instance `n`, in whatever partition, in the dormant tier (R228)? -/
def Device.instDormant (d : Device) (n : Nat) : Bool :=
  (List.range 8).any (fun p => (d.part p).entries.any (fun e => bit e.2.access 3 && d.shardDormant p e.1 && decide (d.shardInst p e.1 = n)))

/-- A dormant stack that holds nothing any more is ready again; SPREAD handles then spread over it too. -/
def emptyDormant (d : Device) (p x : Nat) : Device :=
  if (d.part p).entries.any (fun e => !e.2.place.spread && decide (e.2.place.stack = x)) then d
  else
    let f := d.wr (fSDormant x) 0
    wakeDom ((relist f p).getD f) (32 + x) 5
/-- UPD_TIER and MEM_PART follow. -/
def refreshTiers (d : Device) (p : Nat) : Device :=
  let d := (d.dormantStacks p).foldl (fun d x => emptyDormant d p x) d
  refreshMem (d.wr (fTierDormant p) (((d.dormantStacks p).map (2 ^ ·)).sum)) p

/-- Moves of this seam that are still to come: those recorded that there is room for. -/
def Device.movesLeft (d : Device) (p : Nat) : List (Nat × Bool) := (d.part p).moving.filter (fun m => (moveShard d p m).isSome)
/-- Stacks the moves need. -/
def Device.moveStacks (d : Device) (p : Nat) (m : Nat × Bool) : List Nat :=
  if m.2 then (unitsOf (d.part p).cols).filter (fun x => decide (d.rd (fSRetired x) = 0)) else (d.part p).stacksOf m.1 ++ d.liveReady p
/-- The tier moves of a seam: once no update of the partition is being written, the stacks needed are ON with no channel PAUSED (R264), and
their engines have no row repair or save to do first (R271). -/
def tierMoves (d : Device) (p : Nat) : Device :=
  let ms := d.movesLeft p
  if ms = [] || (d.part p).updates ≠ [] then d
  else
    let xs := ms.flatMap (d.moveStacks p)
    if xs.any (fun x => d.domOn (32 + x) && (decide (d.pausedCh x ≠ []) || !d.enginesFree p [x])) then d
    else if xs.all (fun x => d.domOn (32 + x)) then
      settleChans ((refreshTiers (ms.foldl (fun d m => (moveShard d p m).getD d) d) p).modPart p (fun P => { P with moving := [] })) p
    else xs.foldl (fun d x => wakeDom d (32 + x) 5) d

end Sys2Proof.Machine
end

