-- ==== Sys2Proof/Machine/Swatch.lean ====
section
/-! DEFINITION. Swatches (R243 to R250): the request on the swatch board, the copy, the stream and its acknowledgement. -/
namespace Sys2Proof.Machine

/-- Codes of Table 9-9. -/
def SwState.code : SwState → Nat
  | .idle => 0 | .pending => 1 | .copying => 2 | .streaming => 3 | .awaitAck => 4 | .acked => 5 | .failed => 6 | .rejected => 7

/-- The swatch board handle that the map header names, 0 for none (R230, R244). -/
def Device.swBoard (d : Device) (p : Nat) : Nat :=
  let h := (d.part p).mapH
  if h = 0 then 0 else fld (d.hRead p h 0x14 4) 0 4

/-- The status block (Table 9-9). -/
def Swatch.block (w : Swatch) : List Byte :=
  toLe 4 w.id ++ toLe 1 w.state.code ++ toLe 1 w.cause ++ toLe 2 0 ++ toLe 4 w.step ++ toLe 4 0 ++ toLe 8 w.bytes ++
  toLe 4 w.ackId ++ toLe 4 w.ackStep ++ (w.digest ++ List.replicate 32 0#8).take 32

/-- A swatch changes: its status block, whose stack the write wakes, and its registers follow (R249, R252); SENT follows the messages that
leave (`Device.countSwatch`). -/
def setSwatch (d : Device) (p : Nat) (f : Swatch → Swatch) : Device :=
  let w := f (d.part p).swatch
  let d := d.modPart p (fun P => { P with swatch := w })
  let b := w.board
  let d := if b ≠ 0 && decide (64 ≤ (d.part p).sizeOf b) then (d.hStore p b 0 w.block).wakeFor p b 7 else d
  (((d.wr (fAckStep p) w.ackStep).wr (fSwId p) w.id).wr (fSwCause p) w.cause).wr (fSwState p) w.state.code

/-- A swatch ends with a cause (Table 9-9). -/
def endSwatch (d : Device) (p : Nat) (st : SwState) (cause : Nat) : Device := setSwatch d p (fun w => { w with state := st, cause := cause })

/-- Is a swatch taken and not yet ended? -/
def Swatch.underWay (w : Swatch) : Bool := w.state = .copying || w.state = .streaming || w.state = .awaitAck
/-- A swatch under way fails. -/
def failSwatch (d : Device) (p cause : Nat) : Device := if (d.part p).swatch.underWay then endSwatch d p .failed cause else d

/-- Content bytes of a listed handle in the image: an EVAL entry holds the shard header and the W_OFF region (Table 9-6). -/
def contentRanges (d : Device) (p kind h : Nat) : List (Nat × Nat) :=
  if kind = 1 then [(0, (d.part p).sizeOf h)]
  else
    let b := d.shardHdr p h
    let w := ((regionSizes b).getD 0 (0x18, 0)).2
    (0, 128) :: (if fld b 0x18 4 = 0 then [] else [(fld b 0x18 4 * 64, w)])
/-- Length of the content. -/
def contentBytes (d : Device) (p kind h : Nat) : Nat := ((contentRanges d p kind h).map (·.2)).sum
/-- IMAGE_BYTES (R246). -/
def imageBytes (d : Device) (p kind : Nat) (hs : List Nat) : Nat := 256 + (hs.map (fun h => 64 + ceil64 (contentBytes d p kind h))).sum

/-- Is a listed handle allowed for the kind (Table 9-6)? -/
def swHandleOk (P : Part) (kind h : Nat) : Bool :=
  match P.entry h with
  | none => false
  | some e => if kind = 0 then bit e.access 3 else !bit e.access 1

/-- A descriptor keeps Tables 9-6 and 9-7; `b`: the board's bytes from 0x40 on. DESIGN CHOICE (log 119): one whose COUNT entries reach beyond
the board's SIZE breaks them too, and is rejected as BAD_DESC. -/
def swDescOk (P : Part) (b : List Byte) (size : Nat) : Bool :=
  let n := fld b 0xC 2
  let hs := (List.range n).map (fun i => fld b (64 + 8 * i) 4)
  decide (fld b 0 1 = 1) && decide (fld b 1 1 ≤ 1) && decide (fld b 2 1 ≤ 1) && zeros b 3 1 && decide (fld b 4 4 ≠ 0) &&
  decide (1 ≤ n) && decide (n ≤ 4096) && decide (128 + 8 * n ≤ size) && decide (fld b 0x14 2 ≤ 800) && zeros b 0x16 42 &&
  (List.range n).all (fun i => zeros b (64 + 8 * i + 4) 4) && hs.all (fun h => swHandleOk P (fld b 1 1) h && decide (h ≠ fld b 0x10 4)) &&
  (match P.entry (fld b 0x10 4) with
   | none => false
   | some e => bit e.access 0)

/-- The last committed step that a swatch taken at the seam of step `s` captures, and NEXT_STEP after it: the step whose commit is only
to be recorded counts, since the copy waits for the listed shards' updates of it (R245, R226). -/
def Device.captured (d : Device) (p s : Nat) : Nat × Nat :=
  if (d.part p).uncommitted.any (fun x => decide (x.1 = s)) then (s, (s + 1) % 2 ^ 32) else (d.rd (fLastCommit p), (d.part p).nextStep)

/-- A request is judged at the seam of step `s` (R245), with the length of its image as its handles stand now. DESIGN CHOICE (log 134): Table
9-6 is not checked again for a request that was PENDING, whatever has become of its handles since. DESIGN CHOICE (log 151): STEP and BYTES of a
request that is PENDING show the last commit and the length of this moment, and those of one REJECTED as it is first read 0. -/
def judgeSwatch (d : Device) (p s : Nat) : Device :=
  let w := (d.part p).swatch
  let n := imageBytes d p w.kind w.handles
  if w.take ≠ 0 && w.take < s then endSwatch d p .rejected 1
  else if (d.part p).sizeOf w.bufH < n then endSwatch d p .rejected 2
  else
    let c := d.captured p s
    setSwatch d p (fun w => { w with state := if s < w.take then .pending else .copying, bytes := n, step := c.1, next := c.2 })

/-- A new request on the board at a handle: its bytes from 0x40 on. DESIGN CHOICE (log 120): a board handle that is absent, shorter than
descriptor and status block, or without ACCESS.STREAM or WRITE refuses no LAUNCH; one that is absent or too short is passed over, and
the access bits are not looked at. -/
def Device.swNew (d : Device) (p h : Nat) : Option (List Byte) :=
  if h = 0 || (d.part p).sizeOf h < 128 then none
  else
    let b := d.hRead p h 0x40 (64 + 8 * fld (d.hRead p h 0x4C 2) 0 2)
    if !bit (fld b 2 1) 0 || fld b 4 4 = fld (d.hRead p h 0 4) 0 4 then none else some b
/-- Handles that a request lists. -/
def swHandles (b : List Byte) : List Nat := (List.range (fld b 0xC 2)).map (fun i => fld b (64 + 8 * i) 4)
/-- Does a request keep Tables 9-6 and 9-7? -/
def Device.swOk (d : Device) (p h : Nat) (b : List Byte) : Bool := swDescOk (d.part p) b ((d.part p).sizeOf h)
/-- Handles that the device reads at a seam to act on the board: the map, the board, and the shards of an EVAL request, for the length of
its image. -/
def Device.swReads (d : Device) (p : Nat) : List Nat :=
  let w := (d.part p).swatch
  let mapH := (d.part p).mapH
  let h := d.swBoard p
  if w.underWay then []
  else if w.state = .pending then (if w.kind = 0 then w.handles else [])
  else if !d.reachAll p [mapH] then [mapH]
  else if !d.reachAll p [h] then [h]
  else match d.swNew p h with
    | none => []
    | some b => if fld b 1 1 = 0 && d.swOk p h b then swHandles b else []

/-- The board is read at the seam of step `s` (R245): a new request is acted on, a pending one judged again. -/
def swatchSeam (d : Device) (p s : Nat) : Device :=
  let w := (d.part p).swatch
  let h := d.swBoard p
  if w.underWay then d
  else if w.state = .pending then judgeSwatch d p s
  else match d.swNew p h with
    | none => d
    | some b =>
      let ok := d.swOk p h b
      let P := d.part p
      let req : Swatch :=
        { Swatch.reset with
          id := fld b 4 4, kind := fld b 1 1, job := P.jobId, dev := P.devId, desc := P.desc, board := h, ackId := w.ackId, ackStep := w.ackStep, destFlow := fld b 0xE 2,
          bufH := fld b 0x10 4, rate := fld b 0x14 2, handles := if ok then swHandles b else [], take := fld b 8 4 }
      let d := (d.modPart p (fun P => { P with swatch := req })).wr (fSwSent p) 0
      if ok then judgeSwatch d p s else endSwatch d p .rejected 3
/-- The board of the seam whose work runs is read, once what the device reads for it serves; until then its stacks are woken (R346). -/
def swatchTurn (d : Device) (p : Nat) : Device :=
  if !(d.part p).swDue then d
  else whenReached d p (d.swReads p) 7 (fun d => swatchSeam (d.modPart p (fun P => { P with swDue := false })) p (d.rd (fGaugeStep p)))

-- The copy (R246).

/-- The image's 256-byte header. -/
def Swatch.header (w : Swatch) : List Byte :=
  toLe 2 1 ++ toLe 1 w.kind ++ toLe 1 0 ++ toLe 4 w.id ++ toLe 4 w.job.toNat ++ toLe 4 w.step ++ toLe 4 w.next ++
  toLe 2 w.handles.length ++ toLe 2 w.dev ++ toLe 8 w.bytes ++ List.replicate 96 0#8 ++ (w.desc ++ List.replicate 128 0#8).take 128
/-- A listed handle's entry. DESIGN CHOICE (log 134): one that has been FREEd since the request was judged stands with CLASS, ACCESS, SIZE
and BYTES 0, and one allocated anew as it is now. -/
def imageEntry (d : Device) (p : Nat) (w : Swatch) (h : Nat) : List Byte :=
  let e := ((d.part p).entry h).getD { cls := 0, access := 0, localLt := 0, size := 0, place := ⟨false, 0, [], []⟩ }
  let c := (contentRanges d p w.kind h).flatMap (fun r => d.hRead p h r.1 r.2)
  toLe 4 h ++ toLe 1 e.cls ++ toLe 1 e.access ++ toLe 2 0 ++ toLe 8 e.size ++ toLe 8 c.length ++ List.replicate 40 0#8 ++
  c ++ List.replicate (ceil64 c.length - c.length) 0#8
/-- The image. -/
def imageOf (d : Device) (p : Nat) (w : Swatch) : List Byte := w.header ++ w.handles.flatMap (imageEntry d p w)

/-- Why the copy fails, if it does: the first listed handle with a TORN shard or a poisoned granule. -/
def copyFault (d : Device) (p : Nat) (w : Swatch) : Option Nat :=
  w.handles.findSome? (fun h =>
    if (((d.part p).entry h).map (fun e => bit e.access 3)).getD false && d.shardTorn p h then some 4
    else if (d.part p).poisoned h 0 ((d.part p).sizeOf h) then some 5 else none)

/-- What a swatch holds when its step's commit can no longer be recorded (R220): the step before. -/
def Device.asCommitted (d : Device) (p : Nat) (w : Swatch) : Swatch :=
  if (d.part p).tornStep = some w.step then { w with step := d.rd (fLastCommit p), next := w.step } else w

/-- SWATCH_COPY_DONE: once the seam's step is written to every listed shard, its RES_SEL flipped too, and the engines are free (R271), the
image stands in BUF_H. `bad`: a word that the copy reads and ECC cannot correct (R267). -/
def copyDone (p : Nat) (bad : Option WordFind) (d : Device) : Device :=
  let w := d.asCommitted p (d.part p).swatch
  if w.state ≠ .copying || d.movesLeft p ≠ [] || (d.part p).updates.any (fun u => w.handles.contains u.desc.shard) ||
     (d.part p).resFlips.any (fun x => w.handles.contains x.2) || !d.enginesFree p ((w.bufH :: w.handles).flatMap (d.part p).stacksOf) then d
  else whenReached d p (w.bufH :: w.handles) 7 (fun d =>
    let d := metBy p none w.handles bad d
    match copyFault d p w with
    | some c => endSwatch d p .failed c
    | none =>
      let img := imageOf d p w
      setSwatch (d.hStore p w.bufH 0 img) p (fun w =>
        { d.asCommitted p w with state := .streaming, digest := Config.shake256 img 256, sent := 0 }))
/-- SWATCH_COPY_DONE -/
def execSwatchCopyDone (x : PartWork) (s : State) : Host.Outcome State Fault Refusal := onDev (copyDone x.p x.bad) s

-- The stream (R247, R248).

/-- Message header of a swatch stream. -/
def swHeader (w : Swatch) (typ off count : Nat) : List Byte :=
  toLe 1 typ ++ toLe 1 w.kind ++ toLe 2 0 ++ toLe 4 w.id ++ toLe 4 w.job.toNat ++ toLe 2 w.dev ++ toLe 2 0 ++
  toLe 8 off ++ toLe 2 count ++ List.replicate 6 0#8

/-- Does data of a flow wait to be sent? -/
def Flow.dataWaits (f : Flow) : Bool := f.waiting.any (fun x => !x.1)

/-- Does the find lie in the `n` bytes at offset `off` of a handle? -/
def foundIn (b : WordFind) (h off n : Nat) : Bool :=
  decide (b.handle.toNat = h) && decide (off ≤ b.off.toNat) && decide (b.off.toNat < off + n)
/-- Bytes of the image that a DATA carries. DESIGN CHOICE (log 157): no cause of Table 9-9 stands for a word of BUF_H that ECC cannot correct as
the image streams; it is recorded and its granule poisoned, the bytes of that granule are free values, and the stream goes on. -/
def streamBytes (p : Nat) (w : Swatch) (n : Nat) (bad : Option WordFind) (d : Device) : Device × List Byte :=
  let bs := d.hRead p w.bufH w.sent n
  match bad with
  | none => (d, bs)
  | some b =>
    if !foundIn b w.bufH w.sent n || !d.wordThere p w.bufH b.off.toNat then (d, bs)
    else if b.corrected then (readCe p w.bufH b.off.toNat d, bs)
    else
      let lost (x : Byte × Nat) : Byte := if (w.sent + x.2) / 2048 = b.off.toNat / 2048 then Config.freeByte (d.free + x.2) else x.1
      (readUe p w.bufH b.off.toNat none { d with free := d.free + n }, bs.zipIdx.map lost)
/-- SWATCH_DATA_SEND: the next 8,160 bytes of the image leave, once the stacks of BUF_H serve, and END after the last of them has left; while
a DATA waits for credit no other is made. Without an OPEN flow to a receiver the swatch fails. -/
def dataSend (p : Nat) (bad : Option WordFind) (d : Device) : Device :=
  let w := (d.part p).swatch
  let f := d.flow w.destFlow
  if w.state ≠ .streaming then d
  else if f.st ≠ .opened || f.kind ≠ 1 || f.part ≠ p then endSwatch d p .failed 6
  else if f.dataWaits then d
  else if w.sent < w.bytes then
    let n := min 8160 (w.bytes - w.sent)
    whenReached d p [w.bufH] 7 (fun d =>
      let x := streamBytes p w n bad d
      setSwatch (flowSend x.1 w.destFlow false (.raw (swHeader w 0x31 w.sent n ++ x.2))) p (fun w => { w with sent := w.sent + n }))
  else
    setSwatch (flowSend d w.destFlow true (.raw (swHeader w 0x32 0 40 ++ toLe 8 w.bytes ++ w.digest))) p
      (fun w => { w with state := .awaitAck })
/-- SWATCH_DATA_SEND -/
def execSwatchDataSend (x : PartWork) (s : State) : Host.Outcome State Fault Refusal := onDev (dataSend x.p x.bad) s

/-- SWATCH_ACK. DESIGN CHOICE (log 121): of the header's fields SWATCH_ID alone is compared, and an ACK of another one is passed over;
JOB_ID, DEV_ID, KIND and the flow are not looked at. ACKED only when the receiver stored the image and its count and digest match (R248). -/
def ackArrive (a : SwatchAck) (d : Device) : Device :=
  let p := a.part.val
  let w := (d.part p).swatch
  if w.state ≠ .awaitAck || a.swatchId.toNat ≠ w.id then d
  else if a.result ≠ 0 then endSwatch d p .failed 8
  else if a.imageBytes.toNat = w.bytes && a.digest = w.digest then
    setSwatch d p (fun w => { w with state := .acked, ackId := w.id, ackStep := w.step })
  else endSwatch d p .failed 7
/-- SWATCH_ACK -/
def execSwatchAck (a : SwatchAck) (s : State) : Host.Outcome State Fault Refusal := onDev (ackArrive a) s

end Sys2Proof.Machine
end

