-- ==== Sys2Proof/Machine/Chind.lean ====
section
/-! DEFINITION. Chind (R280 to R306): frame checks, envelopes and their key slots (R320, R321), flow contexts, delivery,
acknowledgement, credit, loss, and what ports and links do. -/
namespace Sys2Proof.Machine

-- Frames (R284).

/-- A port can receive: its link is UP and its domain ON. -/
def Device.portHears (d : Device) (n : Nat) : Bool := decide (d.rd (fLink n) = 2) && d.domOn (64 + n)
/-- Does MACsec let a frame through: in ADMITTED it needs a SECURED port, a valid SecTAG and ICV, and a packet number that replay
protection with window REPLAY_WIN takes (R322)? -/
def secOk (d : Device) (n : Nat) (secTag : Bool) (pn : Nat) : Bool :=
  decide (d.rd fMode ≠ 0) || (secTag && d.secured n && decide ((d.port n).rxPn ≤ pn + d.rd fReplayWin))
/-- Bytes of a packet's IP packet (Table 11-2). -/
def ipLength (k : Packet) : Nat := 80 + (if k.env.isSome then 48 else 0) + k.payload.length
/-- Checks of R284 that need no context, MACsec's, and the MTU of 9,216 bytes (R280, R282). -/
def frameOk (d : Device) (k : Packet) : Bool :=
  decide (ipLength k ≤ 9216) && k.fcsOk && k.ipv6 && !k.extHdr && k.ownAddr && k.udpOk && decide (k.ver = 1) && !k.rsvdType && secOk d k.port.val k.secTag k.pn.toNat
/-- A frame is dropped and counted. -/
def dropFrame (d : Device) (n : Nat) : Device := d.inc (fDrops n)
/-- A frame without a valid SecTAG and ICV in ADMITTED is an ICV failure of its port. -/
def icvCount (d : Device) (n : Nat) (secTag : Bool) : Device := if d.rd fMode = 0 && !secTag then d.inc (fIcvFail n) else d
/-- The next packet number expected on a port follows a frame that MACsec took. -/
def takePn (d : Device) (n pn : Nat) : Device :=
  if d.rd fMode = 0 then d.modPort n (fun x => { x with rxPn := max x.rxPn (pn + 1) }) else d

/-- The first frame after a port's exit decides its wake source: WAKE_FRAME when it is a WAKE that the port does not drop (R305). -/
def firstFrame (d : Device) (n : Nat) (wake : Bool) : Device :=
  if (d.port n).wakeFirst then
    (if wake then d.wr (fWakeSrc n) 2 else d).modPort n (fun x => { x with wakeFirst := false })
  else d

/-- A frame that no port hears is lost; on a port in RET, or on its way out of ON, it is activity that wakes it (R305,
Table 11-9). -/
def unheard (d : Device) (n code : Nat) : Device := if d.rd (fDom (64 + n)) = 2 then d else wakeDom d (64 + n) code
/-- A frame arrives: nothing hears it while the port is not ON or the link not UP. -/
def frame (k : Packet) (wake : Bool) (f : Device → Device) (d : Device) : Device :=
  let n := k.port.val
  if !d.portHears n then unheard d n (if wake then 9 else 8)
  else
    let d := firstFrame d n (wake && frameOk d k)
    if frameOk d k then f (takePn d n k.pn.toNat)
    else dropFrame (icvCount d n k.secTag) n

/-- The Chind header of a packet (Table 11-3). -/
def packetHeader (typ : Nat) (k : Packet) : List Byte :=
  toLe 1 (16 * k.ver.toNat + typ) ++ toLe 1 k.flags.toNat ++ toLe 2 k.dstFlow.toNat ++ toLe 2 k.srcFlow.toNat ++ toLe 1 k.path.toNat ++
  toLe 1 k.ports.toNat ++ toLe 4 k.psn.toNat ++ toLe 4 k.ackPsn.toNat ++ toLe 4 k.sack.toNat ++ toLe 4 k.credit.toNat ++
  toLe 2 k.payload.length ++ toLe 2 k.srcDev.toNat ++ toLe 4 k.incarn.toNat

-- Envelopes (R321).

/-- Do the envelope's fields suit a flow? -/
def envFields (f : Flow) (e : Envelope) : Bool :=
  let dev := decide (bits e.sender.toNat 63 60 = 0xD)
  decide (e.ver = 1) && decide (e.rsvd = 0) && decide (e.rsvd2 = 0) &&
  (if e.kind = 0 then !dev else decide (e.kind = 1) && dev) &&
  !(decide (e.kind = 0) && decide (f.kind = 2)) && !(decide (e.kind = 1) && decide (f.kind ≤ 1)) &&
  (match f.epochs.find? (fun x => decide (x.1 = e.sender)) with
   | none => true
   | some x => decide (x.2 ≤ e.epoch.toNat + 1))

/-- Is a key slot still named by a flow of the die, for its sender's highest epoch or the one below? -/
def Device.slotUsed (d : Device) (die : Nat) (s : KeySlot) : Bool :=
  !s.ready || d.flows.any (fun e => decide (e.2.st ≠ .free) && decide (e.2.home = die) && decide (e.2.part = s.part) &&
    e.2.epochs.any (fun x => decide (x.1 = s.sender) && (decide (x.2 = s.epoch) || decide (x.2 = s.epoch + 1))))

/-- Lowest slot number that no key slot has. -/
def freeSlot (ks : List KeySlot) : Option Nat := (List.range 4096).find? (fun n => ks.all (fun s => decide (s.num ≠ n)))

/-- A derivation begins in a free slot, the oldest reclaimed if need be; without one nothing begins (R321). -/
def startKey (d : Device) (die part : Nat) (e : Envelope) : Device :=
  let ks := (d.die die).keys
  let ks := if ks.length < 4096 then ks else dropFirst (fun s => !d.slotUsed die s) ks
  match freeSlot ks with
  | none => d
  | some n => d.modDie die (fun x =>
      { x with keys := ks ++ [{ num := n, part := part, sender := e.sender, epoch := e.epoch.toNat, ready := false }] })

/-- The packet with its payload as the envelope's key decrypts it (R320). -/
def openPacket (k : Packet) (ks : List Byte × List Byte) : Packet :=
  match k.env with
  | none => k
  | some e => { k with payload := envCrypt ks e k.payload }

/-- The key slot of an envelope's sender and epoch on a flow's home die. -/
def Device.slotFor (d : Device) (c : Flow) (e : Envelope) : Option KeySlot :=
  (d.die c.home).keys.find? (fun s => decide (s.part = c.part) && decide (s.sender = e.sender) && decide (s.epoch = e.epoch.toNat))
/-- Key and nonce prefix that a slot holds. -/
def Device.slotKeys (d : Device) (s : KeySlot) : List Byte × List Byte := keyPair (d.unstore s.part s.key)

/-- The envelope of a packet for context `i` is opened: `f` of the opened packet on success; a failed check is dropped under R284 and counted,
a packet without a derived key is dropped and counted in KEY_MISS. No envelope in ADMITTED. -/
def openEnvelope (typ : Nat) (k : Packet) (i : Nat) (f : Packet → Device → Device) (d : Device) : Device :=
  let c := d.flow i
  let fail (d : Device) : Device := dropFrame (d.inc fEnvFail) k.port
  if d.rd fMode ≠ 2 then f k d
  else match k.env with
    | none => fail d
    | some e =>
      if (d.part c.part).ts = [] || !envFields c e then fail d
      else match d.slotFor c e with
        | none => (startKey d c.home c.part e).inc fKeyMiss
        | some s =>
          if !s.ready then d.inc fKeyMiss
          else if e.tag ≠ envTag (d.slotKeys s) e (packetHeader typ k) (openPacket k (d.slotKeys s)).payload then fail d
          else f (openPacket k (d.slotKeys s)) (d.modFlow i (fun c =>
            let old := ((c.epochs.find? (fun x => decide (x.1 = e.sender))).map (·.2)).getD 0
            if e.epoch.toNat < old then c
            else { c with epochs := (e.sender, e.epoch.toNat) :: c.epochs.filter (fun x => decide (x.1 ≠ e.sender)), keyIdx := BitVec.ofNat 16 s.num }))

/-- KEY_DERIVATION_DONE: the oldest derivation of a die ends, and the slot holds the key and nonce prefix (R317, R318); the result is
discarded when the partition's keys are gone (R332). -/
def keyDone (die : Nat) (d : Device) : Device :=
  match (d.die die).keys.find? (fun s => !s.ready) with
  | none => d
  | some s =>
    let ts := (d.part s.part).ts
    if ts = [] then d.modDie die (fun x => { x with keys := dropFirst (fun s => !s.ready) x.keys })
    else
      let k := d.store s.part (envKey ts s.sender.toNat s.epoch)
      k.2.modDie die (fun x => { x with keys := replaceFirst (fun s => !s.ready) (fun s => { s with ready := true, key := k.1 }) x.keys })
/-- KEY_DERIVATION_DONE -/
def execKeyDerivationDone (die : Fin 2) (s : State) : Host.Outcome State Fault Refusal := onDev (keyDone die) s

-- Contexts (R292, R296).

/-- Lowest FREE context from `lo` on, below `hi`; `flows` lists contexts in ascending order. -/
def lowestFree (lo hi : Nat) (flows : Tab Flow) : Option Nat :=
  let c := flows.foldl (fun c e => if e.1 = c && e.2.st ≠ .free then c + 1 else c) lo
  if c < hi then some c else none
/-- A FREE context on a die; contexts 0 to 7 are listeners. -/
def Device.freeCtx (d : Device) (die : Nat) : Option Nat := if die = 0 then lowestFree 8 32768 d.flows else lowestFree 32768 65536 d.flows

/-- A LAUNCH flow is gone: unsolicited messages of its work items are dropped (R304). -/
def hostGone (d : Device) (i : Nat) : Device :=
  let f := d.flow i
  let mute (w : WorkItem) : WorkItem := if w.flow.toNat = i then { w with mute := true } else w
  if f.kind ≠ 0 || f.st = .free || f.st = .listen then d
  else d.modPart f.part (fun P => { P with wis := P.wis.map mute, finalWait := P.finalWait.map mute })
/-- A context goes FREE with no packet sent. -/
def freeFlow (d : Device) (i : Nat) : Device :=
  let d := hostGone d i
  let f := d.flow i
  (d.setFlow i { Flow.reset with incarn := f.incarn }).modDie f.home (fun x => { x with rotation := x.rotation.filter (· ≠ i) })
/-- Every context of a partition goes FREE. -/
def freeFlows (d : Device) (p : Nat) : Device :=
  (d.flows.filter (fun e => decide (e.2.st ≠ .free) && decide (e.2.part = p))).foldl (fun d e => freeFlow d e.1) d
/-- Listener context p goes to LISTEN. -/
def listen (d : Device) (p : Nat) : Device := d.setFlow p { Flow.reset with st := .listen, kind := 3, part := p, peerDev := 0xFFFF }

/-- A flow becomes OPEN: one of the die's first 1,024 OPEN flows has a floor of 2 slots of credit (R300). -/
def becomeOpen (d : Device) (i : Nat) : Device :=
  let f := d.flow i
  let n := (d.flows.filter (fun e => e.2.floor && decide (e.2.home = f.home))).length
  notePorts (d.setFlow i { f with st := .opened, floor := decide (n < 1024), rxCredit := f.rxNext + (if n < 1024 then 2 else 0), retries := 0 })
/-- A flow leaves OPEN for another state, and with it its floor. -/
def leaveOpen (d : Device) (i : Nat) (st : FlowSt) : Device :=
  let d := hostGone d i
  let f := d.flow i
  (d.setFlow i { f with st := st, floor := false }).modDie f.home (fun x => { x with rotation := x.rotation.filter (· ≠ i) })

/-- 16 bytes of a port's IPv6 address, most significant first. -/
def Device.portIp (d : Device) (n : Nat) : List Byte := (toLe 8 (d.rd (fPortIpHi n))).reverse ++ (toLe 8 (d.rd (fPortIpLo n))).reverse

/-- OPEN payload for a peer (Table 11-5). -/
def openBytes (d : Device) (p : Nat) : List Byte :=
  let P := d.part p
  toLe 1 2 ++ toLe 1 8 ++ toLe 1 0xF0 ++ toLe 1 0 ++ toLe 4 P.jobId.toNat ++ toLe 2 P.devId ++ List.replicate 6 0#8 ++
  (List.range 8).flatMap d.portIp

/-- Handle of the peer table (R294). -/
def peerTable : Nat := 0xFFFFFF00
/-- A device's entry of the peer table. -/
def Device.peerEntry (d : Device) (p dev : Nat) : List Byte := d.hRead p peerTable (64 + 144 * dev) 144

/-- OPEN leaves, if a path is usable. -/
def sendOpen (d : Device) (i : Nat) : Device :=
  let f := d.flow i
  if d.paths f = [] || !d.canSeal f then d else sendNew d i 4 true (.raw (openBytes d f.part))

/-- Context `i` opens a PEER flow to a device: addresses from the peer table, a new INCARN; the lower DEV_ID sends the OPEN (R294, R295). -/
def openPeer (d : Device) (p dev i : Nat) (msgs : List (Bool × Msg)) : Device :=
  let e := d.peerEntry p dev
  (if (d.part p).devId < dev then fun d => sendOpen d i else id) (d.setFlow i
    { Flow.reset with
      st := .opening, kind := 2, part := p, home := dev % 2, peerFlow := BitVec.ofNat 16 (fld e 0 1), peerDev := BitVec.ofNat 16 dev,
      incarn := (d.flow i).incarn + 1, jobId := (d.part p).jobId, addrs := e.drop 16, planes := 0xF0#8,
      remotes := e.getD 1 0#8, farPorts := e.getD 1 0#8, addrRef := BitVec.ofNat 16 dev, waiting := msgs })

/-- The first LAUNCH of a job opens a flow to every other device; the lower DEV_ID sends the OPEN (R295). -/
def openPeers (d : Device) (p : Nat) : Device :=
  let P := d.part p
  ((List.range P.devCount).filter (· ≠ P.devId)).foldl (fun d dev =>
    if dev < P.devId then d.modPart p (fun P => { P with peerWait := P.peerWait ++ [(dev, [])] })
    else match d.freeCtx (dev % 2) with
      | none => d
      | some i => openPeer d p dev i []) d

/-- A device is no longer lost: it is awaited again. -/
def foundAgain (d : Device) (p dev : Nat) : Device :=
  d.modPart p (fun P => { P with voids := P.voids.filter (· ≠ dev), fataled := P.fataled.filter (· ≠ dev) })

/-- A later LAUNCH takes the UNREACHABLE flows of the partition to OPENING (Table 11-7), where the higher DEV_ID awaits the other's OPEN
(R295); outside a work item their devices are no longer lost (R304). -/
def reopenPeers (d : Device) (p : Nat) : Device :=
  (d.flows.filter (fun e => decide (e.2.kind = 2) && decide (e.2.part = p) && decide (e.2.st = .unreachable))).foldl (fun d e =>
    let dev := e.2.peerDev.toNat
    openPeer (if (d.part p).isRunning then d else foundAgain d p dev) p dev e.1 []) d

/-- A flow is CLOSING and owes its far end a CLOSE, which goes behind what may be sent (R295, R296). -/
def startClose (d : Device) (i : Nat) : Device := pump ((leaveOpen d i .closing).modFlow i (fun f => { f with closeDue := true })) i
/-- CLOSE of a job: CLOSE is sent on each PEER flow that is OPEN or CLOSING, the others go FREE (R295). -/
def closePeers (d : Device) (p : Nat) : Device :=
  let d := (d.flows.filter (fun e => decide (e.2.kind = 2) && decide (e.2.part = p) && decide (e.2.st ≠ .free))).foldl (fun d e =>
    if e.2.closeDue || e.2.unacked.any (fun u => decide (u.typ = 7)) then d
    else if e.2.st = .opened || e.2.st = .closing then startClose d e.1 else freeFlow d e.1) d
  d.modPart p (fun P => { P with peerWait := [] })

/-- Payload of a HELLO on a direct port (R287). -/
def helloBytes (d : Device) (n : Nat) : List Byte :=
  let jobs := (List.range 8).filter (fun p => (d.part p).job.isSome)
  d.portIp n ++ (toLe 6 (d.rd (fPortMac n))).reverse ++ toLe 1 d.strapPos.toNat ++ toLe 1 jobs.length ++
    jobs.flatMap (fun p => toLe 1 p ++ toLe 1 0 ++ toLe 2 (d.part p).devId ++ toLe 4 (d.part p).jobId.toNat)
/-- HELLO on a direct port (R287): a Chind packet of TYPE 8, PSN 0 and no flow, under no envelope (R290, R320). Its destination before a
HELLO of the neighbour names it is open: free bytes (log 107). In ADMITTED it waits until MACsec has secured the port (Table 12-1, R322). -/
def sendHello (d : Device) (n : Nat) : Device :=
  if !d.isDirect n || d.rd (fLink n) ≠ 2 || (d.rd fMode = 0 && !d.secured n) then d
  else
    let body := helloBytes d n
    let h := toLe 1 0x18 ++ toLe 1 0 ++ toLe 2 0 ++ toLe 2 0 ++ toLe 1 (n + 8 * (if n = 3 then 7 else 3) + 64) ++ toLe 1 d.portsByte ++ toLe 4 0 ++
      toLe 4 0 ++ toLe 4 0 ++ toLe 4 0 ++ toLe 2 body.length ++ toLe 2 0xFFFF ++ toLe 4 0
    let far := (d.port n).neighbour
    let b := d.freeBs 22
    let fr := b.2.frameTo n 0 (match far with
      | none => b.1.take 16
      | some x => x.take 16)
    let fr := if far.isNone then { fr with dstMac := BitVec.ofNat 48 (leNat (b.1.drop 16)) } else fr
    b.2.emitPacket n fr h none body (.raw body)
/-- HELLO on both direct ports, at a first LAUNCH and at a CLOSE. -/
def sendHellos (d : Device) : Device := sendHello (sendHello d 3) 7

-- Credit (R300).

/-- Does the consumer of a flow withhold credit: a full early-message pool, deferral areas full of parked sums, a request
outstanding at the launch endpoint? -/
def Device.withheld (d : Device) (i : Nat) : Bool :=
  let f := d.flow i
  let P := d.part f.part
  if f.kind = 2 then
    decide (64 ≤ d.earlyCount) ||
    decide (2 ^ 28 * ((unitsOf P.cols).filter (fun x => d.domOn (32 + x))).length ≤ (P.parked.map (fun q => q.bytes.length)).sum)
  else f.kind = 0 && (P.putPosts.any (fun q => decide (q.flow.toNat = i)) || P.waitReqs.any (fun q => decide (q.req.flow.toNat = i)))

/-- Slots that a die's flows without a floor hold as credit. -/
def Device.creditOut (d : Device) (die : Nat) : Nat :=
  ((d.flows.filter (fun e => decide (e.2.home = die) && decide (e.2.st = .opened) && !e.2.floor)).map
    (fun e => (e.2.rxCredit - e.2.rxNext).toNat)).sum

/-- The credit rotation: a free slot for each waiting flow in turn; 6,144 slots lie beyond the floors. DESIGN CHOICE (log 67): a flow is
granted one slot a turn and no more. -/
def rotate (die : Nat) : Nat → Device → Device
  | 0, d => d
  | n + 1, d =>
    match (d.die die).rotation.find? (fun i => !d.withheld i) with
    | none => d
    | some i =>
      if d.creditOut die < 6144 then
        rotate die n ((d.modDie die (fun x => { x with rotation := x.rotation.filter (· ≠ i) })).modFlow i (fun f => { f with rxCredit := f.rxCredit + 1 }))
      else d
/-- Credit of a flow after its consumer has freed slots: a floor flow has its 2 slots again. DESIGN CHOICE (log 67): it is granted no more than
those, though up to 1,024 slots beyond RX_NEXT would be allowed. -/
def regrant (d : Device) (i : Nat) : Device :=
  let f := d.flow i
  let d := if f.st = .opened && f.floor && !d.withheld i then d.setFlow i { f with rxCredit := f.rxNext + 2 } else d
  rotate f.home (d.die f.home).rotation.length d

-- Acknowledgement of what was sent (R286, R299, R301).

/-- RTO in ns (R301). -/
def rtoOf (d : Device) (f : Flow) : Nat :=
  if f.srtt = 0 && f.rttvar = 0 then 100000 else min 2000000 (max (1000 * d.rd fRtoMin) (f.srtt.toNat + 4 * f.rttvar.toNat))

/-- A round-trip sample enters SRTT and RTTVAR. DESIGN CHOICE (log 69): the first one sets SRTT to itself and RTTVAR to its half. -/
def Flow.sample (f : Flow) (x : Nat) : Flow :=
  if f.srtt = 0 && f.rttvar = 0 then { f with srtt := BitVec.ofNat 32 x, rttvar := BitVec.ofNat 32 (x / 2) }
  else
    let s := f.srtt.toNat
    let dif := if x ≤ s then s - x else x - s
    { f with srtt := BitVec.ofNat 32 (s - s / 8 + x / 8), rttvar := BitVec.ofNat 32 (f.rttvar.toNat - f.rttvar.toNat / 4 + dif / 4) }

/-- Path weights after an acknowledgement (R286). -/
def Flow.weigh (f : Flow) (ece : Bool) (k : Nat) : Flow :=
  let w := f.weight k
  if ece then { f with weights := tset 64 f.weights k (max 1 (w / 2)), clean := tset 0 f.clean k 0 }
  else if tget 0 f.clean k = 7 then { f with weights := tset 64 f.weights k (min 64 (w + 1)), clean := tset 0 f.clean k 0 }
  else { f with clean := tset 0 f.clean k (tget 0 f.clean k + 1) }

/-- Does an acknowledgement cover a packet? -/
def covers (ctrl : Bool) (ack sack : BitVec 32) (u : TxPkt) : Bool :=
  (u.ctrl == ctrl) && (below u.psn ack || (let k := (u.psn - ack - 1).toNat; decide (u.psn ≠ ack) && decide (k < 32) && bit sack.toNat k))

/-- PSNs above a packet's that the acknowledgement shows received. -/
def aboveCount (ack sack : BitVec 32) (u : TxPkt) : Nat :=
  ((List.range 32).filter (fun k => bit sack.toNat k && below u.psn (ack + 1 + BitVec.ofNat 32 k))).length

/-- A packet is sent again, on a path other than its first copy's when one is usable (R286, R301). -/
def retransmit (d : Device) (i : Nat) (u : TxPkt) : Device :=
  let ks := d.paths (d.flow i)
  let ks := if ks.any (fun k => !u.first.contains k) then ks.filter (fun k => !u.first.contains k) else ks
  if ks = [] || !d.canSeal (d.flow i) then d
  else
    let r := transmit d i u.typ u.ctrl true u.psn u.msg ks
    let mine (v : TxPkt) : Bool := decide (v.psn = u.psn) && (v.ctrl == u.ctrl)
    let again (v : TxPkt) : TxPkt := { v with retx := true, path := r.2, tried := u.tried ++ [r.2] }
    (r.1.modFlow i (fun f => { f with unacked := replaceFirst mine again f.unacked })).inc fRetx

/-- The acknowledgement that a packet carries for one space. -/
def takeAck (i : Nat) (ctrl ece : Bool) (ack sack : BitVec 32) (d : Device) : Device :=
  let f := d.flow i
  let nxt := if ctrl then f.ctlTxNext else f.txNext
  let got := f.unacked.filter (covers ctrl ack sack)
  let d := if ece then d.inc fEce else d
  if got = [] || 2 ^ 31 ≤ (nxt - ack).toNat then d
  else
    let x := Config.freeNat d.free % 2 ^ 32
    let rest := f.unacked.filter (fun u => !covers ctrl ack sack u)
    let low (c : Bool) (n : BitVec 32) : BitVec 32 := ((rest.find? (fun u => u.ctrl == c)).map (·.psn)).getD n
    let f := if got.any (fun u => !u.retx) then f.sample x else f
    let f := if d.rd fEcnEn = 1 then ((got.map (·.path)).dedup).foldl (fun f k => f.weigh ece k) f else f
    let f := { f with unacked := rest, retries := 0, txUnack := low false f.txNext }
    let d := { (d.setFlow i { f with rto := rtoOf d f }) with free := d.free + 1 }
    if f.st = .closing && got.any (fun u => decide (u.typ = 7)) then freeFlow d i
    else
      let late := rest.filter (fun u => (u.ctrl == ctrl) && decide (16 ≤ aboveCount ack sack u))
      pump (late.foldl (fun d u => retransmit d i u) d) i

/-- What every packet of a flow brings: PORTS, the acknowledgement of its space and, in the data space, credit. -/
def takeHeader (k : Packet) (i : Nat) (d : Device) : Device :=
  let ctrl := bit k.flags.toNat 0
  let moved := decide ((d.flow i).farPorts ≠ k.ports)
  let d := d.modFlow i (fun f => { f with farPorts := k.ports, txCredit := if !ctrl && below f.txCredit k.credit then k.credit else f.txCredit })
  pump (takeAck i ctrl (bit k.flags.toNat 1) k.ackPsn k.sack (if moved then notePorts d else d)) i

/-- Send the acknowledgement due in a space (R299). -/
def sendAck (d : Device) (i : Nat) (ctrl : Bool) : Device := sendBare d i 2 ctrl
/-- A packet of a space is to be acknowledged: at once when asked, or with the eighth. -/
def oweAck (d : Device) (i : Nat) (ctrl ce now : Bool) : Device :=
  let d := d.modFlow i (fun f => if ctrl then { f with ctlAckDue := f.ctlAckDue + 1, ctlEceDue := f.ctlEceDue || ce }
                                 else { f with ackDue := f.ackDue + 1, eceDue := f.eceDue || ce })
  let n := if ctrl then (d.flow i).ctlAckDue else (d.flow i).ackDue
  if now || 8 ≤ n then sendAck d i ctrl else d

-- Delivery (R298).

/-- A message goes to its consumer; on the recovery flow it is image data (R401). -/
def handOver (d : Device) (i : Nat) (ctrl : Bool) (bs : List Byte) : Device :=
  if d.rd fMode = 0 then
    match d.load with
    | some l => if l.chind && i = 0 then { d with load := some { l with data := mwrite l.data (fld bs 0 8) (bs.drop 8) } } else d
    | none => d
  else d.emit (.deliver (BitVec.ofNat 16 i) ctrl bs)

/-- Next PSN expected in a space. -/
def Flow.expect (f : Flow) (ctrl : Bool) : BitVec 32 := if ctrl then f.ctlRxNext else f.rxNext
/-- One more PSN of a space has been delivered. -/
def Flow.expectNext (f : Flow) (ctrl : Bool) : Flow := if ctrl then { f with ctlRxNext := f.ctlRxNext + 1 } else { f with rxNext := f.rxNext + 1 }

/-- Held messages whose turn has come are delivered; on a CLOSING flow they only count as received (Table 11-9). -/
def drainHeld (i : Nat) (ctrl : Bool) : Nat → Device → Device
  | 0, d => d
  | n + 1, d =>
    let f := d.flow i
    let isNext (h : Bool × BitVec 32 × Stored) : Bool := (h.1 == ctrl) && decide (h.2.1 = f.expect ctrl)
    match f.held.find? isNext with
    | none => d
    | some h =>
      let d := d.setFlow i ({ f with held := f.held.filter (fun x => !isNext x) }.expectNext ctrl)
      drainHeld i ctrl n (if f.st = .closing then d else handOver d i ctrl (d.unstore f.part h.2.2))
/-- A CLOSE that arrived early is taken once the gap below it has filled (R298). -/
def settleClose (d : Device) (i : Nat) : Device :=
  let f := d.flow i
  if f.st = .opened && f.closeAt = some f.ctlRxNext then leaveOpen (d.setFlow i { (f.expectNext true) with closeAt := none }) i .closing else d
/-- Held packets of a space whose turn has come, and then a CLOSE that waited for them. -/
def drainSpace (d : Device) (i : Nat) (ctrl : Bool) : Device :=
  let d := drainHeld i ctrl (d.flow i).held.length d
  let e := settleClose d i
  drainHeld i ctrl (e.flow i).held.length e

/-- Cells of 256 bytes of a die's control pool that control messages held there take (R291, R309: the pool has 65,536 of them). -/
def Device.ctrlCells (d : Device) (die : Nat) : Nat :=
  ((d.flows.filter (fun e => decide (e.2.home = die))).map (fun e =>
    ((e.2.held.filter (·.1)).map (fun h => cdiv h.2.2.bytes.length 256)).sum)).sum

/-- A DATA packet's message, on a flow that is no longer idle: delivered in PSN order or held; duplicates are discarded, and acknowledged again. -/
def takeData (k : Packet) (i : Nat) (d : Device) : Device :=
  let ctrl := bit k.flags.toNat 0
  let now := bit k.flags.toNat 3
  let f := d.flow i
  let gap := (k.psn - f.expect ctrl).toNat
  let dup := decide (2 ^ 31 ≤ gap) || f.held.any (fun h => (h.1 == ctrl) && decide (h.2.1 = k.psn)) || (ctrl && f.closeAt = some k.psn)
  if dup then oweAck d i ctrl false now
  else if f.st = .closing then
    oweAck (if gap = 0 then drainSpace (d.setFlow i (f.expectNext ctrl)) i ctrl
      else d.setFlow i { f with held := f.held ++ [(ctrl, k.psn, {})] }) i ctrl k.ce now
  else if !ctrl && !below k.psn f.rxCredit then d
  else if gap = 0 then
    let d := handOver (d.setFlow i { (f.expectNext ctrl) with idle := false }) i ctrl k.payload
    oweAck (regrant (drainSpace d i ctrl) i) i ctrl k.ce now
  else if ctrl && 65536 < d.ctrlCells f.home + cdiv k.payload.length 256 then d
  else
    let x := d.store f.part k.payload
    oweAck (x.2.setFlow i { f with held := f.held ++ [(ctrl, k.psn, x.1)] }) i ctrl k.ce now

/-- A packet for a flow context: the context checks of R284, the envelope, then `f` of the opened packet; during a passage the ports carry
no traffic (Table 12-1). -/
def flowPacket (typ : Nat) (k : Packet) (f : Packet → Nat → Device → Device) (d : Device) : Device :=
  let i := k.dstFlow.toNat
  frame k false (fun d =>
    let c := d.flow i
    if d.rd fMode = 1 then d
    else if c.st = .free || (c.st ≠ .listen && k.incarn ≠ c.incarn) then dropFrame d k.port
    else openEnvelope typ k i (fun k => f k i) d) d

/-- Does the flow take packets: OPEN or CLOSING? -/
def Device.live (d : Device) (i : Nat) : Bool := let st := (d.flow i).st; decide (st = .opened) || decide (st = .closing)

/-- A control packet that overtakes the OPEN_ACK of an OPENING flow is early: held until the flow is OPEN (R298). -/
def holdOpening (k : Packet) (i : Nat) (d : Device) : Device :=
  let f := d.flow i
  if f.st ≠ .opening || !bit k.flags.toNat 0 || k.psn = f.ctlRxNext || 2 ^ 31 ≤ (k.psn - f.ctlRxNext).toNat ||
     f.held.any (fun h => decide (h.2.1 = k.psn)) || 65536 < d.ctrlCells f.home + cdiv k.payload.length 256 then d
  else
    let x := d.store f.part k.payload
    x.2.setFlow i { f with held := f.held ++ [(true, k.psn, x.1)], ctlAckDue := f.ctlAckDue + 1, ctlEceDue := f.ctlEceDue || k.ce }
/-- DATA -/
def chindData (k : Packet) (d : Device) : Device :=
  flowPacket 1 k (fun k i d => if d.live i then takeData k i (takeHeader k i d) else holdOpening k i d) d
/-- DATA (R298) -/
def execChindData (k : Packet) (s : State) : Host.Outcome State Fault Refusal := onDev (chindData k) s

/-- ACK: an answer to a PROBE counts as progress (R302). -/
def chindAck (k : Packet) (d : Device) : Device :=
  flowPacket 2 k (fun k i d =>
    if d.live i then
      takeHeader k i (d.modFlow i (fun f => if f.probing && !bit k.flags.toNat 0 then { f with retries := 0, probing := false } else f))
    else d) d
/-- ACK (R299) -/
def execChindAck (k : Packet) (s : State) : Host.Outcome State Fault Refusal := onDev (chindAck k) s

/-- PROBE: a flow without floor and without credit joins the credit rotation; the answer carries the credit (R299, R300). -/
def probe (i : Nat) (d : Device) : Device :=
  let f := d.flow i
  let d := if f.st = .opened && !f.floor && f.rxCredit = f.rxNext then
      d.modDie f.home (fun x => if x.rotation.contains i then x else { x with rotation := x.rotation ++ [i] }) else d
  sendAck (regrant d i) i false
/-- PROBE -/
def chindProbe (k : Packet) (d : Device) : Device := flowPacket 3 k (fun k i d => if d.live i then probe i (takeHeader k i d) else d) d
/-- PROBE (R300) -/
def execChindProbe (k : Packet) (s : State) : Host.Outcome State Fault Refusal := onDev (chindProbe k) s

-- Opening and closing (R292 to R296).

/-- A listener's answer leaves on the port the OPEN arrived on, if the partition may still send (R319). -/
def answerOpen (d : Device) (i : Nat) (k : Packet) (typ : Nat) (body : List Byte) : Device :=
  let f : Flow := { (d.flow i) with peerFlow := k.srcFlow, incarn := k.incarn, ctlEceDue := k.ce }
  if !d.canSeal f then d
  else
    let n := k.port.val
    let h := chindHeader d i f typ true false 0 (if d.isDirect n then 64 + n else 8 * n + k.path.toNat % 8) body.length
    let e := sealPacket d f h body
    e.2.2.emitPacket n (d.frameTo n 0 (toLe 16 k.srcAddr.toNat).reverse) h e.1 e.2.1 (.raw body)
/-- OPEN_NAK with a reason: 1 NOT_READY, 2 NO_CONTEXT, 3 REFUSED, 4 LIMIT. -/
def nak (d : Device) (p : Nat) (k : Packet) (reason : Nat) : Device := answerOpen d p k 6 (toLe 1 reason)

/-- The payload of an OPEN is laid out as in Table 11-5: its length, 1 to 8 addresses, reserved bytes 0. -/
def openShape (b : List Byte) : Bool :=
  decide (b.length = 144) && decide (1 ≤ fld b 1 1) && decide (fld b 1 1 ≤ 8) && zeros b 3 1 && zeros b 0xA 6

/-- An OPEN is refused for what it asks (R293): KIND against the sender, or a peer that does not match the peer table. -/
def openRefused (d : Device) (p : Nat) (k : Packet) : Bool :=
  let b := k.payload
  let P := d.part p
  let kind := fld b 0 1
  let dev := fld b 8 2
  let host := match k.env with
    | none => true
    | some e => decide (e.kind = 0)
  let part := match k.env with
    | none => 0
    | some e => bits e.sender.toNat 59 57
  !openShape b || decide (2 < kind) ||
  (if kind = 2 then
     host || (P.job.isSome && (decide (fld b 4 4 ≠ P.jobId.toNat) || decide (P.devId ≤ dev) || decide (fld (d.peerEntry p dev) 0 1 ≠ part)))
   else !host || decide (fld b 4 4 ≠ 0) || decide (dev ≠ 0))

/-- Contexts of LAUNCH and SINK flows of a partition. -/
def Device.hostFlows (d : Device) (p : Nat) : Nat :=
  (d.flows.filter (fun e => decide (e.2.kind ≤ 1) && decide (e.2.part = p) && decide (e.2.st ≠ .free))).length

/-- OPEN_ACK leaves from the context opened, if a path is usable and the partition may send (R319). -/
def sendOpenAck (d : Device) (i : Nat) : Device :=
  let f := d.flow i
  if d.paths f = [] || !d.canSeal f then d else sendNew d i 5 true (.raw [])

/-- An OPEN is accepted in context `i`: its addresses, its PSN, OPEN_ACK sent; messages that waited for the peer leave. -/
def acceptOpen (d : Device) (p i : Nat) (k : Packet) : Device :=
  let b := k.payload
  let kind := fld b 0 1
  let dev := fld b 8 2
  let e := d.peerEntry p dev
  let msgs := (if kind = 2 && (d.flow i).st = .opening then (d.flow i).waiting else []) ++
    (if kind = 2 then (((d.part p).peerWait.find? (fun w => decide (w.1 = dev))).map (·.2)).getD [] else [])
  let d := d.setFlow i
    { Flow.reset with
      kind := kind, part := p, home := if kind = 2 then dev % 2 else 0, peerFlow := k.srcFlow,
      peerDev := if kind = 2 then BitVec.ofNat 16 dev else 0xFFFF, incarn := k.incarn, jobId := if kind = 2 then (d.part p).jobId else 0,
      ctlRxNext := k.psn + 1, ctlEceDue := k.ce, addrs := if kind = 2 then e.drop 16 else b.drop 16, planes := if kind = 2 then 0xF0#8 else b.getD 2 0#8,
      remotes := if kind = 2 then e.getD 1 0#8 else BitVec.ofNat 8 (2 ^ fld b 1 1 - 1), farPorts := k.ports,
      addrRef := if kind = 2 then BitVec.ofNat 16 dev else 0, waiting := msgs,
      epochs := ((k.env.map (fun e => [(e.sender, e.epoch.toNat)])).getD []), keyIdx := (d.flow p).keyIdx }
  let d := if kind = 2 then d.modPart p (fun P => { P with peerWait := P.peerWait.filter (fun w => decide (w.1 ≠ dev)) }) else d
  let d := if kind = 2 && !(d.part p).isRunning then foundAgain d p dev else d
  let d := becomeOpen d i
  pumpPeers (pump (sendOpenAck d i) i) p

/-- OPEN at a listener. A repeated OPEN is answered again from the context it opened. -/
def openArrive (k : Packet) (p : Nat) (d : Device) : Device :=
  let b := k.payload
  let kind := fld b 0 1
  let dev := fld b 8 2
  let st := (d.flow p).st
  if d.rd fMode = 0 then
    match d.load with
    | some l =>
      if p ≠ 0 || !l.chind then d
      else if st = .opened && openShape b && kind = 3 && k.srcAddr = l.addr then answerOpen d 0 k 5 []
      else if st = .listen && openShape b && kind = 3 && k.srcAddr = l.addr then
        let d := d.setFlow 0
          { Flow.reset with
            kind := 3, peerFlow := k.srcFlow, peerDev := 0xFFFF, incarn := k.incarn, ctlRxNext := k.psn + 1, ctlEceDue := k.ce, farPorts := k.ports,
            addrs := b.drop 16, planes := b.getD 2 0#8, remotes := BitVec.ofNat 8 (2 ^ fld b 1 1 - 1) }
        sendOpenAck (becomeOpen d 0) 0
      else nak d p k 3
    | none => d
  else if st ≠ .listen then d
  else if openRefused d p k then nak d p k 3
  else
    let same := d.flows.find? (fun e => decide (e.2.st = .opened) && decide (e.2.part = p) && decide (e.2.kind = kind) &&
      decide (e.2.peerFlow = k.srcFlow) && decide (e.2.incarn = k.incarn) && (decide (kind ≠ 2) || decide (e.2.peerDev.toNat = dev)))
    match same with
    | some e => answerOpen d e.1 k 5 []
    | none =>
      let old := if kind = 2 then d.peerFlow p dev else none
      if kind ≠ 2 && 256 ≤ d.hostFlows p then nak d p k 4
      else match old, d.freeCtx (if kind = 2 then dev % 2 else 0) with
        | some i, _ => if (d.part p).job.isNone then nak d p k 1 else acceptOpen d p i k
        | none, none => nak d p k 2
        | none, some i => if kind = 2 && (d.part p).job.isNone then nak d p k 1 else acceptOpen d p i k
/-- OPEN -/
def chindOpen (k : Packet) (d : Device) : Device := flowPacket 4 k openArrive d
/-- OPEN (R293) -/
def execChindOpen (k : Packet) (s : State) : Host.Outcome State Fault Refusal := onDev (chindOpen k) s

/-- OPEN_ACK: an OPENING flow is OPEN; SRC_FLOW names the far context, the OPEN is acknowledged, and control packets that came early have
their turn. -/
def openAck (k : Packet) (i : Nat) (d : Device) : Device :=
  let f := d.flow i
  let now := bit k.flags.toNat 3
  if f.st ≠ .opening then (if d.live i then oweAck d i true false now else d)
  else
    let d := becomeOpen (d.setFlow i { f with peerFlow := k.srcFlow, ctlRxNext := k.psn + 1 }) i
    let d := (takeHeader k i d).modFlow i (fun f => { f with unacked := f.unacked.filter (fun u => decide (u.typ ≠ 4)) })
    pump (oweAck (drainSpace d i true) i true k.ce now) i
/-- OPEN_ACK -/
def chindOpenAck (k : Packet) (d : Device) : Device := flowPacket 5 k openAck d
/-- OPEN_ACK (R296) -/
def execChindOpenAck (k : Packet) (s : State) : Host.Outcome State Fault Refusal := onDev (chindOpenAck k) s

/-- A peer is lost while a work item runs (R304): the fault, every part expected from it as VOID, its cables and fans over
with VOID, and the FATAL message that stands for its gauge message. -/
def losePeer (d : Device) (p dev : Nat) : Device :=
  if !(d.part p).isRunning then d
  else
    let d := voidFrom (peerLost d p dev) p dev
    tryDecide p ((d.part p).links.foldl (fun d k => loseLink p dev k d) d)

/-- Has the step an exchange with a device: a link or an exchange formed that it takes part in? -/
def Part.meets (P : Part) (dev : Nat) : Bool :=
  P.links.any (fun k => k.table.any (fun e => decide (e.1 = dev)) || (decide (k.mode = 1) && decide (k.destDev = dev))) ||
  P.exchs.any (fun x => x.srcs.any (fun s => decide (s.dev = dev)))
/-- OPEN_NAK: NOT_READY leaves the flow OPENING, and the OPEN is sent again at its RTO; another reason frees it, and the work item's first
exchange with the peer, made already if messages wait or a link or exchange of the step has formed, faults (R304). -/
def openNak (k : Packet) (i : Nat) (d : Device) : Device :=
  let f := d.flow i
  if f.st ≠ .opening then d
  else if fld k.payload 0 1 = 1 then d.modFlow i (fun f => { f with retries := 0 })
  else if f.waiting = [] && !(d.part f.part).meets f.peerDev.toNat then freeFlow d i
  else pumpPeers (losePeer (freeFlow d i) f.part f.peerDev.toNat) f.part
/-- OPEN_NAK -/
def chindOpenNak (k : Packet) (d : Device) : Device := flowPacket 6 k openNak d
/-- OPEN_NAK (R296) -/
def execChindOpenNak (k : Packet) (s : State) : Host.Outcome State Fault Refusal := onDev (chindOpenNak k) s

/-- A CLOSE that overtakes the OPEN_ACK of an OPENING flow waits like other control packets (R298). -/
def earlyClose (k : Packet) (i : Nat) (d : Device) : Device :=
  let f := d.flow i
  if f.st ≠ .opening || k.psn = f.ctlRxNext || 2 ^ 31 ≤ (k.psn - f.ctlRxNext).toNat || f.closeAt.isSome then d
  else d.setFlow i { f with closeAt := some k.psn, ctlAckDue := f.ctlAckDue + 1, ctlEceDue := f.ctlEceDue || k.ce }
/-- CLOSE: the flow is CLOSING, and the CLOSE is acknowledged at once; one that comes early is held until the gap below it fills (R298). -/
def closeArrive (k : Packet) (i : Nat) (d : Device) : Device :=
  if !d.live i then earlyClose k i d
  else
    let d := takeHeader k i d
    let f := d.flow i
    let gap := (k.psn - f.ctlRxNext).toNat
    if !d.live i then d
    else if 2 ^ 31 ≤ gap || f.held.any (fun h => h.1 && decide (h.2.1 = k.psn)) || f.closeAt = some k.psn then oweAck d i true false true
    else if f.st = .opened then oweAck (settleClose (d.setFlow i { f with closeAt := some k.psn }) i) i true k.ce true
    else if gap = 0 then oweAck (drainSpace (d.setFlow i (f.expectNext true)) i true) i true k.ce true
    else oweAck (d.setFlow i { f with held := f.held ++ [(true, k.psn, {})] }) i true k.ce true
/-- CLOSE -/
def chindClose (k : Packet) (d : Device) : Device := flowPacket 7 k closeArrive d
/-- CLOSE (R296) -/
def execChindClose (k : Packet) (s : State) : Host.Outcome State Fault Refusal := onDev (chindClose k) s

-- HELLO, WAKE, Neighbor Solicitation.

/-- HELLO on a direct port names the neighbour (R287). -/
def helloArrive (k : Packet) (d : Device) : Device :=
  frame k false (fun d =>
    let n := k.port.val
    if d.isDirect n then notePorts ((d.modPort n (fun x => { x with neighbour := some k.payload })).wr (fNeighbour n) 1) else d) d
/-- HELLO (R287) -/
def execChindHello (k : Packet) (s : State) : Host.Outcome State Fault Refusal := onDev (helloArrive k) s

/-- WAKE: it wakes a port in RET, as activity of its receive lanes; once the port is ON it is dropped (R305). -/
def wakeArrive (k : Packet) (d : Device) : Device := frame k true id d
/-- WAKE (R305) -/
def execChindWake (k : Packet) (s : State) : Host.Outcome State Fault Refusal := onDev (wakeArrive k) s

/-- A Neighbor Solicitation for the port's own address is answered; another is dropped (R284), and so is, in ADMITTED, one that MACsec
does not pass (R322). In a passage nothing is answered. -/
def solicit (n target : Nat) (x : FrameFind) (d : Device) : Device :=
  if !d.portHears n then unheard d n 8
  else
    let d := firstFrame d n false
    if !(x.fcsOk && secOk d n x.secTag x.pn.toNat) then dropFrame (icvCount d n x.secTag) n
    else
      let d := takePn d n x.pn.toNat
      if target ≠ d.rd (fPortIpHi n) * 2 ^ 64 + d.rd (fPortIpLo n) then dropFrame d n
      else if d.rd fMode = 1 then d
      else
        let mac := d.rd (fPortMac n)
        let s := d.takeSec n x.srcMac (BitVec.ofNat 48 mac) (Config.advertBytes mac (d.portIp n))
        s.2.emit (.advert n s.1)
/-- Does the management port answer on an address: its link-local one by the modified EUI-64 rule, or CFG_MGT_IP when that is not 0 (R393)? -/
def Device.mgtAddr (d : Device) (a : Nat) : Bool :=
  let m := Config.mgtMac.toNat
  let eui := (m / 2 ^ 24 ^^^ 0x20000) * 2 ^ 40 + 0xFFFE * 2 ^ 24 + m % 2 ^ 24
  let ip := (d.reg 0x10030).toNat * 2 ^ 64 + (d.reg 0x10038).toNat
  (decide (ip ≠ 0) && decide (a = ip)) || decide (a = 0xFE80 * 2 ^ 112 + eui)
/-- Is the management port up: from the end of step 6, or in the ROM's recovery service (Table 16-1, R384)? After a thermal trip nothing is
served. -/
def Device.mgtUp (d : Device) : Bool := d.domOn 72 && !d.thermTrip && (d.recovery || d.halted6 || decide (7 ≤ d.rd fPhase))
/-- A Neighbor Solicitation at the management port, once that is up, is answered for its own addresses (R384, R393). -/
def solicitMgt (target : Nat) (ok : Bool) (d : Device) : Device :=
  occurs (ok && d.mgtUp && d.mgtAddr target) (fun d => d.emit (.advert 8 none)) d
/-- NEIGHBOR_SOLICITATION: at port 8, the management port, or at one of P0 to P7. -/
def execNeighborSolicitation (n : Fin 9) (target : BitVec 128) (x : FrameFind) (s : State) : Host.Outcome State Fault Refusal :=
  onDev (if n.val = 8 then solicitMgt target.toNat x.fcsOk else solicit n target.toNat x) s

-- Timers of a flow.

/-- ACK_DELAY: what has waited 2 us is acknowledged (R299). -/
def ackDelay (i : Nat) (d : Device) : Device :=
  let f := d.flow i
  if !d.live i then d
  else
    let d := if 0 < f.ackDue then sendAck d i false else d
    if 0 < f.ctlAckDue then sendAck d i true else d
/-- ACK_DELAY -/
def execAckDelay (flow : BitVec 16) (s : State) : Host.Outcome State Fault Refusal := onDev (ackDelay flow.toNat) s

/-- Has the flow data waiting for credit? -/
def Flow.starved (f : Flow) : Bool := f.waiting.any (fun w => !w.1) && !below f.txNext f.txCredit

/-- A flow whose data waits without credit sends a PROBE, a CLOSING one too (R300). -/
def probeStarved (d : Device) (i : Nat) : Device :=
  if ((d.flow i).st = .opened || (d.flow i).st = .closing) && (d.flow i).starved then (sendBare d i 3 false).modFlow i (fun f => { f with probing := true }) else d

/-- RTO_EXPIRY: the oldest packet outstanding is sent again and RTO doubles (R301); an OPENING flow sends OPEN again; a
flow whose data waits without credit sends a PROBE beside that (R300). -/
def rtoExpiry (i : Nat) (d : Device) : Device :=
  let f := d.flow i
  let late (d : Device) : Device := d.modFlow i (fun f => { f with rto := min 2000000 (2 * f.rto), retries := f.retries + 1 })
  if f.st ≠ .opening && f.st ≠ .opened && f.st ≠ .closing then d
  else match f.unacked with
    | u :: _ => probeStarved (retransmit (late d) i u) i
    | [] =>
      if f.st = .opening then (if (d.part f.part).devId < f.peerDev.toNat then sendOpen (late d) i else d)
      else probeStarved d i
/-- RTO_EXPIRY -/
def execRtoExpiry (flow : BitVec 16) (s : State) : Host.Outcome State Fault Refusal := onDev (rtoExpiry flow.toNat) s

/-- FLOW_DEAD: DEAD_MS without progress (R302, R304). DESIGN CHOICE (log 109): a host flow that has been idle that long since its CLOSE of a
job is the one Table 11-7 closes. -/
def flowDead (i : Nat) (d : Device) : Device :=
  let f := d.flow i
  let due := f.st = .opening || (f.st = .opened && (f.unacked ≠ [] || f.waiting ≠ []))
  if f.st = .closing then freeFlow d i
  else if f.st = .opened && f.kind = 0 && f.idle && !due then startClose d i
  else if !due then d
  else
    let d := (leaveOpen d i .unreachable).modFlow i (fun f => { f with unacked := [], waiting := [], held := [], closeAt := none, probing := false })
    let d := d.inc fUnreach
    if f.kind = 2 then pumpPeers (losePeer d f.part f.peerDev.toNat) f.part
    else if f.kind = 1 then (if (d.part f.part).swatch.destFlow = i then failSwatch d f.part 6 else d)
    else freeFlow d i
/-- FLOW_DEAD -/
def execFlowDead (flow : BitVec 16) (s : State) : Host.Outcome State Fault Refusal := onDev (flowDead flow.toNat) s

-- Links.

/-- LINK_UP: training has ended (R281, R287), in a port that is not FAILED and under no check (R371, R373); plane and role follow Table 1-4. -/
def linkUp (n : Nat) (d : Device) : Device :=
  if d.rd (fLink n) = 2 || d.rd (fEnable n) = 0 || (d.port n).failed || d.outOfService [9] n || d.rd (fDom (64 + n)) = 2 then d
  else
    let d := (((d.wr (fLink n) 2).wr (fFecLock n) 1).wr (fRate n) (d.rd (fCfgRate n))).wr (fRole n) (if d.isDirect n then 2 else n / 4)
    let d := d.wr (fAdvertised n) (if d.domOn (64 + n) && !(d.port n).draining then 1 else 0)
    sendHello (if d.rd fMode = 0 then d.wr (fMacsec n) 1 else d) n
/-- LINK_UP -/
def execLinkUp (n : Fin 8) (s : State) : Host.Outcome State Fault Refusal := onDev (linkUp n) s

/-- A link leaves UP. -/
def dropLink (d : Device) (n : Nat) : Device :=
  let d := (((d.wr (fLink n) 0).wr (fFecLock n) 0).wr (fAdvertised n) 0).wr (fNeighbour n) 0
  let d := if d.rd (fMacsec n) = 2 then d.wr (fMacsec n) 1 else d
  notePorts (d.modPort n (fun x => { x with neighbour := none, sak := [] }))
/-- LINK_DOWN: packets in flight are lost; while ENABLE is 1 it is an error of the port (R306, R367). -/
def linkDown (n : Nat) (d : Device) : Device :=
  if d.rd (fLink n) ≠ 2 then d
  else
    let d := dropLink d n
    if d.rd (fEnable n) = 1 then errorCheck d { mkRec 0 9 2 (n + 0xFF * 256) with detail := d.rd (fFecUncorr n) } else d
/-- LINK_DOWN -/
def execLinkDown (n : Fin 8) (s : State) : Host.Outcome State Fault Refusal := onDev (linkDown n) s

/-- PORT_DRAIN_DONE: every packet of which a copy was sent through a draining port is acknowledged (R288). While a flow has only the path
through that port left, the drain waits, and the refusal is counted against NET (Table 11-9). -/
def drainDone (n : Nat) (d : Device) : Device :=
  let out := d.flows.any (fun e => e.2.unacked.any (fun u => u.tried.any (fun k => decide (pathPort k = n))))
  if !(d.port n).draining || out then d
  else if d.onlyPath n then countRefusal d (64 + n) .net
  else d.modPort n (fun x => { x with draining := false })
/-- PORT_DRAIN_DONE -/
def execPortDrainDone (n : Fin 8) (s : State) : Host.Outcome State Fault Refusal := onDev (drainDone n) s

/-- PORT_FEC_BURST: 16 or more uncorrectable codewords within 1 ms (R367); how many is open. -/
def fecBurst (n : Nat) (d : Device) : Device :=
  if !d.portHears n then d
  else
    let c := 16 + Config.freeNat d.free % 65520
    errorCheck (({ d with free := d.free + 1 } : Device).inc (fFecUncorr n) c) { mkRec 0 9 1 (n + 0xFF * 256) with detail := c }
/-- PORT_FEC_BURST -/
def execPortFecBurst (n : Fin 8) (s : State) : Host.Outcome State Fault Refusal := onDev (fecBurst n) s

/-- CAK and CKN sealed for MRAM, or sealed ones opened (R322). -/
def sealCak (cak : List Byte) : List Byte := Config.gcmCrypt (Config.cakKey Config.uds) Config.cakNonce cak
/-- CAK and CKN, opened. -/
def Device.cakPair (d : Device) : List Byte × List Byte :=
  let t := sealCak (d.cak ++ d.ckn)
  (t.take 32, t.drop 32)
/-- Is the port the key server of an agreement with a peer: of the two the lower priority number, and then the lower SCI (IEEE 802.1X; log
138)? -/
def Device.keyServer (d : Device) (n : Nat) (x : MkaPdu) : Bool :=
  decide (d.rd fKsPrio < x.prio.toNat) || (decide (d.rd fKsPrio = x.prio.toNat) && decide (d.sci n < x.sci.toNat))
/-- SAK of an agreement (R322): the key server draws it, another port takes the one that the frame carries wrapped under the CAK. -/
def Device.newSak (d : Device) (n : Nat) (x : MkaPdu) : List Byte × Device :=
  if d.keyServer n x then d.random else (Config.mkaUnwrap d.cakPair.1 d.cakPair.2 x.wrapped, d)
/-- MKA: in ADMITTED, or at step 6 of an outward passage, an agreement under the CAK installs a SAK and secures the port; a frame whose ICV
fails is dropped and counted (R322). A direct port that is secured sends the HELLO that its link's coming up asked for (R287). -/
def mkaFrame (n : Nat) (icvOk : Bool) (x : MkaPdu) (d : Device) : Device :=
  let on := d.rd fMode = 0 || (d.rd fMode = 1 && d.rd fInward = 0 && d.rd fPassStep = 6)
  if !on || d.rd (fLink n) ≠ 2 || d.rd (fMacsec n) = 0 then d
  else if !icvOk then d.inc (fIcvFail n)
  else if x.agreed && d.rd fCakSet = 1 then
    let k := d.newSak n x
    let e := (k.2.modPort n (fun x => { x with rxPn := 1, txPn := 1, sak := k.1 })).wr (fMacsec n) 2
    if d.rd (fMacsec n) = 2 then e else sendHello e n
  else d
/-- MKA -/
def execMka (n : Fin 8) (icvOk : Bool) (x : MkaPdu) (s : State) : Host.Outcome State Fault Refusal := onDev (mkaFrame n icvOk x) s

end Sys2Proof.Machine
end

