-- ==== Sys2Proof/Machine/Security.lean ====
section
/-! DEFINITION. Partitions (R313 to R319): their creation, cleansing, key installation and erase, and the device's key
epochs. -/
namespace Sys2Proof.Machine

/-- Number of a role's key: OPERATOR 0, METER-READ 2, TENANT of p 16 + p (R394). -/
def roleSlot (role part : Nat) : Nat := if role = 1 then 16 + part else role

/-- Columns that PART_ENT[p] gives, 0 for an entry that is not valid. -/
def Device.entCols (d : Device) (p : Nat) : Nat := if d.rd (fValid p) = 1 then d.rd (fColumns p) else 0
/-- Stacks of a mask that are not retired. -/
def Device.liveStacks (d : Device) (cols : Nat) : List Nat := (unitsOf cols).filter (fun x => decide (d.rd (fSRetired x) = 0))

/-- A scrub that the security rules ask for begins, the stack woken with source SECURITY (R312, R316). -/
def beginScrub (d : Device) (x : Nat) : Device :=
  if (d.stack x).scrubbing then d else runScrub (d.modStack x (fun s => { s with clean := false })) x 13
/-- Is nothing of a former partition left in a stack, and no scrub of it under way? -/
def Device.scrubbed (d : Device) (x : Nat) : Bool := (d.stack x).clean && !(d.stack x).scrubbing

/-- A partition is created (Table 12-4, ABSENT to CLEANSING): new keys, GEN + 1, its tiles and stacks assigned, every
stack scrubbed that has not been since it left its last partition. -/
def createPartition (d : Device) (p : Nat) : Device :=
  let cols := d.entCols p
  let b := d.random
  let k := b.2.random
  let kem := Config.mlkemKeys k.1
  let d := k.2.setPart p { Part.reset with cols := cols, ek := kem.1, dk := kem.2, bufKey := b.1 }
  let d := setSwatch (((d.inc (fGen p)).wr (fPartState p) 1).wr (fSwSent p) 0) p (fun _ => Swatch.reset)
  let d := initialPlace d p cols
  let d := (unitsOf cols).foldl (fun d x => ((d.wr (fSAssigned x) 1).wr (fSPart x) p).wr (fSDormant x) 0) d
  let d := (unitsOf cols).foldl (fun d x => changeDomain (changeDomain d x) (32 + x)) d
  let d := (d.liveStacks cols).foldl (fun d x => if (d.stack x).clean then d.modDom (32 + x) (fun y => { y with changing := false })
    else beginScrub d x) d
  refreshMem d p

/-- Every action of CLEANSING is done: tiles OFF, stacks scrubbed. -/
def Device.cleansed (d : Device) (p : Nat) : Bool :=
  let cols := (d.part p).cols
  decide (d.rd (fPartState p) = 1) && (unitsOf cols).all (fun t => decide (d.rd (fDom t) = 2)) &&
  (d.liveStacks cols).all (fun x => d.scrubbed x)
/-- PARTITION_CLEANSED: the listener listens, and keys are awaited. -/
def partitionCleansed (p : Nat) (d : Device) : Device := occurs (d.cleansed p) (fun d => listen (d.wr (fPartState p) 2) p) d
/-- PARTITION_CLEANSED -/
def execPartitionCleansed (p : Fin 8) (s : State) : Host.Outcome State Fault Refusal := onDev (partitionCleansed p) s

/-- A stack leaves its partition: what it holds is scrubbed, unless OFF has cleared it. -/
def leaveStack (d : Device) (x : Nat) : Device :=
  let off := decide (d.rd (fDom (32 + x)) = 2)
  let d := (((d.wr (fSAssigned x) 0).wr (fSPart x) 0).wr (fSDormant x) 0).modStack x (fun s => { s with clean := off })
  let d := changeDomain d (32 + x)
  if off || d.rd (fSRetired x) = 1 then d else beginScrub d x

/-- Registers of a partition that follow its tables go back to their reset values. -/
def clearPartRegs (d : Device) (p : Nat) : Device :=
  let d := [fKeyEpoch p, fSpreadN p, fListed p, fSpreadRows p, fFreeMib p, fLastCommit p, fPending p, fLeaseOpen p, fTierDormant p,
    fPool p, fLastSlot p, fOrder p].foldl (fun d f => d.wr f 0) d
  d.wr (fPartState p) 4

/-- A partition is erased (Table 12-4): keys, contexts and tables are gone, and its tiles and stacks go to OFF or a
scrub. -/
def erasePartition (d : Device) (p : Nat) : Device :=
  let cols := (d.part p).cols
  let d := if (d.part p).swatch.state = .pending then endSwatch d p .rejected 11 else failSwatch d p 11
  let d := freeFlows d p
  let d : Device :=
   { d with
    dies := d.dies.map (fun e => (e.1, { e.2 with keys := e.2.keys.filter (fun k => decide (k.part ≠ p)) })),
    leases := d.leases.filter (fun e => decide (e.part ≠ p)), mem := mclear d.mem (p * 2 ^ 70) (2 ^ 70),
    roleKeys := tdel (roleSlot 1 p) d.roleKeys, sess := d.sess.filter (fun s => !(decide (s.role = 1) && decide (s.part = p))) }
  let d := settleChans (d.modPart p (fun P => { P with handles := [], parked := [] })) p
  let d := dropPlace (clearLts (clearPartRegs d p) p) cols
  let d := (unitsOf cols).foldl changeDomain d
  let d := (unitsOf cols).foldl leaveStack d
  d.setPart p { Part.reset with dirty := d.liveStacks cols, swatch := (d.part p).swatch }

/-- The erase is over: every stack that was the partition's has been scrubbed. -/
def Device.erased (d : Device) (p : Nat) : Bool :=
  decide (d.rd (fPartState p) = 4) && (d.part p).dirty.all d.scrubbed
/-- PARTITION_ERASED: the partition is ABSENT; an entry that is valid makes it anew (R314, R316). -/
def partitionErased (p : Nat) (d : Device) : Device :=
  if !d.erased p then d
  else
    let d := (d.wr (fPartState p) 0).setPart p { Part.reset with swatch := (d.part p).swatch }
    if d.rd fMode = 2 && d.rd (fValid p) = 1 then createPartition d p else d
/-- PARTITION_ERASED -/
def execPartitionErased (p : Fin 8) (s : State) : Host.Outcome State Fault Refusal := onDev (partitionErased p) s

/-- A tenant secret is stored (R318, R319): epochs and COUNTERs start at 1; in KEYED every flow of the partition goes FREE
and the old keys with it, and the listener listens again. -/
def storeSecret (d : Device) (p : Nat) (ts : List Byte) : Device :=
  let keyed := decide (d.rd (fPartState p) = 3)
  let d := if keyed then listen (freeFlows d p) p else d
  let d : Device := { d with dies := d.dies.map (fun e => (e.1, { e.2 with keys := e.2.keys.filter (fun k => decide (k.part ≠ p)) })) }
  let d := d.modPart p (fun P => { P with ts := ts, count0 := 1, count1 := 1, silent := false })
  (d.wr (fPartState p) 3).wr (fKeyEpoch p) 1

/-- KEY_EPOCH_ROLLOVER: a COUNTER has reached 2^40; after epoch 0xFFFE the device sends nothing further for the partition
(R319). -/
def epochRollover (p : Nat) (d : Device) : Device :=
  let P := d.part p
  if d.rd (fPartState p) ≠ 3 || (P.count0 < 2 ^ 40 && P.count1 < 2 ^ 40) then d
  else if d.rd (fKeyEpoch p) < 0xFFFE then
    let d := (d.wr (fKeyEpoch p) (d.rd (fKeyEpoch p) + 1)).modPart p (fun P => { P with count0 := 1, count1 := 1 })
    (d.flows.filter (fun e => decide (e.2.part = p))).foldl (fun d e => pump d e.1) d
  else d.modPart p (fun P => { P with silent := true })
/-- KEY_EPOCH_ROLLOVER -/
def execKeyEpochRollover (p : Fin 8) (s : State) : Host.Outcome State Fault Refusal := onDev (epochRollover p) s

end Sys2Proof.Machine
end

