-- ==== Sys2Proof/Machine/Sets.lean ====
section
/-! DEFINITION. The configuration sets (R387 to R392): shadow and active values, the swap with its checks, its wait for the
seams of running partitions, and what it changes. -/
namespace Sys2Proof.Machine

/-- Value of a register's RWS fields in the active set. -/
def Device.active (d : Device) (a : Nat) : Word := d.reg a &&& BitVec.ofNat 64 (rwsMask a)
/-- Value of a register's RWS fields in the shadow set. -/
def Device.shadowOf (d : Device) (a : Nat) : Word := tget 0 d.shadow a
/-- A field of the shadow set. -/
def Device.srd (d : Device) (f : Fld) : Nat := bits (d.shadowOf f.addr).toNat f.hi f.lo

/-- Write RWS bits of the shadow set. -/
def putShadow (d : Device) (a : Nat) (w : Word) : Device := { d with shadow := tset 0 d.shadow a (w &&& BitVec.ofNat 64 (rwsMask a)) }
/-- Write RWS bits of the active set: the registers and the stored set follow. -/
def putActive (d : Device) (a : Nat) (w : Word) : Device :=
  let m := BitVec.ofNat 64 (rwsMask a)
  let d := d.setReg a ((d.reg a &&& ~~~m) ||| (w &&& m))
  { d with mramActive := tset 0 d.mramActive a (w &&& m) }

/-- Image of the active set (R392). -/
def Device.setImage (d : Device) : List Byte := rwsRegs.flatMap (fun a => toLe 8 (d.active a).toNat)
/-- CFG_DIGEST. -/
def Device.setDigest (d : Device) : List Byte := Config.shake256 d.setImage 512

-- The checks of a swap (R389, R314).

/-- Columns of entry p in a set, if the entry is valid. -/
def Device.shadowCols (d : Device) (p : Nat) : Option Nat := if d.srd (fValid p) = 1 then some (d.srd (fColumns p)) else none
/-- Is a partition table valid (R314)? -/
def tableValid (d : Device) (cols : List Nat) : Bool :=
  cols.all (fun c => decide (c ≠ 0) && (unitsOf c).any (fun x => decide (d.rd (fSRetired x) = 0))) &&
  (List.range 8).all (fun i => decide ((cols.filter (fun c => bit c i)).length ≤ 1))
/-- Is the active set's partition table valid? -/
def Device.activeTableValid (d : Device) : Bool :=
  tableValid d (((List.range 8).filter (fun p => decide (d.rd (fValid p) = 1))).map (fun p => d.rd (fColumns p)))
/-- Does the swap change entry p? -/
def Device.entryChanges (d : Device) (p : Nat) : Bool := decide (d.shadowOf (0x50000 + 16 * p) ≠ d.active (0x50000 + 16 * p))
/-- Is a value in a range? -/
def within (lo hi v : Nat) : Bool := decide (lo ≤ v) && decide (v ≤ hi)

/-- The first reason of Table 16-3 that the shadow set itself gives, 0 for none. -/
def Device.setReason (d : Device) : Nat :=
  if !tableValid d ((List.range 8).filterMap d.shadowCols) then 1
  else if (List.range 8).any (fun p => d.entryChanges p && (d.part p).job.isSome) then 2
  else if !within 1600 3400 (d.srd fCapW) then 3
  else if d.srd fTierThresh < 8 || !within 1 32 (d.srd fMinReady) then 4
  else if !within 80 100 (d.srd ⟨0x10028, 7, 0⟩) || !within 70 90 (d.srd ⟨0x10028, 15, 8⟩) || !within 80 100 (d.srd ⟨0x10028, 23, 16⟩) then 5
  else if d.rd fMode = 1 then 6
  else 0
/-- The first reason of Table 16-3 for a SWAP command; a reserved bit is never in the shadow set (R5). -/
def Device.swapReason (d : Device) : Nat := if d.setReason = 0 && d.rd fCfgState = 1 then 7 else d.setReason

/-- CFG_STAT records a command's result and reason. -/
def cfgResult (d : Device) (res reason : Nat) : Device := (d.wr fCfgResult res).wr fCfgReason reason

-- Applying a set (R390).

/-- Did the swap change a port's address or rate? -/
def portMoved (a b : Device) (n : Nat) : Bool :=
  [0x80100 + 8 * n, 0x80140 + 8 * n, 0x80200 + 16 * n, 0x80208 + 16 * n].any (fun r => decide (a.active r ≠ b.active r)) ||
  decide (a.rd (fCfgRate n) ≠ b.rd (fCfgRate n))
/-- Port changes (R281, R306): a changed port relinks, an enabled one is woken; on a FAILED port ENABLE has no effect (R373). -/
def portChange (old : Device) (n : Nat) (d : Device) : Device :=
  if (d.port n).failed then d
  else if old.rd (fEnable n) = 0 && d.rd (fEnable n) = 1 then wakeDom (if d.domOn (64 + n) && d.rd (fLink n) = 0 then d.wr (fLink n) 1 else d) (64 + n) 10
  else if portMoved old d n && decide (d.rd (fLink n) = 2) then (dropLink d n).wr (fLink n) 1
  else d

/-- Partition changes (R316): entries that change are erased, and the valid ones created; in ADMITTED nothing until the
next inward passage. -/
def partChanges (ps : List Nat) (d : Device) : Device :=
  if d.rd fMode ≠ 2 then d
  else
    let d := ps.foldl (fun d p => if within 1 3 (d.rd (fPartState p)) then erasePartition d p else d) d
    ps.foldl (fun d p => if d.rd (fPartState p) = 0 && d.rd (fValid p) = 1 then createPartition d p else d) d

/-- The set that has become active forbids the target of some entries under way (Table 13-3, MGT). -/
def refuseMgt (d : Device) : Device :=
  refuseDoms d ((List.range 64).filter (fun n => bit (d.reg (if d.rd (fTarget n) = 1 then 0x10018 else 0x10020)).toNat n &&
    !(d.rd (fTarget n) = 2 && (asks d n .placementOff || asks d n .security)))) Refuser.mgt.num
/-- The shadow set becomes active in one event. -/
def applySet (d : Device) : Device :=
  let ps := (List.range 8).filter d.entryChanges
  let n := rwsRegs.foldl (fun d a => putActive d a (d.shadowOf a)) d
  let n := partChanges ps ((List.range 8).foldl (fun e k => portChange d k e) n)
  (cfgResult (refuseMgt n) 1 0).inc fSwaps

/-- The seam's work begins (R22): tier moves, which keep the partition's stacks from RET and OFF (Table 13-3), then the swatch board is read.
The moves up are those that the seam has recorded, the moves down follow from the active set. -/
def seamWork (d : Device) (p : Nat) : Device :=
  let ms := d.dueMoves p ((d.part p).moving.map (·.1))
  let d := d.modPart p (fun P => { P with seam := .work, moving := ms, swDue := true })
  let d := if d.movesLeft p = [] then d else refuseDoms d ((unitsOf (d.part p).cols).map (32 + ·)) Refuser.place.num
  swatchTurn (tierMoves d p) p
/-- Partitions held before their seam's work go on (R390). -/
def releaseHeld (d : Device) : Device :=
  (List.range 8).foldl (fun d p => if (d.part p).seam = .held then seamWork d p else d) d
/-- The wait is over: the set is checked again, then applied or refused. -/
def endWait (d : Device) : Device :=
  let d := (d.wr fCfgState 0).wr fWaitMask 0
  releaseHeld (if d.setReason = 0 then applySet d else cfgResult d 2 d.setReason)
/-- A partition has reached its seam (R390). -/
def seamArrives (d : Device) (p : Nat) : Device :=
  if d.rd fCfgState = 0 then d
  else
    let m := ((List.range 8).map (fun q => if bit (d.rd fWaitMask) q && decide (q ≠ p) then 2 ^ q else 0)).sum
    let d := d.wr fWaitMask m
    if m = 0 then endWait d else d

/-- SWAP. -/
def swapCmd (d : Device) : Device :=
  let r := d.swapReason
  if r ≠ 0 then cfgResult d 2 r
  else
    let m := ((List.range 8).map (fun p => if (d.part p).isRunning then 2 ^ p else 0)).sum
    if m = 0 then applySet d else ((cfgResult d 0 0).wr fCfgState 1).wr fWaitMask m
/-- CANCEL: held partitions go on, and nothing changes; with no swap pending it has no effect (R391). -/
def cancelCmd (d : Device) : Device :=
  if d.rd fCfgState = 0 then d else releaseHeld (cfgResult ((d.wr fCfgState 0).wr fWaitMask 0) 3 0)
/-- REVERT: the active set is copied into the shadow set; refused while a swap is pending. -/
def revertCmd (d : Device) : Device :=
  if d.rd fCfgState = 1 then cfgResult d 2 7 else cfgResult (rwsRegs.foldl (fun d a => putShadow d a (d.active a)) d) 4 0
/-- A pending swap is dropped; the shadow set keeps its contents (R385). -/
def dropSwap (d : Device) : Device := releaseHeld ((d.wr fCfgState 0).wr fWaitMask 0)

/-- Does a pending swap change the entry of the partition (R390)? -/
def Device.swapHolds (d : Device) (p : Nat) : Bool := decide (d.rd fCfgState = 1) && d.entryChanges p

/-- SHADOW_WRITE: a write to RWS fields; refused while a swap is pending (R388). -/
def shadowWrite (a : Nat) (w : Word) (d : Device) : Device :=
  if rwsMask a = 0 || d.rd fCfgState = 1 || !d.domOn 72 then d else putShadow d a w
/-- SHADOW_WRITE -/
def execShadowWrite (a : BitVec 32) (w : Word) (s : State) : Host.Outcome State Fault Refusal := onDev (shadowWrite a.toNat w) s

end Sys2Proof.Machine
end

