-- ==== Sys2Proof/Machine/Jobs.lean ====
section
/-! DEFINITION. The launch endpoint (R23 to R60): the checks of a request in their order, what an accepted request does, the
requests that wait, PUT posts and NOTICEs. -/
namespace Sys2Proof.Machine

-- Replies (R25, R27).

/-- STATUS OK about a work item. -/
def itemReply (d : Device) (r : Req) (echo : Nat) (w : WorkItem) : Device :=
  sendHost d r.part.val r.flow (hostMsg 0x81 r.jobId r.reqSeq
    (statusBody 0 w.state.code w.cause.code w.id w.lastStep (d.part r.part.val).nextStep w.poisoned echo))
/-- STATUS with a code, about no work item. -/
def codeReply (d : Device) (r : Req) (code echo : Nat) : Device :=
  sendHost d r.part.val r.flow (hostMsg 0x81 r.jobId r.reqSeq (statusBody code 0xFF 0 0 0 (d.part r.part.val).nextStep 0 echo))
/-- A work item of the partition, queued, running or ended. -/
def Part.findWi (P : Part) (id : Nat) : Option WorkItem := (P.wis ++ P.finalWait ++ P.ended).find? (fun w => decide (w.id = id))

/-- Code of the first check that fails, 0 when none does (R26). -/
def firstFail : List (Bool × Nat) → Nat
  | [] => 0
  | (b, c) :: t => if b then c else firstFail t

-- Checks of the request alone (R26, steps 1 to 4).

/-- BODY_LEN suits the type (Table 2-3). -/
def lenOk (typ n : Nat) : Bool :=
  match typ with
  | 1 => decide (n = 128)
  | 2 => decide (n = 8)
  | 3 => decide (n = 32)
  | 4 => decide (n = 8)
  | 5 => decide (80 ≤ n) && decide (n ≤ 8176) && decide (n % 64 = 16)
  | 6 => decide (n = 16)
  | 7 => decide (n = 4)
  | _ => decide (n = 0)
/-- The reserved bytes of a body are 0. -/
def bodyRsvd (typ : Nat) (b : List Byte) : Bool :=
  match typ with
  | 1 => zeros b 2 2 && zeros b 0x28 24 && zeros b 0x60 32
  | 2 => zeros b 6 2
  | 3 => zeros b 7 1 && zeros b 0x10 16
  | 4 => zeros b 4 4
  | 5 => zeros b 6 2
  | _ => true

/-- Field checks of a LAUNCH (Tables 2-5, R426). -/
def launchFields (r : Req) : List (Bool × Nat) :=
  let f (o n : Nat) := fld r.body o n
  [(f 0 2 ≠ 1, 2), (f 4 4 = 0 || f 4 4 ≠ r.jobId.toNat, 4), (f 0x10 4 = 0, 4), (f 0x14 2 = 0 || 0xFFFFFFFF < f 0x10 4 + f 0x14 2 - 1, 4),
   (8 ≤ f 0x16 2, 4), (4096 ≤ f 0x18 2, 4), (f 0x1A 2 = 0 || 4096 < f 0x1A 2 || f 0x1A 2 ≤ f 0x18 2, 4),
   (f 0x1C 1 % 4 ≠ 0 || f 0x1C 1 = 0 || 32 < f 0x1C 1, 4), (f 0x1D 1 = 0 || 16 < f 0x1D 1, 4),
   (f 0x1E 2 = 0 || 4096 < f 0x1E 2, 4), (f 0x20 4 = 0, 4)]
/-- Field checks of an ALLOC (Table 2-6, R35, R36). -/
def allocFields (b : List Byte) : List (Bool × Nat) :=
  let f (o n : Nat) := fld b o n
  [(f 0 4 = 0 || f 0 4 = 0xFFFFFFFF, 4), (3 ≤ f 4 1, 4),
   (16 ≤ f 5 1 || (bit (f 5 1) 1 && (bit (f 5 1) 0 || bit (f 5 1) 2)) || (bit (f 5 1) 3 && bit (f 5 1) 2), 4),
   ((if f 4 1 = 1 then 32 ≤ f 6 1 else f 6 1 ≠ 0), 4), (f 8 8 % 64 ≠ 0 || f 8 8 < 64 || 2 ^ 38 < f 8 8, 4)]
/-- Field checks of a request. -/
def fieldChecks (typ : Nat) (r : Req) : List (Bool × Nat) :=
  match typ with
  | 1 => launchFields r
  | 3 => allocFields r.body
  | 5 => [(64 ≤ fld r.body 5 1, 4), (fld r.body 8 8 % 64 ≠ 0, 4)]
  | 6 => [(fld r.body 4 4 % 64 ≠ 0 || fld r.body 4 4 < 64 || 8160 < fld r.body 4 4, 4), (fld r.body 8 8 % 64 ≠ 0, 4)]
  | _ => []
/-- Checks 1 to 4. The row fixes the type; a TYPE byte that no request has is unknown. -/
def headChecks (typ : Nat) (r : Req) : List (Bool × Nat) :=
  [(!within 1 8 r.typ.toNat, 1), (r.version ≠ 1, 2), (r.bodyLen.toNat ≠ r.body.length || !lenOk typ r.body.length, 3),
   (r.rsvd ≠ 0 || !bodyRsvd typ r.body, 4)] ++ fieldChecks typ r

-- State checks (R26, step 5, R29 to R43).

/-- The JOB_ID of ALLOC, FREE, PUT and GET is 0 or the open job's (Table 2-1). -/
def jobBad (P : Part) (r : Req) : Bool := decide (r.jobId ≠ 0) && decide (r.jobId ≠ P.jobId)
/-- Access flags of a handle. -/
def Part.accessOf (P : Part) (h : Nat) : Nat := ((P.entry h).map (·.access)).getD 0
/-- BUSY of R39 and R294 for a PUT or FREE. -/
def handleBusy (P : Part) (h : Nat) : Bool :=
  (P.job.isSome && (decide (h = P.prog) || decide (h = P.mapH) || decide (h = peerTable))) || (P.wis ≠ [] && !bit (P.accessOf h) 2)
/-- EVT_LT refusals (R39). -/
def evtBad (P : Part) (lt : Nat) : Bool := decide (lt ≠ 0xFF) && (!P.isRunning || decide (P.ltCount ≤ lt))
/-- Handle table entries in use on the device (Table 2-7). -/
def Device.handleCount (d : Device) : Nat := (d.parts.map (fun e => e.2.entries.length)).sum

/-- NEXT_STEP projected past every work item accepted (R32). -/
def Part.projected (P : Part) : Nat :=
  match P.wis.getLast? with
  | some w => (w.finalStep + 1) % 2 ^ 32
  | none => match (P.uncommitted.filter (fun u => decide (u.2 = P.jobId))).getLast? with
    | some u => (u.1 + 1) % 2 ^ 32
    | none => P.nextStep

-- Table content checks of a LAUNCH (R26, step 6).

/-- The entry table of the program image (R34). -/
def progOk (d : Device) (p h lts : Nat) : Bool :=
  let size := (d.part p).sizeOf h
  decide (8 * lts ≤ size) &&
  (List.range lts).all (fun l => let o := fld (d.hRead p h (8 * l) 8) 0 8
                                 decide (o % 16 = 0) && decide (o < size))

/-- The slot table (R232). -/
def slotTableOk (d : Device) (p h off slots : Nat) : Bool :=
  let size := (d.part p).sizeOf h
  let b := d.hRead p h off (64 + 8 * slots)
  let ent (j : Nat) : Nat := 0x40 + 8 * j
  decide (off + 64 + 8 * slots ≤ size) && decide (fld b 0 1 = slots) && decide (fld b 1 1 ≤ 2) && (fld b 1 1 ≠ 0 || fld b 2 1 = 0) &&
  zeros b 3 1 && zeros b 8 56 && decide (fld b 2 1 + 3 + 2 * slots ≤ 64) &&
  (List.range slots).all (fun j => within 1 131072 (fld b (ent j) 4) && within 1 64 (fld b (ent j + 4) 1) && zeros b (ent j + 5) 3) &&
  decide (((List.range slots).map (fun j => fld b (ent j + 4) 1)).sum ≤ 64)

/-- Entries of a stage table follow one another (R240). -/
def stagesFollow : Nat → List Nat → Bool
  | _, [] => true
  | at_, e :: t => decide (e < 2 ^ 32) && decide (bits e 15 0 = at_) && decide (1 ≤ bits e 31 16) && stagesFollow (at_ + bits e 31 16) t
/-- The stage table: LAYERS of this device's stage, if the table is good (R240). -/
def stageLayers (d : Device) (p h off : Nat) : Option Nat :=
  let size := (d.part p).sizeOf h
  let b := d.hRead p h off 64
  let n := fld b 0 2
  if decide (off + 64 ≤ size) && within 1 1024 n && decide (fld b 2 2 < n) && zeros b 4 60 && decide (off + 64 + 8 * n ≤ size) then
    let es := wordsOf 8 n (d.hRead p h (off + 64) (8 * n))
    if stagesFollow 0 es then some (bits (es.getD (fld b 2 2) 0) 31 16) else none
  else none

/-- The expert table, every layer (R172, R173). -/
def expertTableOk (d : Device) (p h off devs : Nat) : Bool :=
  let size := (d.part p).sizeOf h
  let b := d.hRead p h off 64
  decide (off + 64 ≤ size) && tableHeader b devs && decide (off + 64 + 8 * fld b 2 2 ≤ size) &&
  (wordsOf 8 (fld b 2 2) (d.hRead p h (off + 64) (8 * fld b 2 2))).all (fun e =>
    layerEntry e (size - off) &&
    (wordsOf 8 (bits e 44 32) (d.hRead p h (off + bits e 31 0 * 64) (8 * bits e 44 32))).all (fun x => expertEntry x devs))

/-- The map header and every table it names (R230, R231). -/
def mapOk (d : Device) (p h slots devs : Nat) : Bool :=
  let b := d.hRead p h 0 64
  let off (o : Nat) : Nat := fld b o 4 * 64
  let st := if off 8 = 0 then none else stageLayers d p h (off 8)
  decide (fld b 0 2 = 1) && zeros b 2 2 && zeros b 0x18 40 && (off 4 = 0 || slotTableOk d p h (off 4) slots) && (off 8 = 0 || st.isSome) &&
  (off 0xC = 0 || (match st with
    | none => false
    | some n => decide (off 0xC + 8 * n ≤ (d.part p).sizeOf h))) &&
  (off 0x10 = 0 || expertTableOk d p h (off 0x10) devs)

/-- The peer table (R294). -/
def peersOk (d : Device) (p me devs : Nat) : Bool :=
  let b := d.hRead p peerTable 0 4
  decide (64 + 144 * devs ≤ (d.part p).sizeOf peerTable) && decide (fld b 0 2 = 1) && decide (fld b 2 2 = devs) &&
  (List.range devs).all (fun v => decide (v = me) || decide (fld (d.hRead p peerTable (64 + 144 * v + 1) 1) 0 1 ≠ 0))

/-- Handles whose tables the checks of a LAUNCH read. -/
def launchReads (r : Req) : List Nat := [fld r.body 0x20 4, fld r.body 0x24 4, peerTable]
/-- Checks 5 and 6 of a LAUNCH. -/
def launchChecks (d : Device) (r : Req) : List (Bool × Nat) :=
  let p := r.part.val
  let P := d.part p
  let f (o n : Nat) := fld r.body o n
  let first := P.job.isNone
  let hs := (f 0x20 4 :: f 0x24 4 :: (List.range 8).map (fun i => f (0x40 + 4 * i) 4)).filter (· ≠ 0)
  [(hs.any (fun h => (P.entry h).isNone), 5), ((d.liveStacks P.cols) = [], 7), (f 0x1C 1 ≠ P.lts.length, 4),
   ((!first && r.jobId ≠ P.jobId) || d.rd fHold = 1 || (first && d.swapHolds p), 9), (!first && f 0x10 4 ≠ P.projected, 0xB),
   (!first && (r.body.take 0x10 ≠ P.desc.take 0x10 || r.body.drop 0x16 ≠ P.desc.drop 0x16), 0xC), (4 ≤ P.wis.length, 0xD),
   (!bit (P.accessOf (f 0x20 4)) 1 || (f 0x24 4 ≠ 0 && bit (P.accessOf (f 0x24 4)) 0), 0xF), (!d.canHost p, 0x10),
   (!progOk d p (f 0x20 4) (f 0x1C 1), 4), (first && f 0x24 4 ≠ 0 && !mapOk d p (f 0x24 4) (f 0x1D 1) (f 0x1A 2), 4),
   (first && !peersOk d p (f 0x18 2) (f 0x1A 2), 4)]

/-- State checks of a request. -/
def stateChecks (typ : Nat) (r : Req) (d : Device) : List (Bool × Nat) :=
  let p := r.part.val
  let P := d.part p
  let h := fld r.body 0 4
  let off := fld r.body 8 8
  match typ with
  | 1 => launchChecks d r
  | 2 => [(h ≠ 0xFFFFFFFF && (P.findWi h).isNone, 0xE), (h = 0xFFFFFFFF && (P.job.isNone || r.jobId ≠ P.jobId), 0x11)]
  | 3 => [((P.entry h).isSome, 6), (65536 ≤ d.handleCount || (d.placeHandle p (fld r.body 4 1) (fld r.body 6 1) off).isNone, 7), (jobBad P r, 4)]
  | 4 => [((P.entry h).isNone, 5), (jobBad P r, 4), (handleBusy P h, 9)]
  | 5 => [((P.entry h).isNone, 5), (P.sizeOf h < off + (r.body.length - 16), 8), (evtBad P (fld r.body 4 1) || jobBad P r, 4), (handleBusy P h, 9)]
  | 6 => [((P.entry h).isNone, 5), (P.sizeOf h < off + fld r.body 4 4, 8), (jobBad P r, 4),
          (P.wis ≠ [] && !bit (P.accessOf h) 2 && bit (P.accessOf h) 0, 9)]
  | 7 => [((P.findWi h).isNone, 0xE)]
  | _ => [(P.wis ≠ [], 9), (P.job.isNone || r.jobId ≠ P.jobId, 0x11)]

-- What accepted requests do.

/-- A range behind a handle becomes +0, its whole granules lose their poison. -/
def hZero (d : Device) (p h off n : Nat) : Device :=
  let whole (k : Nat) : Bool := let b := (k - h * 2 ^ 27) * 2048
                                decide (k / 2 ^ 27 = h) && decide (off ≤ b) && decide (b + 2048 ≤ off + n)
  ({ d with mem := mclear d.mem (hKey p h off) n } : Device).modPart p (fun P =>
    { P with poison := P.poison.filter (fun e => !whole e.1 || tget false P.dead e.1) })

/-- Are the residual regions of a shard to be zeroed: a RESIDUAL one not updated yet, whose regions lie as R200 asks (R199)? -/
def Device.residualsDue (d : Device) (p h : Nat) : Bool :=
  let b := d.shardHdr p h
  let n := 4 * hdrElems b
  let a := (fld b 0x30 4 * 64, n)
  let c := (fld b 0x34 4 * 64, n)
  let size := (d.part p).sizeOf h
  fld b 0 1 = 2 && fld b 0x44 4 = 0 && a.1 ≠ 0 && c.1 ≠ 0 && a.1 + n ≤ size && c.1 + n ≤ size && rangesClear [(0, 128), a, c]
/-- A PUT into the header of a RESIDUAL shard not updated yet zeroes its residual regions, if they lie as R200 asks
(R199). -/
def zeroResiduals (d : Device) (p h : Nat) : Device :=
  let b := d.shardHdr p h
  let n := 4 * hdrElems b
  if d.residualsDue p h then hZero (hZero d p h (fld b 0x30 4 * 64) n) p h (fld b 0x34 4 * 64) n else d
/-- The data of a PUT is stored; a shard's GEN counts on from the one it held (R199). -/
def putStore (d : Device) (p h off : Nat) (bs : List Byte) : Device :=
  let g := d.shardGen p h
  let d := d.hStore p h off bs
  if bit ((d.part p).accessOf h) 3 && 128 ≤ (d.part p).sizeOf h then
    let d := hdrWrite d p h 0x40 4 (g + 1)
    if off < 128 then zeroResiduals d p h else d
  else d

/-- Does a request for a handle wait: for an update of the shard or a flip of its RES_SEL (R199, R208), or for a stack or channel that
does not serve (R346)? -/
def Device.mustWait (d : Device) (typ p h : Nat) : Bool :=
  (d.part p).updates.any (fun u => decide (u.desc.shard = h)) || (d.part p).resFlips.any (fun x => decide (x.2 = h)) ||
  (typ ≠ 4 && !d.reach p h)

/-- PUT: stored; with EVT_LT the reply follows the post, else it leaves now. `wi`: the work item that ran when it was
accepted. DESIGN CHOICE (log 130): one into a granule of a FAILED channel is stored and answered OK, for Table 2-4 has no code UE; the
granule stays poisoned (R267). -/
def putAct (r : Req) (wi : Nat) (d : Device) : Device :=
  let p := r.part.val
  let d := putStore d p (fld r.body 0 4) (fld r.body 8 8) (r.body.drop 16)
  let lt := fld r.body 4 1
  if lt ≠ 0xFF && (((d.part p).running.map (·.id)).getD 0 = wi) then
    let q : PutPost := { flow := r.flow, reqSeq := r.reqSeq, jobId := r.jobId, wi := wi, lt := lt, ctr := fld r.body 5 1 }
    d.modPart p (fun P => { P with putPosts := P.putPosts ++ [q] })
  else codeReply d r 0 0

/-- Does a PUT wait for the Purl engines, which are to zero the residual regions that its header names and have other work to do first (R199,
R271)? -/
def Device.zeroWaits (d : Device) (r : Req) : Bool :=
  let p := r.part.val
  let h := fld r.body 0 4
  bit ((d.part p).accessOf h) 3 && decide (128 ≤ (d.part p).sizeOf h) && decide (fld r.body 8 8 < 128) &&
  (d.hStore p h (fld r.body 8 8) (r.body.drop 16)).residualsDue p h && !d.enginesFree p ((d.part p).stacksOf h)
/-- GET: DATA, unless a granule is poisoned (R60), be it by a word at offset `bad` that this read finds uncorrectable (R267). -/
def getAct (r : Req) (bad : Option OffFind) (d : Device) : Device :=
  let p := r.part.val
  let h := fld r.body 0 4
  let n := fld r.body 4 4
  let off := fld r.body 8 8
  let d := match bad with
    | none => d
    | some b => occurs (decide (off ≤ b.off.toNat) && decide (b.off.toNat < off + n)) (metOff p h b none) d
  if (d.part p).poisoned h off n then codeReply d r 0xA 0
  else sendHost d p r.flow (hostMsg 0x82 r.jobId r.reqSeq (r.body.take 16 ++ d.hRead p h off n))

/-- FREE: entry, bytes and poison are gone; a swatch that uses it as its buffer fails (R250), and emptied RETIRING channels
become FAILED. -/
def freeAct (r : Req) (d : Device) : Device :=
  let p := r.part.val
  let h := fld r.body 0 4
  let w := (d.part p).swatch
  let d := if w.underWay && w.bufH = h then endSwatch d p .failed 9 else d
  let keep (k : Nat) : Bool := decide (k / 2 ^ 27 ≠ h)
  let d := { d with mem := mclear d.mem (hKey p h 0) (2 ^ 38) }
  let d := d.modPart p (fun P =>
   { P with
    handles := tdel h P.handles, poison := P.poison.filter (fun e => keep e.1), dead := P.dead.filter (fun e => keep e.1),
    written := P.written.filter (fun e => keep e.1) })
  codeReply (refreshMem (settleChans d p) p) r 0 0

/-- A request for a handle that has passed its checks: done, or still waiting with its stacks being woken. -/
def accessAct (typ : Nat) (r : Req) (wi : Nat) (bad : Option OffFind) (d : Device) : Bool × Device :=
  let p := r.part.val
  let P := d.part p
  let h := fld r.body 0 4
  let n := if typ = 4 then 0 else if typ = 5 then fld r.body 8 8 + (r.body.length - 16) else fld r.body 8 8 + fld r.body 4 4
  if (P.entry h).isNone then (true, codeReply d r 5 0)
  else if P.sizeOf h < n then (true, codeReply d r 8 0)
  else if d.mustWait typ p h || (typ = 5 && d.zeroWaits r) then (false, if typ = 4 then d else d.wakeFor p h 7)
  else (true, if typ = 4 then freeAct r d else if typ = 5 then putAct r wi d else getAct r bad d)

/-- ALLOC: the entry, its granules fresh and placed (R36, R37). -/
def allocAct (r : Req) (d : Device) : Device :=
  let p := r.part.val
  let f (o n : Nat) := fld r.body o n
  match d.placeHandle p (f 4 1) (f 6 1) (f 8 8) with
  | none => d
  | some q =>
    let e : HEntry := { cls := f 4 1, access := f 5 1, localLt := f 6 1, size := f 8 8, place := q }
    codeReply (refreshMem (d.modPart p (fun P => { P with handles := tput (f 0 4) (some e) P.handles })) p) r 0 0

/-- A work item is queued (R51). -/
def newItem (P : Part) (r : Req) : WorkItem :=
  { id := P.nextWi, flow := r.flow, reqSeq := r.reqSeq, jobId := r.jobId, startStep := fld r.body 0x10 4, stepCount := fld r.body 0x14 2,
    state := .queued, cause := .none, lastStep := 0, poisoned := 0, later := 0, mute := false }
/-- The first LAUNCH opens the job (R29, R31, R32), its slot order (R232) and its PEER flows (R295). DEDUCED (log 118): one that starts at a later
step than 1 restores a job, and placement history starts afresh (R251). -/
def openJob (r : Req) (d : Device) : Device :=
  let p := r.part.val
  let f (o n : Nat) := fld r.body o n
  let j : Job := { jobId := r.jobId, desc := r.body, nextStep := f 0x10 4, lastStep := 0 }
  let h := f 0x24 4
  let so := if h = 0 then 0 else fld (d.hRead p h 4 4) 0 4 * 64
  let b := if so = 0 then [] else d.hRead p h so 3
  let d := d.modPart p (fun P =>
   { P with
    job := some j, step := f 0x10 4, gone := [], result := none, contrib := false, gauges := [], early := [], voids := [], fataled := [], carry := false, carried := false, flag := false,
    tornStep := none, order := fld b 1 1, cbase := fld b 2 1, steps := if 1 < f 0x10 4 then 0 else P.steps })
  let d := notePorts d
  sendHellos (openPeers ((d.wr (fLastCommit p) 0).wr (fOrder p) (fld b 1 1)) p)
/-- LAUNCH -/
def launchAct (r : Req) (d : Device) : Device :=
  let p := r.part.val
  let d := if (d.part p).job.isNone then openJob r d else reopenPeers d p
  let w := newItem (d.part p) r
  let d := d.modPart p (fun P => { P with wis := P.wis ++ [w], nextWi := P.nextWi + 1, replay := false })
  itemReply (if (d.part p).starting then refuseDoms d (columnDoms (d.part p).cols) Refuser.place.num else d) r 0 w

/-- ABORT of one work item (R57): a queued one goes at once, and the ones behind it are flushed. -/
def abortOne (r : Req) (d : Device) : Device :=
  let p := r.part.val
  let id := fld r.body 0 4
  let echo := fld r.body 4 2
  match (d.part p).findWi id with
  | none => d
  | some w =>
    if w.state = .queued then
      let w := { w with state := .aborted, cause := .hostAbort }
      let gone := (d.part p).wis.filter (fun v => decide (id < v.id))
      let d := d.modPart p (fun P => { P with wis := P.wis.filter (fun v => decide (v.id < id)), ended := P.ended ++ [w] })
      gone.foldl (fun d v => endItem d p { v with state := .aborted, cause := .queueFlush }) (itemReply d r echo w)
    else if w.state = .running then
      let d := recordFault d p .hostAbort
      itemReply d r echo (((d.part p).findWi id).getD w)
    else itemReply d r echo w
/-- ABORT of every work item of the job (R57). -/
def abortAll (r : Req) (d : Device) : Device :=
  let p := r.part.val
  let echo := fld r.body 4 2
  let qs := (d.part p).wis.filter (fun w => decide (w.state = .queued))
  let d := d.modPart p (fun P => { P with wis := P.wis.filter (fun w => decide (w.state ≠ .queued)) })
  let d := qs.foldl (fun d w => endItem d p { w with state := .aborted, cause := .hostAbort }) d
  let d := recordFault d p .hostAbort
  match (d.part p).running with
  | some w => itemReply d r echo w
  | none => codeReply d r 0 echo

/-- A LAUNCH flow has carried a CLOSE; it goes CLOSING if it stays idle (Table 11-7). -/
def idleFlow (d : Device) (p i : Nat) : Device :=
  let f := d.flow i
  if f.st = .opened && f.kind = 0 && f.part = p then d.setFlow i { f with idle := true } else d
/-- CLOSE: the job is closed, its PEER flows close, a pending swatch is rejected (R29, R245, R295); updates and flips of its steps go
on. -/
def closeAct (r : Req) (d : Device) : Device :=
  let p := r.part.val
  let d := closePeers d p
  let d := if (d.part p).swatch.state = .pending then endSwatch d p .rejected 11 else d
  let d := d.modPart p (fun P =>
   { P with
    job := none, order := 0, cbase := 0, carry := false, carried := false, flag := false, tornStep := none, early := [], gauges := [], voids := [], fataled := [], result := none,
    contrib := false })
  idleFlow (codeReply (sendHellos ((d.wr (fLastCommit p) 0).wr (fOrder p) 0)) r 0 0) p r.flow.toNat

-- Handling (R26).

/-- ECHO of a reply: REASON of the ABORT being answered. -/
def echoOf (typ : Nat) (r : Req) : Nat := if typ = 2 && r.body.length = 8 then fld r.body 4 2 else 0
/-- Work item running now, 0 for none. -/
def Part.runId (P : Part) : Nat := (P.running.map (·.id)).getD 0
/-- Does a LAUNCH wait before its state checks, for the stacks of the tables they read (R346)? -/
def Device.launchWaits (d : Device) (typ : Nat) (r : Req) : Bool :=
  decide (typ = 1) && decide (firstFail (headChecks typ r) = 0) && !d.reachAll r.part.val (launchReads r)
/-- Is an update of before a warm reset still to be finished, or its commit to be recorded? No LAUNCH is accepted before that (R220). -/
def Part.replays (P : Part) : Bool := P.replay && (decide (P.uncommitted ≠ []) || decide (P.updates ≠ []))
/-- A request is handled: refused with the code of its first failing check, carried out, or left waiting. -/
def serve (typ : Nat) (r : Req) (bad : Option OffFind) (d : Device) : Bool × Device :=
  if d.launchWaits typ r then (false, wakeAll d r.part.val (launchReads r) 7)
  else match firstFail (headChecks typ r ++ stateChecks typ r d) with
  | 0 =>
    match typ with
    | 1 => if (d.part r.part.val).replays then (false, d) else (true, launchAct r d)
    | 2 => (true, if fld r.body 0 4 = 0xFFFFFFFF then abortAll r d else abortOne r d)
    | 3 => (true, allocAct r d)
    | 4 => accessAct typ r (d.part r.part.val).runId bad d
    | 5 => accessAct typ r (d.part r.part.val).runId bad d
    | 6 => accessAct typ r (d.part r.part.val).runId bad d
    | 7 => (true, match (d.part r.part.val).findWi (fld r.body 0 4) with
        | none => d
        | some w => itemReply d r 0 w)
    | _ => (true, closeAct r d)
  | c => (true, codeReply d r c (echoOf typ r))

/-- A request waits, its body as the die stores it (R317). -/
def holdReq (typ : Nat) (r : Req) (taken : Option Nat) (bad : Option OffFind) (d : Device) : Device :=
  let x := d.store r.part r.body
  x.2.modPart r.part.val (fun P =>
    { P with waitReqs := P.waitReqs ++ [{ typ := typ, req := { r with body := [] }, body := x.1, taken := taken, bad := bad }] })
/-- Does a request of the same flow wait? -/
def Device.flowWaits (d : Device) (r : Req) : Bool := (d.part r.part.val).waitReqs.any (fun q => decide (q.req.flow = r.flow))
/-- A request's turn has come. -/
def takeReq (typ : Nat) (r : Req) (taken : Option Nat) (bad : Option OffFind) (d : Device) : Device :=
  let wi := taken.getD (d.part r.part.val).runId
  if d.flowWaits r then holdReq typ r taken bad d
  else
    let x := match taken with
      | some wi => accessAct typ r wi bad d
      | none => serve typ r bad d
    if x.1 then x.2 else holdReq typ r (if typ = 1 then none else some wi) bad x.2
/-- Requests that wait are tried again, in order. -/
def retry (d : Device) (p : Nat) : Device :=
  let qs := (d.part p).waitReqs
  if qs = [] then d else qs.foldl (fun d q => takeReq q.typ (d.openReq q) q.taken q.bad d) (d.modPart p (fun P => { P with waitReqs := [] }))
/-- What waits for a stack, a channel or an engine goes on once it serves: requests, segments of cables, skeins to land, parked sums that are
due, commits, sums to take (R264, R271, R346). -/
def retryAll (d : Device) : Device :=
  (List.range 8).foldl (fun d p =>
    let d := takeSums p (commitReady p 4 (landParked p d))
    retry ((d.part p).exchs.foldl (fun d x => landAll p x.lt x.op d) d) p) (resumeLinks d)

/-- A request reaches the launch endpoint, which answers in SERVICE for a partition that has its keys (R23). -/
def request (typ : Nat) (r : Req) (bad : Option OffFind) (d : Device) : Device :=
  if d.rd fMode ≠ 2 || d.rd (fPartState r.part) ≠ 3 then d else takeReq typ r none bad d

/-- LAUNCH -/
def execLaunch (r : Req) (s : State) : Host.Outcome State Fault Refusal := onDev (request 1 r none) s
/-- ABORT -/
def execAbort (r : Req) (s : State) : Host.Outcome State Fault Refusal := onDev (request 2 r none) s
/-- ALLOC -/
def execAlloc (r : Req) (s : State) : Host.Outcome State Fault Refusal := onDev (request 3 r none) s
/-- FREE -/
def execFree (r : Req) (s : State) : Host.Outcome State Fault Refusal := onDev (request 4 r none) s
/-- PUT -/
def execPut (r : Req) (s : State) : Host.Outcome State Fault Refusal := onDev (request 5 r none) s
/-- GET -/
def execGet (r : GetReq) (s : State) : Host.Outcome State Fault Refusal := onDev (request 6 r.req r.bad) s
/-- QUERY -/
def execQuery (r : Req) (s : State) : Host.Outcome State Fault Refusal := onDev (request 7 r none) s
/-- CLOSE -/
def execClose (r : Req) (s : State) : Host.Outcome State Fault Refusal := onDev (request 8 r none) s

-- PUT posts and NOTICEs (R40, R50).

/-- STATUS OK of a PUT. -/
def putReply (d : Device) (p : Nat) (q : PutPost) : Device :=
  sendHost d p q.flow (hostMsg 0x81 q.jobId q.reqSeq (statusBody 0 0xFF 0 0 0 (d.part p).nextStep 0 0))
/-- PUT_EVENT_POST: the flow's oldest PUT increments its counter, once the tile is ON and in service, and is answered; when its work item
has ended the increment is dropped. -/
def putEventPost (p : Nat) (flow : BitVec 16) (d : Device) : Device :=
  match (d.part p).putPosts.find? (fun q => decide (q.flow = flow)) with
  | none => d
  | some q =>
    let off := match d.hostOf p q.lt with
      | none => none
      | some t => if d.domOn t && !d.tileOut t then none else some t
    let live := decide ((d.part p).runId = q.wi)
    match live, off with
    | true, some t => wakeDom d t 1
    | _, _ =>
      let d := d.modPart p (fun P => { P with putPosts := dropFirst (fun q => decide (q.flow = flow)) P.putPosts })
      putReply (if live then post d [] p q.lt q.ctr 1 else d) p q
/-- PUT_EVENT_POST -/
def execPutEventPost (p : Fin 8) (flow : BitVec 16) (s : State) : Host.Outcome State Fault Refusal := onDev (putEventPost p flow) s
/-- HOST_NOTICE -/
def execHostNotice (p : Fin 8) (l : Fin 32) (s : State) : Host.Outcome State Fault Refusal :=
  onDev (notice p l (·.readyPost true) (·.dropPost true)) s

end Sys2Proof.Machine
end

