-- ==== Sys2Proof/Machine/Session.lean ====
section
/-! DEFINITION. Weneus sessions (R393 to R399): the handshake, the checks every request passes, and replies. -/
namespace Sys2Proof.Machine

-- Keys and the management port.

/-- kdf of R318, R395. -/
def kdf (key ctx : List Byte) (bits : Nat) (label : String) : List Byte := Config.kmac256 key ctx bits label

/-- Does a message reach Weneus while it is served: over IPv6, on UDP port 0xC1D1, to an address of the management port (R393)? -/
def Device.mgtTakes (d : Device) (m : WenMsg) : Bool := d.mgtUp && m.ipv6 && decide (m.udpPort = 0xC1D1#16) && d.mgtAddr m.dst.toNat
/-- A role's key, if one is held (R394). -/
def Device.roleKey (d : Device) (slot : Nat) : Option (List Byte) :=
  match d.roleKeys.find? (fun e => decide (e.1 = slot)) with
  | some e => some e.2
  | none => if slot = 0 then some Config.operatorKey else none

-- Messages.

/-- Weneus header (Table 16-5). -/
def wenHeader (ver typ code session seq len rsvd : Nat) : List Byte :=
  toLe 1 ver ++ toLe 1 typ ++ toLe 2 code ++ toLe 4 session ++ toLe 8 seq ++ toLe 2 len ++ toLe 6 rsvd
/-- Header of a received message of a type. -/
def headerOf (typ : Nat) (m : WenMsg) : List Byte :=
  wenHeader m.ver.toNat typ m.code.toNat m.session.toNat m.seq.toNat m.body.length m.rsvd.toNat
/-- GCM nonce of a message (R396). -/
def wenNonce (session seq : Nat) : List Byte := toLe 4 session ++ toLe 8 seq

/-- A message of the handshake, without tag (R395). -/
def sendPlain (d : Device) (typ code session seq : Nat) (body : List Byte) : Device :=
  d.emit (.weneus (wenHeader 1 typ code session seq body.length 0) body none)
/-- A sealed reply of an open session to its request number `seq` (R396): the body encrypted, and its tag. -/
def sendSealed (d : Device) (s : Sess) (r : Nat × Nat × List Byte) : Device :=
  let h := wenHeader 1 r.1 r.2.1 s.id.toNat s.seq r.2.2.length 0
  let n := wenNonce s.id.toNat s.seq
  d.emit (.weneus h (Config.gcmCrypt s.kdc n r.2.2) (some (Config.gcmTag s.kdc n h r.2.2)))
/-- A message of an open session with its body decrypted (R396). -/
def Sess.plain (s : Sess) (m : WenMsg) : WenMsg := { m with body := Config.gcmCrypt s.kcd (wenNonce s.id.toNat m.seq.toNat) m.body }

/-- The session of a number. -/
def Device.session (d : Device) (id : BitVec 32) : Option Sess := d.sess.find? (fun s => decide (s.id = id))
/-- Change a session. -/
def modSess (d : Device) (id : BitVec 32) (f : Sess → Sess) : Device :=
  { d with sess := d.sess.map (fun s => if s.id = id then f s else s) }
/-- A session ends (R397). -/
def endSess (d : Device) (id : BitVec 32) : Device := { d with sess := d.sess.filter (fun s => decide (s.id ≠ id)) }

/-- The reply to a session's outstanding request: kept for a repeated SEQ (R397), and sent. -/
def replyTo (d : Device) (id : BitVec 32) (typ code : Nat) (body : List Byte) : Device :=
  match d.session id with
  | none => d
  | some s => sendSealed (modSess d id (fun x => { x with last := some (typ, code, body) })) s (typ, code, body)

-- The handshake (R395).

/-- A session number not 0 and not in use, from a random start. -/
def newSession (d : Device) (v : Nat) : BitVec 32 :=
  (((List.range 18).map (fun k => BitVec.ofNat 32 (v + k))).find? (fun i => decide (i ≠ 0) && (d.session i).isNone)).getD 1

/-- Why a HELLO is rejected (Table 16-7), 0 for not at all. -/
def helloCode (d : Device) (m : WenMsg) : Nat :=
  let role := fld m.body 0 1
  let part := fld m.body 1 1
  if m.body.length ≠ 36 || 2 < role || !zeros m.body 2 2 || (role = 1 && 7 < part) || m.rsvd ≠ 0 || m.code ≠ 0 then 4
  else if d.recovery && role ≠ 0 then 3
  else if tget false d.locked (roleSlot role part) then 1
  else if 16 ≤ d.sess.length then 5
  else 0

/-- HELLO: answered with CHALLENGE or REJECT. DESIGN CHOICE (log 132): one whose VER is not 1 or whose SESSION is not 0 is dropped. -/
def hello (m : WenMsg) (d : Device) : Device :=
  if !d.mgtTakes m || m.ver ≠ 1 || m.session ≠ 0 then d
  else
    let c := helloCode d m
    if c ≠ 0 then sendPlain d 5 c 0 m.seq.toNat []
    else
      let a := d.random
      let b := a.2.random
      let id := newSession d (fld b.1 0 4)
      let s : Sess := { id := id, role := fld m.body 0 1, part := fld m.body 1 1, opened := false, hello := m.body,
                        dnonce := a.1, kcd := [], kdc := [], seq := 0, last := none }
      let d : Device := { b.2 with sess := d.sess ++ [s] }
      sendPlain d 2 0 id.toNat m.seq.toNat (a.1 ++ toLe 8 Config.serial.toNat)
/-- WENEUS_HELLO (R395) -/
def execWeneusHello (m : WenMsg) (s : State) : Host.Outcome State Fault Refusal := onDev (hello m) s

/-- Transcript of a handshake. -/
def Sess.transcript (s : Sess) : List Byte := s.hello ++ s.dnonce ++ toLe 4 s.id.toNat ++ toLe 8 Config.serial.toNat

/-- A failed proof: the session is gone; the eighth in a row locks the role (R395). -/
def failProof (d : Device) (s : Sess) (seq : Nat) : Device :=
  let slot := roleSlot s.role s.part
  let n := tget 0 d.fails slot + 1
  let d : Device := if n < 8 then { d with fails := tset 0 d.fails slot n }
    else { d with fails := tset 0 d.fails slot 0, locked := tset false d.locked slot true }
  sendPlain (endSess d s.id) 5 1 s.id.toNat seq []

/-- RESPONSE: the client's proof is checked. DESIGN CHOICE: one whose VER is not 1 is dropped (log 132); one with a CODE or a reserved byte that
is not 0 is rejected with BAD_FIELD, and the session still awaits its RESPONSE (R399; log 136). -/
def response (m : WenMsg) (d : Device) : Device :=
  match d.session m.session with
  | none => d
  | some s =>
    if !d.mgtTakes m || m.ver ≠ 1 || s.opened then d
    else if m.rsvd ≠ 0 || m.code ≠ 0 then sendPlain d 5 4 s.id.toNat m.seq.toNat []
    else match d.roleKey (roleSlot s.role s.part) with
      | none => failProof d s m.seq.toNat
      | some key =>
        if m.body ≠ kdf key s.transcript 256 "Weneus client" then failProof d s m.seq.toNat
        else
          let ks := kdf key s.transcript 512 "Weneus keys"
          let d := modSess d s.id (fun x => { x with opened := true, kcd := ks.take 32, kdc := (ks.drop 32).take 32 })
          let d : Device := { d with fails := tset 0 d.fails (roleSlot s.role s.part) 0 }
          sendPlain d 4 0 s.id.toNat m.seq.toNat (kdf key s.transcript 256 "Weneus device")
/-- RESPONSE (R395) -/
def execWeneusResponse (m : WenMsg) (s : State) : Host.Outcome State Fault Refusal := onDev (response m) s

/-- LOCKOUT_EXPIRY: HELLOs of the role are answered again. -/
def lockoutExpiry (role part : Nat) (d : Device) : Device := { d with locked := tset false d.locked (roleSlot role part) false }
/-- LOCKOUT_EXPIRY (R395) -/
def execLockoutExpiry (role part : Byte) (s : State) : Host.Outcome State Fault Refusal :=
  onDev (lockoutExpiry role.toNat part.toNat) s
/-- SESSION_TIMEOUT (R397) -/
def execSessionTimeout (id : BitVec 32) (s : State) : Host.Outcome State Fault Refusal := onDev (fun d => endSess d id) s

-- Requests (R396 to R399).

/-- What a request's own rule answers: a code with a body now, or a reply to come. -/
abbrev Answer := Option (Nat × List Byte)

/-- Is the request served where start-up has stopped (R384, R398): the recovery service, or after step 6? -/
def Device.serves (d : Device) (typ : Nat) : Bool :=
  if d.recovery then [0x14, 0x27, 0x30, 0x31, 0x32, 0x35].contains typ
  else if d.halted6 then [0x30, 0x31, 0x32, 0x35].contains typ
  else true

/-- The code of the checks that come before a request's own: header, start-up, role, mode (Table 16-6). `roles` are those
that may make it, `adm` marks a request of ADMITTED only. -/
def gateCode (d : Device) (m : WenMsg) (s : Sess) (typ : Nat) (roles : List Nat) (adm : Bool) : Nat :=
  if m.code ≠ 0 || m.rsvd ≠ 0 then 4
  else if !d.serves typ then 3
  else if !roles.contains s.role then 2
  else if adm && d.rd fMode ≠ 0 then 3
  else 0

/-- A request of an open session: its tag and SEQ are checked, a repeated SEQ gets the last reply again, and what `f`
answers to the decrypted message is sent. DESIGN CHOICE (log 132): one whose VER is not 1 is dropped. -/
def wenRequest (typ : Nat) (roles : List Nat) (adm : Bool) (m : WenMsg) (f : WenMsg → Sess → Device → Answer × Device) (d : Device) : Device :=
  match d.session m.session with
  | none => d
  | some s =>
    if !d.mgtTakes m || m.ver ≠ 1 || !s.opened || 4096 < m.body.length ||
       m.tag ≠ Config.gcmTag s.kcd (wenNonce s.id.toNat m.seq.toNat) (headerOf typ m) (s.plain m).body then d
    else if m.seq.toNat = s.seq then
      (match s.last with
       | some r => sendSealed d s r
       | none => d)
    else if m.seq.toNat ≠ s.seq + 1 || (s.last.isNone && s.seq ≠ 0) then d
    else
      let d := modSess d s.id (fun x => { x with seq := m.seq.toNat, last := none })
      let c := gateCode d m s typ roles adm
      if c ≠ 0 then replyTo d s.id typ c []
      else match f (s.plain m) s d with
        | (some r, e) => replyTo e s.id typ r.1 r.2
        | (none, e) => e

/-- An answer without body, nothing changed. -/
def refuse (code : Nat) (d : Device) : Answer × Device := (some (code, []), d)
/-- Done, without body. -/
def done (d : Device) : Answer × Device := (some (0, []), d)

/-- CLOSE: answered, then the session ends (R397). -/
def wenClose (m : WenMsg) (d : Device) : Device :=
  let e := wenRequest 0x41 [0, 1, 2] false m (fun m _ d => if m.body = [] then done d else refuse 4 d) d
  match e.session m.session with
  | some s => if s.opened && s.last = some (0x41, 0, []) then endSess e m.session else e
  | none => e
/-- WENEUS_CLOSE (R397) -/
def execWeneusClose (m : WenMsg) (s : State) : Host.Outcome State Fault Refusal := onDev (wenClose m) s

end Sys2Proof.Machine
end

