-- ==== Sys2Proof/Machine/Passage.lean ====
section
/-! DEFINITION. Passages between the security modes (R310 to R312): their steps, and the requests that start them. -/
namespace Sys2Proof.Machine

/-- Every tile domain is OFF. -/
def Device.tilesOff (d : Device) : Bool := (List.range 32).all (fun t => decide (d.rd (fDom t) = 2))
/-- Every stack that is not retired has been scrubbed. -/
def Device.stacksClean (d : Device) : Bool := (d.liveStacks 0xFF).all d.scrubbed

/-- A flow's and a load's end when ADMITTED is left; every MKA session ends and every SAK is deleted (R322). -/
def leaveAdmitted (d : Device) : Device :=
  ((List.range 8).foldl (fun (e : Device) n => (e.modPort n (fun x => { x with sak := [] })).wr (fMacsec n) 0) { d with load := none }).setFlow 0 Flow.reset

/-- Step 2 of an outward passage: every partition is erased; a swap that waits for one of them waits no longer. -/
def eraseAll (d : Device) : Device :=
  (List.range 8).foldl (fun d p =>
    let d := if within 1 3 (d.rd (fPartState p)) then erasePartition d p else d
    if bit (d.rd fWaitMask) p then seamArrives d p else d) d

/-- Step 3 to 5 begin together: the scrubs start; tiles go OFF at Security's request (Table 13-2). -/
def startScrubs (d : Device) : Device := (d.liveStacks 0xFF).foldl beginScrub d

/-- New buffer keys on X0 and X1 (R312). A partition's data stands there under its own (R316, R317; log 137). -/
def newBufKeys (d : Device) : Device :=
  let a := d.random
  let b := a.2.random
  (b.2.modDie 0 (fun x => { x with bufKey := a.1 })).modDie 1 (fun x => { x with bufKey := b.1 })

/-- Step 6 begins: the partitions of the active table are created, or MACsec starts. -/
def passageLast (d : Device) : Device :=
  if d.rd fInward = 1 then
    (List.range 8).foldl (fun d p => if d.rd (fValid p) = 1 then createPartition d p else d) (newBufKeys d)
  else
    let d := (d.modDie 0 (fun x => { x with bufKey := [] })).modDie 1 (fun x => { x with bufKey := [] })
    (List.range 8).foldl (fun d n => if d.rd (fEnable n) = 1 then d.wr (fMacsec n) 1 else d) d

/-- The request that started the passage is answered. -/
def passageReply (d : Device) : Device :=
  match d.passageVia with
  | none => d
  | some (id, typ) => replyTo { d with passageVia := none } id typ 0 []

/-- A device that has reached ADMITTED with a component not VERIFIED stays in the ROM's recovery service, or serves only the firmware
and reset requests (R325, R384). -/
def firmwareStop (d : Device) : Device :=
  if d.rd (fFwStatus 1) ≠ 1 then ({ d with recovery := true } : Device).wr fReady 0
  else if [2, 3, 4, 5, 6].any (fun c => decide (d.rd (fFwStatus c) ≠ 1)) then ({ d with halted6 := true } : Device).wr fReady 0
  else d
/-- The passage ends: SERVICE, or ADMITTED with no partition. A rise of TEST_EN during an inward passage starts an outward
one at once (Table 12-10). -/
def passageEnd (d : Device) : Device :=
  if d.rd fInward = 1 then
    let d := passageReply (((d.wr fMode 2).wr fPassStep 0).wr fInward 0)
    if d.thenOut then beginPassage { d with thenOut := false } false true 3 else d
  else
    let d := ((d.wr fMode 0).wr fPassStep 0).wr fInward 0
    let d := (List.range 8).foldl (fun d p => if d.rd (fPartState p) = 4 then
      (d.wr (fPartState p) 0).setPart p { Part.reset with swatch := (d.part p).swatch } else d) d
    firmwareStop (passageReply d)

/-- The step under way is done, and the next begins. -/
def passageStep (d : Device) : Device :=
  if d.rd fMode ≠ 1 then d
  else
    let n := d.rd fPassStep
    let on (d : Device) : Device := d.wr fPassStep (n + 1)
    let inward := decide (d.rd fInward = 1)
    if n = 1 then on (if d.passageForce && !inward then (List.range 8).foldl (fun d p => recordFault d p .fatal) d else d)
    else if n = 2 then on (startScrubs (if inward then leaveAdmitted d else eraseAll d))
    else if n = 3 then (if d.tilesOff then on d else d)
    else if n = 4 then (if d.stacksClean then on d else d)
    else if n = 5 then on (passageLast d)
    else if n = 6 then passageEnd d
    else d
/-- PASSAGE_STEP_DONE (R312) -/
def execPassageStepDone (s : State) : Host.Outcome State Fault Refusal := onDev passageStep s

-- The requests (R311, Table 12-2).

/-- Does a component's image have DEBUG set (R325)? -/
def Device.debugImage (d : Device) : Bool := (List.range 7).any (fun c => (tget Comp.reset d.comps c).debug)
/-- The checks of an enter-service request: TEST_EN low, so no JTAG session; components 0 to 6 VERIFIED, none a debug image;
the active partition table valid; every self-tested die and fabric good (R311, R325, R381). -/
def Device.mayServe (d : Device) : Bool :=
  !d.testEn && (List.range 7).all (fun c => decide (d.rd (fFwStatus c) = 1)) && !d.debugImage && d.activeTableValid && d.badTargets.isEmpty

/-- ENTER_SERVICE: an inward passage begins, and the reply comes once SERVICE is reached. -/
def enterService (m : WenMsg) (d : Device) : Device :=
  wenRequest 0x20 [0] false m (fun m s d =>
    if d.rd fMode = 1 then refuse 5 d
    else if d.rd fMode ≠ 0 || d.rd fReady = 0 then refuse 3 d
    else if m.body ≠ [] then refuse 4 d
    else if !d.mayServe then refuse 3 d
    else (none, beginPassage { d with passageVia := some (s.id, 0x20) } true false 1)) d
/-- ENTER_SERVICE (R311) -/
def execEnterService (m : WenMsg) (s : State) : Host.Outcome State Fault Refusal := onDev (enterService m) s

/-- ENTER_ADMITTED: an outward passage begins; an open job forbids it without FORCE. -/
def enterAdmitted (m : WenMsg) (d : Device) : Device :=
  wenRequest 0x21 [0] false m (fun m s d =>
    let force := bit (fld m.body 0 1) 0
    if d.rd fMode = 1 then refuse 5 d
    else if d.rd fMode ≠ 2 then refuse 3 d
    else if m.body.length ≠ 1 || 1 < fld m.body 0 1 then refuse 4 d
    else if d.anyJob && !force then refuse 6 d
    else (none, beginPassage { d with passageVia := some (s.id, 0x21) } false force (if force then 2 else 1))) d
/-- ENTER_ADMITTED (R311) -/
def execEnterAdmitted (m : WenMsg) (s : State) : Host.Outcome State Fault Refusal := onDev (enterAdmitted m) s

end Sys2Proof.Machine
end

