-- ==== Sys2Proof/Machine/Ras.lean ====
section
/-! DEFINITION. Drop checks (R371 to R373): when one starts, what its verdict does to the unit, and what retirement and
repair change; the error log (R375) and fabric errors (R367, R374). -/
namespace Sys2Proof.Machine

-- Starting a check (R371, R372).

/-- Is the unit a record names already retired? -/
def ERec.gone (r : ERec) (d : Device) : Bool :=
  let u := r.unit % 256
  if r.source ≤ 4 then (d.tile u).retired
  else if r.source ≤ 7 then decide (d.rd (fSRetired u) = 1) || (r.source ≠ 7 && decide (d.ch u (r.unit / 256 % 256) = 3))
  else if r.source = 9 then (d.port u).failed
  else false

/-- Is the domain of the unit held OFF under R312 or R316? -/
def ERec.heldOff (r : ERec) (d : Device) : Bool :=
  match r.domain with
  | none => false
  | some n => decide (n < 64) && decide (d.rd (fDom n) = 2) && (decide (d.rd fMode = 1) || (match d.partOf n with
      | none => false
      | some p => decide (d.rd (fPartState p) = 1) || decide (d.rd (fPartState p) = 4)))

/-- Do two units share the tile, stack, port, link or I/O die that one check at a time may occupy (R372)? -/
def sharesUnit (a b : ERec) : Bool :=
  match a.domain, b.domain with
  | some m, some n => if a.source = 8 || b.source = 8 then sameUnit a b else decide (m = n)
  | _, _ => sameUnit a b

/-- A check of a PAUSED channel starts when the pause ends (Table 10-8), and one of a tile's arrays at a pass boundary (R121). -/
def ERec.waits (r : ERec) (d : Device) : Bool :=
  (decide (r.source = 5 ∨ r.source = 6) && decide (d.ch (r.unit % 256) (r.unit / 256 % 256) = 1)) ||
  (decide (r.source = 1) && (match (d.tile (r.unit % 256)).part with
    | none => false
    | some p =>
      let x := d.tile (r.unit % 256)
      !(d.lt p x.run).begun.isEmpty || (d.unitRuns p x.run && !x.held)))

/-- The domain a check needs ON: a tile's or stack's. -/
def ERec.needs (r : ERec) : Option Nat := r.domain.filter (fun n => decide (n < 64))

/-- A check starts: arrays pause, a port's link goes DOWN for its loopback (Table 15-4); what else it takes out of service waits
(`Device.outOfService`). -/
def beginCheck (d : Device) (r : ERec) : Device :=
  let u := r.unit % 256
  let d := setChecks d (d.checks.map (fun c => if c.req.seq = r.seq then { c with running := true } else c))
  if r.source = 1 then d.modTile u (fun t => { t with paused := true })
  else if r.source = 9 then (if d.rd (fLink u) = 2 then dropLink d u else d)
  else d

/-- A check cannot run: its verdict is NOT_RUN. -/
def notRun (d : Device) (r : ERec) : Device :=
  let d := (verdictRec (setChecks d (d.checks.filter (fun c => decide (c.req.seq ≠ r.seq)))) r 4 0).inc fNotRun
  if r.source = 1 then d.modTile (r.unit % 256) (fun t => { t with held := false }) else d

/-- The first waiting check, in SEQ order, that can go on: one that cannot run ends NOT_RUN, one whose unit is free starts;
domains that others need are woken with source CHECK. -/
def startFirst : List ERec → Device → Device
  | [], d => d
  | r :: rs, d =>
    if r.gone d || r.heldOff d then notRun d r
    else if r.waits d || d.checks.any (fun c => c.running && sharesUnit c.req r) then startFirst rs d
    else match r.needs with
      | none => beginCheck d r
      | some n => if d.domOn n then beginCheck d r else startFirst rs (wakeDom d n 12)
/-- DROP_CHECK_START: at most 16 checks run. -/
def dropCheckStart (d : Device) : Device :=
  if 16 ≤ (d.checks.filter (fun c => c.running)).length then d
  else startFirst ((d.checks.filter (fun c => !c.running)).map (fun c => c.req)) d
/-- DROP_CHECK_START (R372) -/
def execDropCheckStart (s : State) : Host.Outcome State Fault Refusal := onDev dropCheckStart s

-- What a LASTING verdict does (R373, Table 15-5). Each answers its ACTION code.

/-- A tile is to retire: at the end of the running work item, or at once where none runs. -/
def retireTile (d : Device) (t : Nat) : Device :=
  let d := addRetire d 1 t
  match (d.tile t).part with
  | none => retireTiles d 0 [t]
  | some p =>
    if (d.part p).isRunning then recordFault (d.modTile t (fun x => { x with retiring := true })) p .tileRetired
    else retireTiles d p [t]

/-- Logical DPU `n` of an array is remapped to the array's next spare DPU (R120). Spares are counted per array; the last one
taken shows in SPARE_OUT (Table 4-10). -/
def takeSpare (d : Device) (t a n : Nat) : Device :=
  let d := (d.modTile t (fun x => { x with remaps := (a, n, d.rd (fSpares t a)) :: x.remaps })).inc (fSpares t a)
  if d.rd (fSpares t a) = 32 then d.wr (fSpareOut t) 1 else d

/-- Spare rows of a scratchpad bank in use. -/
def Device.bankSpares (d : Device) (unit : Nat) : Nat :=
  (d.repairs.filter (fun e => decide (e.source = 3) && !e.retire && decide (e.unit % 65536 = unit % 65536))).length

/-- A stack's Purl engine is replaced by the next stack's, which takes its work; a block it has staged makes its shard TORN (R220,
Table 15-5). -/
def replacePurl (d : Device) (x : Nat) : Device :=
  let d := addRetire d 7 x
  let d := (d.stack x).staged.foldl (fun d b => tearShard d b.part b.shard) (d.modStack x (fun s => { s with replaced := true }))
  let d := match d.stackPart x with
    | none => d
    | some p =>
      let y := d.nextStack p x
      stageAll p (d.modPart p (fun P => { P with updates := P.updates.map (fun u => if u.eng = x then { u with eng := y } else u) }))
  (List.range 32).foldl (fun d c => retireChan d x c) d

/-- A port turns FAILED: its link stays DOWN. -/
def failPort (d : Device) (n : Nat) : Device :=
  (dropLink (addRetire d 9 n) n).modPort n (fun p => { p with failed := true })

/-- The action on a unit found LASTING. Which DPU of a column group the check found is a free value. -/
def lastingAct (d : Device) (r : ERec) : Nat × Device :=
  let u := r.unit % 256
  let sub := r.unit / 256 % 256
  if r.source = 1 && r.kind = 1 then
    let ns := (d.tile u).groupDpus sub (r.unit / 65536)
    let n := ns.getD (Config.freeNat d.free % ns.length) 0
    if d.rd (fSpares u sub) < 32 && d.listRoom then
      (2, takeSpare (addRepair { d with free := d.free + 1 } 1 (r.unit % 65536 + 65536 * n) false) u sub n)
    else (7, retireTile d u)
  else if r.source = 3 then
    if d.bankSpares r.unit < 8 && d.listRoom then (3, addRepair d 3 r.unit false) else (7, retireTile d u)
  else if r.source ≤ 4 then (7, retireTile d u)
  else if r.source = 5 then
    if d.rd (fSparesUsed u sub) < 128 && d.listRoom then
      (4, refuseMem (d.modStack u (fun s => { s with repair := some (sub, bits r.addr 35 16), repairFor := some r })) u)
    else endChannel d u sub false
  else if r.source = 6 then endChannel d u sub (decide (r.kind = 2))
  else if r.source = 7 then (10, replacePurl d u)
  else if r.source = 9 then (9, failPort d u)
  else (12, fatalHold d { mkRec 2 r.source r.kind r.unit with part := r.part })

/-- The action is taken and its verdict recorded; that of a row repair waits until the remap is committed (R265). -/
def lastingVerdict (d : Device) (r : ERec) : Device :=
  let a := lastingAct d r
  if r.source = 5 && a.1 = 4 then a.2 else verdictRec a.2 r 3 a.1

-- The verdict (R371).

/-- Key of a unit's count of TRANSIENT verdicts. -/
def ERec.key (r : ERec) : Nat := r.source * 2 ^ 32 + r.unitNo
/-- Must the verdict wait: the channel under check is PAUSED (R372), or a row repair still runs in the stack (R265)? -/
def verdictWaits (d : Device) (r : ERec) (lasting : Bool) : Bool :=
  let x := r.unit % 256
  r.waits d ||
  (lasting && decide (r.source = 5) && (d.stack x).repair.isSome)

/-- The unit is in service again: arrays run on, a port's link trains, posts that a tile's fabric node held meanwhile are applied. -/
def endCheck (d : Device) (r : ERec) : Device :=
  let u := r.unit % 256
  let d := setChecks d (d.checks.filter (fun c => decide (c.req.seq ≠ r.seq)))
  if r.source = 3 || r.source = 4 then (if d.domOn u && !d.tileOut u then applyPosts d u else d) else
  if r.source = 1 then d.modTile u (fun t => { t with paused := false, held := false })
  else if r.source = 9 && !(d.port u).failed && d.rd (fEnable u) = 1 && d.rd (fDom (64 + u)) ≠ 2 then d.wr (fLink u) 1
  else d

/-- DROP_CHECK_VERDICT: the running check that record `seq` requested ends; `fails`: the pattern test reproduced a
failure. -/
def dropCheckVerdict (seq : Nat) (fails : Bool) (d : Device) : Device :=
  match d.checks.find? (fun c => c.running && decide (c.req.seq = seq)) with
  | none => d
  | some c =>
    let r := c.req
    let n := tget 0 d.transients r.key
    let lasting := fails || c.hit || decide (4 ≤ n)
    if verdictWaits d r lasting then d
    else if lasting then
      endCheck (lastingVerdict d r) r
    else endCheck (verdictRec { d with transients := tset 0 d.transients r.key (n + 1) } r 2 0) r
/-- DROP_CHECK_VERDICT (R371) -/
def execDropCheckVerdict (seq : BitVec 64) (fails : Bool) (s : State) : Host.Outcome State Fault Refusal :=
  onDev (fun d => retryAll (dropCheckVerdict seq.toNat fails d)) s

-- The log (R375).

/-- A record enters the ring, over the record of lowest SEQ when the ring is full. -/
def putLog (log : List ERec) (r : ERec) : List ERec := (if log.length < 131072 then log else log.drop 1) ++ [r]
/-- ERROR_LOG_COMMIT: the oldest record in D.AON SRAM reaches MRAM; once a trip's record has, D.X0 goes OFF (R404). -/
def logCommit (d : Device) : Device :=
  match d.staged with
  | [] => d
  | r :: rs =>
    let d : Device := { d with log := putLog d.log r, staged := rs }
    if d.thermTrip && r.source = 0x0E then d.wr (fDom 72) 2 else d
/-- ERROR_LOG_COMMIT (R375) -/
def execErrorLogCommit (s : State) : Host.Outcome State Fault Refusal := onModule logCommit s

/-- A FATAL error that also gets a drop check: FATAL whatever the check finds (R367, R374). -/
def fatalCheck (d : Device) (r : ERec) : Device :=
  let r : ERec := { r with cls := 2, action := 12, verdict := 1 }
  requestCheck (fatalHold d r) (d.stamp r)

/-- FABRIC_RETRY_EXHAUSTED: what a mesh or bridge link reports of a retry: one that succeeds is a CE, eight attempts that fail are FATAL
(R367, R374). A die's link reports while its fabric domain, or the I/O die, is ON. -/
def fabricRetry (die : Nat) (x : LinkRetry) (d : Device) : Device :=
  let u := die + 256 * x.link.val
  occurs (d.domOn (if die < 4 then 74 + die else 68 + die)) (fun d =>
    if x.ok then errorCheck d { mkRec 0 8 1 u with detail := x.attempts.val + 1, action := 1 }
    else fatalCheck d { mkRec 2 8 2 u with detail := 8 }) d
/-- FABRIC_RETRY_EXHAUSTED (R367) -/
def execFabricRetryExhausted (die : Fin 6) (x : LinkRetry) (s : State) : Host.Outcome State Fault Refusal := onDev (fabricRetry die x) s

/-- An error that a support unit finds (Tables 15-1 and 15-3). The MRAM's are double ones, and FATAL; copies of the fuses that disagree are a
CE; a double error or a hang of another unit is a UE. DESIGN CHOICE (log 140): one in a pool faults the work item of the partition whose data
the word held, and the rest concern none. -/
def supportFound (d : Device) (x : SupportFind) : Device :=
  let r (cls kind : Nat) : ERec := mkRec cls 0x0B kind x.unit.val
  if x.unit.val = 4 then (if x.double then fatalCheck d (r 2 2) else d)
  else if x.unit.val = 5 || !x.double then errorCheck d (r 0 1)
  else match (if x.unit.val ≤ 1 then x.part else none) with
    | none => errorCheck d (r 1 2)
    | some p => ueFault d p.val [] (r 1 2)
/-- The errors that support units report together. -/
def supportFounds (d : Device) (xs : List SupportFind) : Device := xs.foldl supportFound d

/-- Bytes of an error record (Table 15-2). -/
def ERec.bytes (r : ERec) : List Byte :=
  toLe 1 1 ++ toLe 1 r.cls ++ toLe 1 r.source ++ toLe 1 r.kind ++ toLe 1 r.verdict ++ toLe 1 r.action ++ toLe 1 r.part ++ toLe 1 0 ++
  toLe 8 r.seq ++ toLe 4 r.boot ++ toLe 4 r.wi ++ toLe 4 r.step ++ toLe 4 r.unit ++ toLe 8 r.addr ++ toLe 8 r.us.toNat ++
  toLe 8 r.refSeq ++ toLe 4 r.detail ++ toLe 4 0

/-- Records of the log that are PENDING without a verdict record (R372). -/
def Device.pendingRecs (d : Device) : List ERec :=
  let all := d.log ++ d.staged
  all.filter (fun r => decide (r.verdict = 1) && !all.any (fun v => decide (v.cls = 3) && decide (v.refSeq = r.seq)))
/-- Checks for them are requested. -/
def checkPending (d : Device) : Device := d.pendingRecs.foldl requestCheck (setChecks d [])

end Sys2Proof.Machine
end

