-- ==== Sys2Proof/Machine/Bist.lean ====
section
/-! DEFINITION. Built-in self-test by command (R378 to R383) and the signature table (R380). -/
namespace Sys2Proof.Machine

-- The signature table.

/-- Entry `i` of a table: 32 bytes after the header and the signature. -/
def sigEntry (t : List Byte) (i : Nat) : List Byte := (t.drop (1408 + 32 * i)).take 32
/-- The table's entry for a target and mode. -/
def sigFor (t : List Byte) (kind idx mode : Nat) : Option (List Byte) :=
  ((List.range (fld t 2 2)).map (sigEntry t)).find? (fun e => decide (fld e 0 1 = kind) && decide (fld e 1 1 = idx) && decide (fld e 2 1 = mode))

/-- Does a signature table verify (R380): header, digest of the entries, a key slot not revoked, signature? -/
def sigTableOk (d : Device) (t : List Byte) : Bool :=
  let slot := fld t 5 1
  let es := t.drop 1408
  decide (fld t 0 2 = 1) && decide (es.length = 32 * fld t 2 2) && decide (1408 ≤ t.length) && decide (fld t 4 1 = 0x10) && decide (slot < 2) &&
  !(d.revoked && decide (slot = 0)) && zeros t 6 26 && zeros t 96 32 && decide ((t.drop 32).take 64 = Config.shake256 es 512) &&
  Config.fndsaVerify slot (t.take 128) ((t.drop 128).take 1280)

-- Signatures (R379).

/-- misr_step of R379. -/
def misrStep (s r : BitVec 128) : BitVec 128 :=
  let t := s <<< 1
  (if s.getLsbD 127 then t ^^^ 0x87#128 else t) ^^^ r
/-- The signature after `n` responses of a target. -/
def misr (kind idx mode seed : Nat) : Nat → BitVec 128
  | 0 => 0
  | n + 1 => misrStep (misr kind idx mode seed n) (Config.bistResponse kind idx mode seed n)

-- Targets (Table 15-7).

/-- Targets that a command names; none when it names no target. -/
def bistTargets (kind idx : Nat) : List (Nat × Nat) :=
  let many (k n : Nat) : List (Nat × Nat) := (List.range n).map (fun i => (k, i))
  if kind = 7 then many 0 32 ++ many 1 32 ++ many 2 2 ++ many 3 8 ++ many 4 4
  else if (kind = 0 && idx < 32) || (kind = 1 && idx < 32) || (kind = 2 && idx < 2) || (kind = 3 && idx < 8) || (kind = 4 && idx < 4) then [(kind, idx)]
  else []
/-- Tests of a target in a mode: 1 logic, 2 memory; ports and the fabric have no memory test. -/
def bistModes (kind mode : Nat) : List Nat := if mode = 3 then (if kind = 3 || kind = 4 then [1] else [1, 2]) else if mode = 0 then [] else [mode]
/-- Has the table an entry for every test of a command? -/
def Device.tableCovers (d : Device) (ts : List (Nat × Nat)) (mode : Nat) : Bool :=
  ts ≠ [] && mode ≠ 0 && ts.all (fun t => (bistModes t.1 mode).all (fun m => (sigFor d.sigTable t.1 t.2 m).isSome))

/-- A self-test is commanded (R378): refused outside ADMITTED; without entries NO_TABLE; else the targets' domains are
woken with source CHECK. -/
def startTest (kind idx mode : Nat) (via : Option (BitVec 32)) (d : Device) : Device :=
  let ts := bistTargets kind idx
  if d.rd fMode ≠ 0 then d.wr fTestStatus 4
  else if !d.tableCovers ts mode then d.wr fTestStatus 5
  else
    let d : Device := { d with bist := some { targets := ts, mode := mode, failed := false, via := via.map (fun i => (i, 0x34)) } }
    (ts.flatMap (fun t => bistDoms t.1 t.2)).foldl (fun d n => wakeDom d n 12) (d.wr fTestStatus 1)

/-- TEST_STAT and the TEST_SIG registers, as the Weneus reply gives them. -/
def Device.testReply (d : Device) : List Byte := toLe 8 (d.reg 0x700008).toNat ++ (List.range 4).flatMap (fun k => toLe 8 (d.rd (fTestSig k)))

/-- TEST_CMD: only START starts a test; while one runs the write is discarded (R383). -/
def testCmd (w : Word) (d : Device) : Device :=
  let v := w.toNat
  if !bit v 0 || d.rd fTestStatus = 1 || !d.domOn 72 then d else startTest (bits v 31 24) (bits v 23 16) (bits v 9 8) none d
/-- The Weneus request TEST; outside ADMITTED TEST_STAT reads REFUSED too. -/
def testReq (m : WenMsg) (d : Device) : Device :=
  wenRequest 0x34 [0] false m (fun m s d =>
    if d.rd fMode ≠ 0 then (some (3, []), d.wr fTestStatus 4)
    else if m.body.length ≠ 3 || bistTargets (fld m.body 0 1) (fld m.body 1 1) = [] || 3 < fld m.body 2 1 || fld m.body 2 1 = 0 then refuse 4 d
    else if d.rd fTestStatus = 1 then refuse 5 d
    else
      let d := startTest (fld m.body 0 1) (fld m.body 1 1) (fld m.body 2 1) (some s.id) d
      if d.rd fTestStatus = 1 then (none, d) else (some (0, d.testReply), d)) d
/-- TEST (R378) -/
def execTest (via : TestVia) (s : State) : Host.Outcome State Fault Refusal :=
  match via with
  | .reg w => onDev (testCmd w) s
  | .weneus m => onDev (testReq m) s

-- The end of a test (R381).

/-- Result of one test: target, mode, signature, expected signature. -/
abbrev TestRes := Nat × Nat × Nat × Nat × Nat
/-- Did a test fail? -/
def TestRes.bad (r : TestRes) : Bool := decide (r.2.2.2.1 ≠ r.2.2.2.2)
/-- Results of a target's tests. -/
def testTarget (d : Device) (mode : Nat) (t : Nat × Nat) : List TestRes :=
  (bistModes t.1 mode).map (fun m =>
    let e := (sigFor d.sigTable t.1 t.2 m).getD []
    (t.1, t.2, m, (misr t.1 t.2 m (fld e 8 8) (fld e 4 4)).toNat, fld e 16 16))

/-- TEST_SIG shows a test's signatures. -/
def showTest (d : Device) (r : TestRes) : Device :=
  let x := r.2.2.2.1
  let y := r.2.2.2.2
  (((d.wr (fTestSig 0) x).wr (fTestSig 1) (x / 2 ^ 64)).wr (fTestSig 2) y).wr (fTestSig 3) (y / 2 ^ 64)

/-- A target passes: retirement entries of a tile or port are taken out of the list, a die or the fabric is good again. -/
def passTarget (d : Device) (t : Nat × Nat) : Device :=
  let own (e : Repair) : Bool := e.retire && decide (e.unit % 256 = t.2) && ((t.1 == 0 && decide (e.source = 1)) || (t.1 == 3 && decide (e.source = 9)))
  let d : Device := { d with repairs := d.repairs.filter (fun e => !own e), badTargets := d.badTargets.filter (fun x => decide (x ≠ t)) }
  d.wr fRepairUsed d.repairs.length
/-- A target fails: a record, and its retirement; X0, X1 and the fabric are FATAL, and forbid SERVICE. -/
def failTarget (d : Device) (t : Nat × Nat) (mode : Nat) : Device :=
  let r := mkRec 1 0x0D mode (t.1 + 256 * t.2)
  if t.1 = 0 then retireTile (addRecord d { r with action := 7 }) t.2
  else if t.1 = 1 then retireStack (addRetire (addRecord d { r with action := 8 }) 0x0D (1 + 256 * t.2)) t.2
  else if t.1 = 3 then failPort (addRecord d { r with action := 9 }) t.2
  else { (fatalHold d { r with cls := 2 }) with badTargets := t :: d.badTargets.filter (fun x => decide (x ≠ t)) }

/-- Results take effect, target by target. -/
def applyTest (d : Device) (mode : Nat) (t : Nat × Nat) : Device :=
  match (testTarget d mode t).find? (fun r => r.bad) with
  | none => passTarget d t
  | some r => failTarget d t r.2.2.1

/-- SELF_TEST_DONE: once the targets' domains are ON, the signatures decide. -/
def selfTestDone (d : Device) : Device :=
  match d.bist with
  | none => d
  | some b =>
    let doms := b.targets.flatMap (fun t => bistDoms t.1 t.2)
    if !doms.all d.domOn then d
    else
      let rs := b.targets.flatMap (testTarget d b.mode)
      let bad := rs.find? (fun r => r.bad)
      let d := match (match bad with
          | some r => some r
          | none => rs.getLast?) with
        | some r => showTest d r
        | none => d
      let d := b.targets.foldl (fun d t => applyTest d b.mode t) { d with bist := none }
      let d := (doms.filter (fun n => decide (n < 72))).foldl forceOff ((d.wr fTestStatus (if bad.isSome then 3 else 2)).inc fTestRuns)
      match b.via with
      | none => d
      | some (id, typ) => replyTo d id typ 0 d.testReply
/-- SELF_TEST_DONE (R381) -/
def execSelfTestDone (s : State) : Host.Outcome State Fault Refusal := onDev selfTestDone s

end Sys2Proof.Machine
end

