-- ==== Sys2Proof/Machine/Regfile.lean ====
section
/-! DEFINITION. Reads and writes of the management register space (R4 to R6, R400, R405): registers that show other state,
access types, the configuration commands and ALERT. -/
namespace Sys2Proof.Machine

-- Reads.

/-- Bytes 8k to 8k + 7 of a byte list as a word; 0 beyond its end. -/
def wordAt (bs : List Byte) (k : Nat) : Word := BitVec.ofNat 64 (fld bs (8 * k) 8)

/-- Code of a flow's state (Table 11-8). -/
def FlowSt.code : FlowSt → Nat
  | .free => 0 | .listen => 1 | .opening => 2 | .opened => 3 | .unreachable => 4 | .closing => 5
/-- A flow context as NET_FLOW_DATA shows it (Table 11-8). -/
def Flow.bytes (f : Flow) : List Byte :=
  toLe 1 f.st.code ++ toLe 1 f.kind ++ toLe 1 f.part ++ toLe 1 f.home ++ toLe 2 f.peerFlow.toNat ++ toLe 2 f.peerDev.toNat ++
  toLe 4 f.incarn.toNat ++ toLe 4 f.jobId.toNat ++ toLe 4 f.txNext.toNat ++ toLe 4 f.txUnack.toNat ++ toLe 4 f.txCredit.toNat ++
  toLe 4 f.rxNext.toNat ++ toLe 4 f.rxCredit.toNat ++ toLe 4 f.ctlTxNext.toNat ++ toLe 4 f.ctlRxNext.toNat ++ toLe 4 f.srtt.toNat ++
  toLe 4 f.rttvar.toNat ++ toLe 2 f.retries ++ [f.farPorts] ++ toLe 1 0 ++ toLe 2 f.keyIdx.toNat ++ toLe 2 f.addrRef.toNat ++ toLe 4 0

/-- Firmware component `c`. -/
def Device.comp (d : Device) (c : Nat) : Comp := tget Comp.reset d.comps c
/-- The record RAS_LOG_SEL names, if it is in the log. -/
def Device.shownRecord (d : Device) : List Byte := ((d.log.find? (fun r => decide (r.seq = d.rd fLogSel))).map ERec.bytes).getD []
/-- A register of a tile or stack block: while the domain is not ON, as it stood when the entry began (Table 13-14). -/
def Device.readBlock (d : Device) (n o : Nat) : Word :=
  match (if d.domOn n then none else (d.dom n).shown) with
  | none => d.blockReg n o
  | some t => tget 0 t o

/-- Has step 5 loaded the active set (R387)? Its registers then read as the stored set. -/
def Device.setLoaded (d : Device) : Bool := rwsRegs.all (fun a => decide (d.active a = tget 0 d.mramActive a))
/-- Has step 3 read the identity store: it is over, or the recovery service runs (R406)? -/
def Device.identityRead (d : Device) : Bool := decide (4 ≤ d.rd fPhase) || d.recovery || decide (d.rd fWarm = 1)
/-- What stands at a register's address when it is read; DORMANT of an instance follows the shards that name it (R228); BOOT_COUNT stands in MRAM, the certificate shows once step 3 has read it, and the set's digest once
step 5 has loaded the set. LINK_AGE_MS is a time the model has no clock for: a free value, another one at every read. -/
def Device.shownReg (d : Device) (a : Nat) : Word :=
  if a = 0x8 then putBits (d.reg a) 63 32 d.bootNv
  else if a = 0x28 then (if d.identityRead then wordAt Config.certificate (bits (d.reg 0x20).toNat 8 0) else 0)
  else if a = 0x10108 then d.shadowOf (bits (d.reg 0x10100).toNat 23 0)
  else if 0x10200 ≤ a && a < 0x10240 then (if d.setLoaded then wordAt d.setDigest ((a - 0x10200) / 8) else 0)
  else if a = 0x30028 then putBits (d.reg a) 31 0 (Config.freeWord (d.free + a)).toNat
  else if 0x40208 ≤ a && a < 0x40248 then wordAt (d.comp (bits (d.reg 0x40200).toNat 2 0)).digest ((a - 0x40208) / 8)
  else if 0x81008 ≤ a && a < 0x81048 then wordAt (d.flow (bits (d.reg 0x81000).toNat 15 0)).bytes ((a - 0x81008) / 8)
  else if 0x501000 ≤ a && a < 0x503000 then putBits (d.reg a) 1 1 (if d.instDormant ((a - 0x501000) / 8) then 1 else 0)
  else if 0x600020 ≤ a && a < 0x600060 then wordAt d.shownRecord ((a - 0x600020) / 8)
  else if 0x100000 ≤ a && a < 0x500000 then d.readBlock ((a - 0x100000) / 0x10000) (a % 0x10000)
  else d.reg a
/-- The word a read of a register returns: reserved bits and bits of access WO read 0 (R5, R6). -/
def Device.readReg (d : Device) (a : Nat) : Word := d.shownReg a &&& BitVec.ofNat 64 (fieldBits a)

-- Writes.

/-- The command of CFG_CMD (R389). -/
def cfgCommand (c : Nat) (d : Device) : Device :=
  if c = 1 then swapCmd d else if c = 2 then cancelCmd d else if c = 3 then revertCmd d else d
/-- ALERT_N is deasserted (R368, R382). -/
def alertClear (d : Device) : Device := d.wr fAlert 0
/-- ALERT_CLEAR -/
def execAlertClear (s : State) : Host.Outcome State Fault Refusal := onDev alertClear s

/-- Bits of a plain RW register change. -/
def writeRw (d : Device) (a : Nat) (w : Word) : Device :=
  let m := BitVec.ofNat 64 (rwMask a)
  d.setReg a ((d.reg a &&& ~~~m) ||| (w &&& m))

/-- Stack whose STK_SCRUB stands at an address. -/
def scrubAddr (a : Nat) : Option Nat := if 0x300000 ≤ a && a < 0x500000 && a % 0x10000 = 0x10 then some ((a - 0x300000) / 0x10000) else none

/-- A write takes effect by the access type of each field (R6); RO and MRO fields discard it, RWS fields change the shadow
set, and while a swap is pending a write to a register with RWS fields changes nothing (R388). -/
def writeReg (a : Nat) (w : Word) (d : Device) : Device :=
  if a % 8 ≠ 0 || !inBlock a || !d.domOn 72 || (rwsMask a ≠ 0 && d.rd fCfgState = 1) then d
  else if a = 0x10008 then cfgCommand (bits w.toNat 1 0) d
  else if a = 0x700000 then testCmd w d
  else if w1cMask a ≠ 0 then (if bit w.toNat 1 then alertClear d else d)
  else if a = 0x40480 && d.rd fMode ≠ 0 then d
  else match scrubAddr a with
    | some x => if bit w.toNat 0 then scrubStart x d else d
    | none =>
      let d := if rwMask a = 0 then d else writeRw d a w
      if rwsMask a = 0 then d else putShadow d a w
/-- REGISTER_WRITE (R6) -/
def execRegisterWrite (a : BitVec 32) (w : Word) (s : State) : Host.Outcome State Fault Refusal := onDev (writeReg a.toNat w) s

-- What a role reaches (R400, Table 16-8).

/-- Registers a TENANT of `p` may read. -/
def Device.tenantReach (d : Device) (p a : Nat) : Bool :=
  let us := if d.rd (fPartState p) = 0 then [] else unitsOf (d.part p).cols
  us.any (fun u => (decide (tileReg u 0 ≤ a) && decide (a < tileReg u 0x10000)) || (decide (stkReg u 0 ≤ a) && decide (a < stkReg u 0x10000))) ||
  (decide (0x50000 ≤ a) && decide (a < 0x50080) && decide ((a - 0x50000) / 16 = p)) ||
  (decide (0x58000 ≤ a) && decide (a < 0x58100) && decide ((a - 0x58000) / 32 = p)) ||
  (decide (0x59000 ≤ a) && decide (a < 0x59080) && decide ((a - 0x59000) / 16 = p)) ||
  [0x500100, 0x500200, 0x500300, 0x500400, 0x500500, 0x500600, 0x30100].any (fun b => decide (a = b + 8 * p))

/-- The code of a READ of `n` registers from `a` on. -/
def readCode (d : Device) (s : Sess) (a n : Nat) : Nat :=
  let as := (List.range n).map (fun k => a + 8 * k)
  if n = 0 || 128 < n || a % 8 ≠ 0 || !as.all inBlock then 4
  else if s.role = 1 && !as.all (d.tenantReach s.part) then 2
  else 0
/-- Codewords have been corrected on the ports whose link is up: no command tells how many, so before a READ each of their counters rises
by a free amount (log 89). -/
def countFec (d : Device) : Device :=
  (List.range 8).foldl (fun e n => if d.rd (fLink n) = 2 then e.inc (fFecCorr n) (Config.freeNat (d.free + n)) else e) { d with free := d.free + 8 }
/-- READ -/
def weneusRead (m : WenMsg) (d : Device) : Device :=
  wenRequest 0x10 [0, 1] false m (fun m s d =>
    let a := fld m.body 0 4
    let n := fld m.body 4 2
    let c := if m.body.length = 6 then readCode d s a n else 4
    if c ≠ 0 then refuse c d
    else
      let d := countFec d
      (some (0, (List.range n).flatMap (fun k => toLe 8 (d.readReg (a + 8 * k)).toNat)), { d with free := d.free + 2 ^ 23 })) d
/-- READ (R400) -/
def execWeneusRead (m : WenMsg) (s : State) : Host.Outcome State Fault Refusal := onDev (weneusRead m) s

/-- WRITE -/
def weneusWrite (m : WenMsg) (d : Device) : Device :=
  wenRequest 0x11 [0] false m (fun m _ d =>
    let a := fld m.body 0 4
    if m.body.length ≠ 16 || !zeros m.body 4 4 || a % 8 ≠ 0 || !inBlock a then refuse 4 d
    else if rwsMask a ≠ 0 && d.rd fCfgState = 1 then refuse 5 d
    else done (writeReg a (BitVec.ofNat 64 (fld m.body 8 8)) d)) d
/-- WRITE (R400) -/
def execWeneusWrite (m : WenMsg) (s : State) : Host.Outcome State Fault Refusal := onDev (weneusWrite m) s

-- CONFIG (R389, Table 16-6).

/-- The Weneus request CONFIG with command `c`: the reply holds CFG_STAT, with REFUSED when the command was refused. -/
def config (c : Nat) (m : WenMsg) (d : Device) : Device :=
  wenRequest 0x12 [0] false m (fun m _ d =>
    if m.body ≠ toLe 1 c then refuse 4 d
    else
      let d := cfgCommand c d
      (some (if c ≠ 2 && d.rd fCfgResult = 2 then 7 else 0, toLe 8 (d.reg 0x10000).toNat), d)) d
/-- SWAP, from CFG_CMD or CONFIG (R390). -/
def execSwap (via : Option WenMsg) (s : State) : Host.Outcome State Fault Refusal :=
  match via with
  | none => onDev (fun d => occurs (d.domOn 72) swapCmd d) s
  | some m => onDev (config 1 m) s
/-- CANCEL (R391) -/
def execCancel (via : Option WenMsg) (s : State) : Host.Outcome State Fault Refusal :=
  match via with
  | none => onDev (fun d => occurs (d.domOn 72) cancelCmd d) s
  | some m => onDev (config 2 m) s
/-- REVERT (R389) -/
def execRevert (via : Option WenMsg) (s : State) : Host.Outcome State Fault Refusal :=
  match via with
  | none => onDev (fun d => occurs (d.domOn 72) revertCmd d) s
  | some m => onDev (config 3 m) s

end Sys2Proof.Machine
end

