-- ==== Sys2Proof/Machine/Firmware.lean ====
section
/-! DEFINITION. Root of trust: firmware images (R323 to R327), their load over Weneus or a recovery flow (R398, R401), the
attestation report (R329), key installation (R318) and the key store (R322, R394). -/
namespace Sys2Proof.Machine

-- Images (R324, R325).

/-- SEC_FW.STATUS of an image: VERIFIED, FAILED or ROLLBACK (R325). -/
def Device.fusedOf (d : Device) (c : Nat) : Nat := if c = 0 then 0 else (tget none d.fused c).getD (Config.fusedSvn c)
/-- Do an image's header, key slot, signature and digest hold? A debug image holds only in ADMITTED. -/
def imageSound (d : Device) (c : Nat) (im : List Byte) : Bool :=
  let slot := fld im 0x11 1
  let svn := fld im 4 4
  let pay := im.drop 0x580
  decide (0x580 ≤ im.length) && decide (fld im 0 2 = 1) && decide (fld im 2 2 = c) && within 1 64 svn && decide (fld im 8 8 = pay.length) &&
  decide (fld im 0x10 1 = 0x10) && decide (slot < 2) && decide (fld im 0x12 2 < 2) && zeros im 0x14 12 && zeros im 0x60 32 &&
  !(d.revoked && decide (slot = 0)) && (!bit (fld im 0x12 2) 0 || decide (d.rd fMode = 0)) &&
  decide ((im.drop 0x20).take 64 = Config.shake256 pay 512) && Config.fndsaVerify slot (im.take 0x80) ((im.drop 0x80).take 0x500)
/-- Status of an image: 1 VERIFIED, 2 FAILED, 3 ROLLBACK. -/
def imageStatus (d : Device) (c : Nat) (im : List Byte) : Nat :=
  if !imageSound d c im then 2 else if fld im 4 4 < d.fusedOf c then 3 else 1

/-- Image of a component that runs. -/
def Comp.running (x : Comp) (c : Nat) : List Byte := x.image.getD (Config.firmware c)
/-- A component is verified and measured (R327); one that is not VERIFIED does not run. -/
def verifyComp (c : Nat) (d : Device) : Device :=
  let x := d.comp c
  let im := x.running c
  let st := imageStatus d c im
  let x : Comp := { x with svn := fld im 4 4 % 256, digest := Config.shake256 (im.drop 0x580) 512, debug := bit (fld im 0x12 2) 0 }
  let d : Device := { d with comps := tput c x d.comps }
  ((d.wr (fFwStatus c) st).wr (fSvn c) x.svn).wr (fFusedSvn c) (d.fusedOf c)
/-- The ROM measures itself: VERIFIED, SVN 0. -/
def measureRom (d : Device) : Device :=
  let x : Comp := { svn := 0, digest := Config.shake256 Config.romImage 512, debug := false, image := none, next := none }
  ({ d with comps := tput 0 x d.comps } : Device).wr (fFwStatus 0) 1

/-- RAISE_SVN: a component's fused SVN rises to that of its VERIFIED image (R326). -/
def raiseSvn (m : WenMsg) (d : Device) : Device :=
  wenRequest 0x26 [0] true m (fun m _ d =>
    let c := fld m.body 0 2
    if m.body.length ≠ 2 || !within 1 6 c then refuse 4 d
    else if d.rd (fFwStatus c) ≠ 1 then refuse 6 d
    else
      let v := max (d.fusedOf c) (d.comp c).svn
      (some (0, toLe 1 v), ({ d with fused := tset none d.fused c (some v) } : Device).wr (fFusedSvn c) v)) d
/-- RAISE_SVN (R326) -/
def execRaiseSvn (m : WenMsg) (s : State) : Host.Outcome State Fault Refusal := onDev (raiseSvn m) s

-- Loading (R398, R401).

/-- A load ends; its recovery flow with it. -/
def endLoad (d : Device) : Device :=
  match d.load with
  | none => d
  | some l => let d : Device := { d with load := none }
              if l.chind then d.setFlow 0 Flow.reset else d
/-- FW_BEGIN: a load starts in place of any before it; over Chind, flow context 0 awaits one OPEN. -/
def fwBegin (m : WenMsg) (d : Device) : Device :=
  wenRequest 0x30 [0] true m (fun m _ d =>
    let b := m.body
    let t := fld b 0 2
    let via := fld b 2 1
    if b.length ≠ 32 || (!within 1 6 t && t ≠ 0x10) || 1 < via || !zeros b 3 5 then refuse 4 d
    else if d.recovery && t ≠ 1 then refuse 3 d
    else
      let l : FwLoad := { target := t, chind := decide (via = 1), addr := BitVec.ofNat 128 (leNat ((b.drop 16).take 16).reverse),
                          length := fld b 8 8, data := [] }
      let d : Device := { endLoad d with load := some l }
      done (if via = 1 then listen d 0 else d)) d
/-- FW_BEGIN (R401) -/
def execFwBegin (m : WenMsg) (s : State) : Host.Outcome State Fault Refusal := onDev (fwBegin m) s

/-- FW_DATA: bytes of the image at an offset. -/
def fwData (m : WenMsg) (d : Device) : Device :=
  wenRequest 0x31 [0] true m (fun m _ d => match d.load with
    | none => refuse 6 d
    | some l =>
      let o := fld m.body 0 8
      let bs := m.body.drop 8
      if m.body.length < 8 || l.length < o + bs.length then refuse 4 d
      else done { d with load := some { l with data := mwrite l.data o bs } }) d
/-- FW_DATA (R398) -/
def execFwData (m : WenMsg) (s : State) : Host.Outcome State Fault Refusal := onDev (fwData m) s

/-- A loaded image or table is verified: a VERIFIED image goes into its component's other bank, a table replaces the one
held; what fails is discarded. Answers the status. -/
def fwStore (d : Device) (l : FwLoad) : Nat × Device :=
  let bs := mread l.data 0 l.length
  if l.target = 0x10 then
    if sigTableOk d bs then (1, { d with sigTable := bs }) else (2, d)
  else
    let st := imageStatus d l.target bs
    (st, if st = 1 then { d with comps := tput l.target { d.comp l.target with next := some bs } d.comps } else d)
/-- FW_END -/
def fwEnd (m : WenMsg) (d : Device) : Device :=
  wenRequest 0x32 [0] true m (fun m _ d => match d.load with
    | none => refuse 6 d
    | some l =>
      if m.body ≠ [] then refuse 4 d
      else
        let r := fwStore (endLoad d) l
        (some (0, toLe 1 r.1), r.2)) d
/-- FW_END (R398) -/
def execFwEnd (m : WenMsg) (s : State) : Host.Outcome State Fault Refusal := onDev (fwEnd m) s

/-- Images in the other banks run from a reset on. -/
def swapBanks (d : Device) : Device :=
  { d with comps := d.comps.map (fun e => (e.1, match e.2.next with
      | none => e.2
      | some im => { e.2 with image := some im, next := none })) }

-- Attestation (R328, R329).

/-- `n` bytes of a list, zeros past its end. -/
def padTo (n : Nat) (bs : List Byte) : List Byte := (List.range n).map (fun i => bs.getD i 0#8)
/-- A component's measurement in the report. -/
def Device.meas (d : Device) (c : Nat) : List Byte :=
  toLe 2 c ++ toLe 1 (d.rd (fFwStatus c)) ++ toLe 1 0 ++ toLe 4 (d.comp c).svn ++ padTo 64 (d.comp c).digest
/-- Bytes 0x000 to 0x8FF of the report (Table 12-9); `p` none for KIND DEVICE. -/
def Device.report (d : Device) (p : Option Nat) (nonce : List Byte) : List Byte :=
  let of (f : Nat → Nat) : Nat := (p.map f).getD 0
  toLe 2 1 ++ toLe 1 (if p.isSome then 1 else 0) ++ toLe 1 (d.rd fMode) ++ toLe 4 0 ++ toLe 8 Config.serial.toNat ++ toLe 1 0x10 ++ toLe 3 0 ++
  toLe 4 (d.rd fBootCount) ++ padTo 32 nonce ++ toLe 1 (p.getD 0xFF) ++ toLe 1 (of (fun p => d.rd (fColumns p))) ++ toLe 2 0 ++
  toLe 4 (of (fun p => d.rd (fTenantTag p))) ++ toLe 4 (of (fun p => d.rd (fGen p))) ++ toLe 1 (of (fun p => d.rd (fPartState p))) ++
  toLe 1 (if d.revoked then 1 else 0) ++ toLe 10 0 ++ (List.range 8).flatMap d.meas ++ padTo 64 d.setDigest ++
  padTo 1568 ((p.map (fun p => (d.part p).ek)).getD []) ++ toLe 2 1280 ++ toLe 14 0

/-- The code of an ATTEST request. -/
def attestCode (d : Device) (s : Sess) (b : List Byte) : Nat :=
  let kind := fld b 0 1
  let p := fld b 1 1
  let st := d.rd (fPartState p)
  if b.length ≠ 36 || 1 < kind || !zeros b 2 2 || (kind = 1 && 7 < p) then 4
  else if s.role = 1 && !(kind = 1 && p = s.part) then 2
  else if kind = 1 && (st = 0 || st = 1 || st = 4) then 6
  else 0
/-- Seed of the device's identity key pair (R328). -/
def identitySeed : List Byte := kdf Config.uds (toLe 8 Config.serial.toNat) 384 "EKA32 identity"
/-- ATTEST: the signed report. -/
def attest (m : WenMsg) (d : Device) : Device :=
  wenRequest 0x22 [0, 1] false m (fun m s d =>
    let c := attestCode d s m.body
    if c ≠ 0 then refuse c d
    else
      let r := d.report (if fld m.body 0 1 = 1 then some (fld m.body 1 1) else none) (m.body.drop 4)
      let a := d.random
      (some (0, r ++ padTo 1280 (Config.fndsaSign identitySeed a.1 r)), a.2.inc fAttests)) d
/-- ATTEST (R329) -/
def execAttest (m : WenMsg) (s : State) : Host.Outcome State Fault Refusal := onDev (attest m) s
/-- GET_CERT: the identity certificate (R328). -/
def getCert (m : WenMsg) (d : Device) : Device :=
  wenRequest 0x27 [0, 1, 2] false m (fun m _ d => if m.body = [] then (some (0, Config.certificate), d) else refuse 4 d) d
/-- GET_CERT (R328) -/
def execGetCert (m : WenMsg) (s : State) : Host.Outcome State Fault Refusal := onDev (getCert m) s

-- Keys (R318, R322, R394).

/-- Key-encryption key of an installation (R318). -/
def Device.kek (d : Device) (p : Nat) (ss : List Byte) : List Byte :=
  kdf ss (toLe 8 Config.serial.toNat ++ toLe 1 p ++ toLe 4 (d.rd fBootCount) ++ toLe 4 (d.rd (fGen p))) 256 "EKA32 key install"
/-- TS of a key-install payload, if its tag verifies. -/
def Device.unwrap (d : Device) (p : Nat) (b : List Byte) : Option (List Byte) :=
  let k := d.kek p (Config.mlkemDecaps (d.part p).dk ((b.drop 0x10).take 1568))
  let ts := Config.gcmCrypt k (toLe 12 0) ((b.drop 0x630).take 32)
  if BitVec.ofNat 128 (fld b 0x650 16) = Config.gcmTag k (toLe 12 0) (b.take 16) ts then some ts else none
/-- The code of a KEY_INSTALL before the tag is tried. -/
def installCode (d : Device) (s : Sess) (b : List Byte) : Nat :=
  let p := s.part
  let st := d.rd (fPartState p)
  if d.rd fMode ≠ 2 then 3
  else if b.length ≠ 1632 || fld b 0 1 ≠ 1 || 7 < fld b 1 1 || !zeros b 2 2 || !zeros b 0xC 4 then 4
  else if fld b 1 1 ≠ p then 2
  else if (st ≠ 2 && st ≠ 3) || (st = 3 && (d.part p).job.isSome) then 6
  else if fld b 4 4 ≠ d.rd fBootCount || fld b 8 4 ≠ d.rd (fGen p) then 6
  else 0
/-- KEY_INSTALL: with a valid tag the tenant secret is stored, and the partition is KEYED. -/
def keyInstall (m : WenMsg) (d : Device) : Device :=
  wenRequest 0x23 [1] false m (fun m s d =>
    let c := installCode d s m.body
    if c ≠ 0 then refuse c d
    else match d.unwrap s.part m.body with
      | none => refuse 1 d
      | some ts => done (storeSecret d s.part ts)) d
/-- KEY_INSTALL (R318) -/
def execKeyInstall (m : WenMsg) (s : State) : Host.Outcome State Fault Refusal := onDev (keyInstall m) s

/-- SET_ROLE_KEY: a role key is replaced (R394). -/
def setRoleKey (m : WenMsg) (d : Device) : Device :=
  wenRequest 0x24 [0, 1] false m (fun m s d =>
    let b := m.body
    let role := fld b 0 1
    let p := fld b 1 1
    let st := d.rd (fPartState p)
    if b.length ≠ 36 || 2 < role || !zeros b 2 2 || (role = 1 && 7 < p) then refuse 4 d
    else if s.role = 1 && !(role = 1 && p = s.part) then refuse 2 d
    else if role = 1 && st ≠ 2 && st ≠ 3 then refuse 6 d
    else done { d with roleKeys := tput (roleSlot role p) (b.drop 4) d.roleKeys }) d
/-- SET_ROLE_KEY (R394) -/
def execSetRoleKey (m : WenMsg) (s : State) : Host.Outcome State Fault Refusal := onDev (setRoleKey m) s

/-- SET_CAK: the MACsec CAK and its name go into the key store, sealed (R322). -/
def setCak (m : WenMsg) (d : Device) : Device :=
  wenRequest 0x25 [0] true m (fun m _ d =>
    let b := m.body
    if b.length ≠ 68 || !within 1 32 (fld b 0 1) || !zeros b 1 3 then refuse 4 d
    else
      let t := sealCak (b.drop 36 ++ (b.drop 4).take (fld b 0 1))
      done (({ d with ckn := t.drop 32, cak := t.take 32 } : Device).wr fCakSet 1)) d
/-- SET_CAK (R322) -/
def execSetCak (m : WenMsg) (s : State) : Host.Outcome State Fault Refusal := onDev (setCak m) s

-- Telemetry, the log, the meter's record.

/-- The 26 registers of TELEMETRY, in order (R402). -/
def telemetryRegs : List Nat :=
  [0x8] ++ (List.range 9).map (fun k => 0x100 + 8 * k) ++ [0x20000, 0x20008, 0x600000, 0x600008, 0x40000, 0x10000] ++
  (List.range 8).map (fun p => 0x50008 + 16 * p) ++ [0x30000, 0x30010]
/-- TELEMETRY -/
def telemetry (m : WenMsg) (d : Device) : Device :=
  wenRequest 0x13 [0] false m (fun m _ d =>
    if m.body ≠ [] then refuse 4 d else (some (0, telemetryRegs.flatMap (fun a => toLe 8 (d.readReg a).toNat)), d)) d
/-- TELEMETRY (R402) -/
def execTelemetry (m : WenMsg) (s : State) : Host.Outcome State Fault Refusal := onDev (telemetry m) s

/-- LOG_READ: records of the log from a SEQ on. -/
def logRead (m : WenMsg) (d : Device) : Device :=
  wenRequest 0x14 [0] false m (fun m _ d =>
    if m.body.length ≠ 9 || !within 1 16 (fld m.body 8 1) then refuse 4 d
    else (some (0, ((d.log.filter (fun r => decide (fld m.body 0 8 ≤ r.seq))).take (fld m.body 8 1)).flatMap ERec.bytes), d)) d
/-- LOG_READ (R375) -/
def execLogRead (m : WenMsg) (s : State) : Host.Outcome State Fault Refusal := onDev (logRead m) s
/-- LOG_CLEAR: the ring is empty; SEQ goes on. -/
def logClear (m : WenMsg) (d : Device) : Device :=
  wenRequest 0x15 [0] true m (fun m _ d => if m.body ≠ [] then refuse 4 d else done { d with log := [] }) d
/-- LOG_CLEAR (R375) -/
def execLogClear (m : WenMsg) (s : State) : Host.Outcome State Fault Refusal := onDev (logClear m) s
/-- METER_READ: the latest meter record, byte for byte (R363). DESIGN CHOICE (log 133): before X0 has any, OK with an empty body. -/
def meterRead (m : WenMsg) (d : Device) : Device :=
  wenRequest 0x40 [2] false m (fun m _ d => if m.body ≠ [] then refuse 4 d else (some (0, d.metRecord), d)) d
/-- METER_READ (R363) -/
def execMeterRead (m : WenMsg) (s : State) : Host.Outcome State Fault Refusal := onDev (meterRead m) s

end Sys2Proof.Machine
end

