-- ==== Sys2Proof/Machine/Units.lean ====
section
/-! DEFINITION. The entry table of a grouped walk and its work units (R114 to R117): what each computes from, and which tile takes the
next. -/
namespace Sys2Proof.Machine

-- The entry table (Table 4-7).

/-- Sizes and flags of entry `i` of a table. -/
structure GEntry where
  gid : Nat
  skip : Bool
  zfill : Bool
  m : Nat
  n : Nat
  k : Nat
  aH : Nat
  bH : Nat
  cH : Nat
  aOff : Nat
  bOff : Nat
  cOff : Nat
  deriving DecidableEq, Repr

/-- Entry `i` of the table's bytes. -/
def gEntry (b : List Byte) (i : Nat) : GEntry :=
  let f (o n : Nat) := fld b (32 * i + o) n
  let q := f 2 6
  { gid := bits (f 0 2) 11 0, skip := bit (f 0 2) 12, zfill := bit (f 0 2) 13, m := bits (f 0 2) 15 14 * 131072 + bits q 16 0, n := bits q 31 17,
    k := bits q 47 32, aH := f 8 4, bH := f 0xC 4, cH := f 0x10 4, aOff := f 0x14 4, bOff := f 0x18 4, cOff := f 0x1C 4 }

/-- Output rows, output columns and reduction length of an entry (Table 4-8). -/
def GEntry.dims (e : GEntry) (mode : Nat) : Nat × Nat × Nat :=
  if mode = 0 then (e.m, e.n, e.k) else if mode = 1 then (e.m, e.k, e.n) else (e.k, e.n, e.m)

/-- Does an entry do no work (R117)? -/
def GEntry.idle (e : GEntry) (mode : Nat) : Bool :=
  e.skip || decide (e.n = 0) || decide (e.k = 0) || (decide (e.m = 0) && !(decide (mode = 2) && e.zfill))

/-- Work units of an entry: its output tiles, row tile by row tile (R115, R116). -/
def GEntry.units (e : GEntry) (mode i : Nat) : List GUnit :=
  if e.idle mode then []
  else
    let s := e.dims mode
    (List.range (cdiv s.1 1024)).flatMap (fun r => (List.range (cdiv s.2.1 1024)).map (fun c => ⟨i, r, c⟩))

-- One unit.

/-- Element of operand A for output row `i` and reduction index `j`. -/
def GEntry.a (e : GEntry) (mode fa bsz : Nat) (rd : Rd) (i j : Nat) : Val :=
  if mode = 0 then elemAt rd fa bsz e.m e.k i j
  else if mode = 1 then elemAt rd fa bsz e.m e.n i j
  else elemAt rd fa bsz e.m e.k j i
/-- Element of operand B for output column `c` and reduction index `j`. -/
def GEntry.b (e : GEntry) (mode fb bsz : Nat) (rd : Rd) (c j : Nat) : Val :=
  if mode = 0 then elemAt rd fb bsz e.n e.k c j
  else if mode = 1 then elemAt rd fb bsz e.n e.k j c
  else elemAt rd fb bsz e.m e.n j c

/-- Byte ranges of elements j0 to j0 + nj - 1, with their scales, of lines i0 to i0 + ni - 1. -/
def lineRanges (code bsz lines k i0 ni j0 nj : Nat) : List (Nat × Nat) :=
  (List.range ni).flatMap (fun i =>
    [elemRange code ((i0 + i) * k + j0) nj, scaleRange code bsz lines k (i0 + i) j0 nj])

/-- Byte ranges of A that a unit of rows r0 to r0 + nr - 1 reads. -/
def GEntry.aRanges (e : GEntry) (mode fa bsz r0 nr : Nat) : List (Nat × Nat) :=
  if mode = 0 then lineRanges fa bsz e.m e.k r0 nr 0 e.k
  else if mode = 1 then lineRanges fa bsz e.m e.n r0 nr 0 e.n
  else lineRanges fa bsz e.m e.k 0 e.m r0 nr
/-- Byte ranges of B that a unit of columns c0 to c0 + nc - 1 reads. -/
def GEntry.bRanges (e : GEntry) (mode fb bsz c0 nc : Nat) : List (Nat × Nat) :=
  if mode = 0 then lineRanges fb bsz e.n e.k c0 nc 0 e.k
  else if mode = 1 then lineRanges fb bsz e.n e.k 0 e.n c0 nc
  else lineRanges fb bsz e.m e.n 0 e.m c0 nc

/-- The cause the reads of an operand fault with. -/
def rangesFault (d : Device) (p h off : Nat) (rs : List (Nat × Nat)) : Option Cause :=
  rs.findSome? (fun r => if r.2 = 0 then none else d.readFault p ⟨h, off * 64 + r.1, false⟩ r.2)

/-- Rows and columns of a unit, and its reduction length. -/
def Walk.dims (w : Walk) (u : GUnit) : Nat × Nat × Nat :=
  let s := (gEntry w.table u.entry).dims w.mode
  (min 1024 (s.1 - u.row * 1024), min 1024 (s.2.1 - u.col * 1024), s.2.2)
/-- Reduction elements of a pass of full depth, KCH 8 (R116). -/
def Walk.depth (w : Walk) : Nat := 8 * chunkOf w.fa
/-- Passes of a unit (R116). -/
def Walk.passes (w : Walk) (u : GUnit) : Nat := cdiv (w.dims u).2.2 w.depth
/-- Handles that a unit reads: A and B, none where there is nothing to reduce (R117). -/
def Walk.reads (w : Walk) (u : GUnit) : List Nat :=
  let e := gEntry w.table u.entry
  if (w.dims u).2.2 = 0 then [] else [e.aH, e.bH]

/-- Logical tiles of a mask. -/
def maskLts (m : Nat) : List Nat := (List.range 32).filter (bit m)
/-- Tiles of a walk's mask that are ready for another unit: they have none in progress, or one at its last pass (R116). -/
def Walk.ready (w : Walk) : List Nat :=
  (maskLts w.mask).filter (fun l => match w.prog.filter (fun u => decide (u.lt = l)) with
    | [] => true
    | [u] => decide (u.total ≤ u.passes + 1)
    | _ => false)
/-- Has a unit with passes to run that the device would deal to tile `l` next: the first ready tile takes the first unit left, the second the
second (R116)? -/
def Walk.awaits (w : Walk) (l : Nat) : Bool :=
  (w.ready.zip w.units).any (fun x => decide (x.1 = l) && decide (0 < w.passes x.2))

end Sys2Proof.Machine
end

