-- ==== Sys2Proof/Machine/Passes.lean ====
section
/-! DEFINITION. MMA (R81 to R84, R151, R152): opening a group, passes, window passes and closing, the weight store's flip
(R101 to R103), the end of a pass with its residue checks (R121) and overflow (R154, R163), and the array current
(R109, R110). -/
namespace Sys2Proof.Machine

-- MMA.OPEN.

/-- Footprint of a group in the partial-sum region (R106). -/
def footprint (m acc : Nat) : Nat := m * 1024 * accBytes acc
/-- Footprints of the groups open at issue. -/
def LTile.footprints (t : LTile) : Nat :=
  (t.ags.map (fun e => match e.2 with
    | none => 0
    | some (_, m, acc) => footprint m acc)).sum

/-- The open at the head of the arrays' queue executes: the group starts from zero or from the values at AI (R151). DESIGN CHOICE (log 148): a
recompute count above 3 in the trailer read is taken modulo 4. -/
def openGroup (p l id ag m acc : Nat) (init : Bool) (ai : Word) (d : Device) : Device :=
  let x := locOf ai
  match (if init then d.readFault p x (r84Bytes acc m) else none) with
  | some c => tileFault (endOp d p l id) p l c
  | none =>
    let d := if init then d.touch p l x (r84Bytes acc m) else d
    let bs := if init then d.readAt p l x (r84Bytes acc m) else []
    let o := m * 1024 * accBytes acc
    let g : Group := { oid := id, m := m, acc := acc, init := init, ai := ai, bias := toInt 32 (fld bs o 4), recomp := fld bs (o + 4) 1 % 4,
                       gauge := bit (fld bs (o + 5) 1) 0, sums := if init then initWords acc m bs else [] }
    let d := ((d.openRegion p l).modLt p l (fun t => t.setGroup ag (some g)))
    let d := endOp d p l id
    match d.boundLink p l ag with
    | none => d
    | some k => relayLoad d p l k.op

/-- Opens that stand behind nothing but passes begun execute at once, as soon as the stack at AI serves (R105, R346), in a work item that
is not stopped (R108). The first argument bounds them. -/
def drainArr (p l : Nat) : Nat → Device → Device
  | 0, d => d
  | n + 1, d =>
    let b := (d.lt p l).begun.length
    match (d.lt p l).arr.drop b with
    | .openG id ag m acc init ai :: rest =>
      let hs := if init then [(locOf ai).h] else []
      if (d.part p).stopping || hs.any (d.part p).updating then d
      else if d.reachAll p hs then
        drainArr p l n (openGroup p l id ag m acc init ai (d.modLt p l (fun t => { t with arr := t.arr.take b ++ rest })))
      else wakeAll d p hs 4
    | _ => d

/-- A drop check has the arrays of tile `t`, or the whole tile, out of service (Table 15-4). -/
def Device.arraysOut (d : Device) (t : Nat) : Bool := (d.tile t).paused || d.tileOut t
/-- The physical tile whose arrays a logical tile has: it runs there, the tile is ON, and neither it nor its arrays are
out of service (Table 15-4). -/
def Device.arraysOf (d : Device) (p l : Nat) : Option Nat :=
  match d.hostOf p l with
  | none => none
  | some t => if (d.tile t).run = l && d.domOn t && !d.arraysOut t then some t else none

/-- Does an operation of the arrays write the scratchpad at its end? -/
def ArrOp.writesPad : ArrOp → Bool
  | .close _ _ ad _ => decide ((locOf ad).h = 0)
  | _ => false
/-- The pass whose weights may be read next: the first in the queue behind those begun, with no close before it that still has to write the
scratchpad, for the arrays' accesses take effect in issue order (R68). -/
def LTile.nextPass (t : LTile) : Option Pass :=
  ((t.arr.drop t.begun.length).takeWhile (fun o => !o.writesPad)).findSome? (fun o => match o with
    | .pass q => some q
    | _ => none)
/-- The next pass is cast on into the shadow set as soon as that is free (R101). A wide pass needs both sets, and the pass
after one waits for its last broadcast, so these are cast on at the pass boundary (R102). -/
def castNext (p l : Nat) (d : Device) : Device :=
  let t := d.lt p l
  match t.nextPass, d.arraysOf p l with
  | some q, some _ =>
    if t.wsh.isSome || q.wide || t.begun.any (fun b => b.w.both) then d
    else
      let d := d.touch p l (locOf q.ab) (planeBytes q.fb q.bsz 1024 q.k)
      d.modLt p l (fun t => { t with wsh := some (d.castOn p l q) })
  | _, _ => d

/-- What the arrays' queue does by itself: opens execute, and the next pass is cast on. -/
def drain (p l : Nat) (d : Device) : Device := castNext p l (drainArr p l 64 d)

/-- An array operation joins its queue. -/
def pushArr (p l : Nat) (o : ArrOp) (d : Device) : Device := drain p l (d.modLt p l (fun t => { t with arr := t.arr ++ [o] }))

/-- Is the arrays' queue full (Table 3-3)? -/
def arrFull (t : LTile) (_ : Nat) : Bool := decide (64 ≤ t.arr.length)
/-- AG of an MMA word. -/
def agOf (w : Nat) : Nat := bits w 27 24

/-- MMA.OPEN -/
def opOpen : Op :=
  { cls := 3, opc := 0, used := [(47, 36), (35, 32), (29, 29), (28, 28), (27, 24)],
    legal := fun w => decide (1 ≤ bits w 47 36) && decide (bits w 47 36 ≤ 1024) && (bit w 29 || decide (bits w 35 32 = 0)),
    full := arrFull,
    check := fun d p l w =>
      let t := d.lt p l
      decide (tget none t.ags (agOf w) = none) && !((d.part p).compat && bit w 28) &&
      decide (t.footprints + footprint (bits w 47 36) (bits w 28 28) ≤ 2 ^ 24),
    skip := skipOne,
    act := unitAct (fun id p l w d =>
      let ai := (d.lt p l).areg (bits w 35 32)
      pushArr p l (.openG id (agOf w) (bits w 47 36) (bits w 28 28) (bit w 29) ai)
        (d.modLt p l (fun t => { t with ags := tset none t.ags (agOf w) (some (id, bits w 47 36, bits w 28 28)) }))) }
/-- MMA.OPEN opens a group. -/
def execMmaOpen (p : Fin 8) (l : Fin 32) (w : BitVec 128) (s : State) : Host.Outcome State Fault Refusal :=
  onDev (issue opOpen p l w) s

-- MMA.PASS and MMA.CONV.

/-- Groups of the pass record once every queued operation has run: the entries a further pass finds (R152). -/
def recordAhead (t : LTile) : List Nat :=
  t.arr.foldl (fun r o => match o with
    | .pass q => r ++ [q.ag]
    | .close _ ag _ _ => r.filter (· ≠ ag)
    | _ => r) (t.passes.map (·.ag))

/-- Checks at issue of a pass: its group open, COMPAT, operands in the scratchpad, room in the pass record. -/
def passCheck (conv : Bool) (d : Device) (p l w : Nat) : Bool :=
  let t := d.lt p l
  decide (tget none t.ags (agOf w) ≠ none) && (!(d.part p).compat || compatPass (bits w 39 36) (bits w 45 44)) &&
  t.isSpad (bits w 35 32) && (conv || t.isSpad (bits w 31 28)) && decide ((recordAhead t).length < 8192)

/-- A pass with the values read at issue. -/
def passOf (conv : Bool) (id : Nat) (t : LTile) (w : Nat) : Pass :=
  { id := id, ag := agOf w, fa := bits w 39 36, fb := bits w 43 40, bsz := bits w 45 44, kch := bits w 50 46,
    aa := if conv then 0 else t.areg (bits w 31 28), ab := t.areg (bits w 35 32),
    conv := if conv then some (bits w 30 28) else none, win := none, first := !t.arr.any ArrOp.runsPasses, cf := cfOf w }

/-- MMA.PASS (opcode 0x01) and MMA.CONV (0x02). -/
def opPass (conv : Bool) : Op :=
  { cls := 3, opc := if conv then 2 else 1, used := [(50, 32), (if conv then (30, 28) else (31, 28)), (27, 24), (22, 16)],
    legal := fun w => cfLegal w && pairLegal (bits w 39 36) (bits w 43 40) && kchLegal (bits w 39 36) (bits w 50 46) &&
      bszLegal (bits w 39 36) (bits w 45 44),
    full := arrFull, check := passCheck conv, skip := skipOne,
    act := unitAct (fun id p l w d => pushArr p l (.pass (passOf conv id (d.lt p l) w)) d) }
/-- MMA.PASS queues a pass. -/
def execMmaPass (p : Fin 8) (l : Fin 32) (w : BitVec 128) (s : State) : Host.Outcome State Fault Refusal :=
  onDev (issue (opPass false) p l w) s
/-- MMA.CONV queues a pass on a window stream. -/
def execMmaConv (p : Fin 8) (l : Fin 32) (w : BitVec 128) (s : State) : Host.Outcome State Fault Refusal :=
  onDev (issue (opPass true) p l w) s

/-- MMA.CLOSE -/
def opClose : Op :=
  { cls := 3, opc := 3, used := [(31, 28), (27, 24), (22, 16)], legal := cfLegal, full := arrFull,
    check := fun d p l w => decide (tget none (d.lt p l).ags (agOf w) ≠ none), skip := skipOne,
    act := unitAct (fun id p l w d =>
      let ad := (d.lt p l).areg (bits w 31 28)
      pushArr p l (.close id (agOf w) ad (cfOf w)) (d.modLt p l (fun t => { t with ags := tset none t.ags (agOf w) none }))) }
/-- MMA.CLOSE queues the writing of a group's result. -/
def execMmaClose (p : Fin 8) (l : Fin 32) (w : BitVec 128) (s : State) : Host.Outcome State Fault Refusal :=
  onDev (issue opClose p l w) s

-- WEIGHT_FLIP.

/-- A pass whose cast-on was not complete in time is counted (Table 4-11). Whether the scratchpad fed the front too
slowly is a matter of timing: a free value. -/
def countStall (d : Device) (t : Nat) (x : LTile) (q : Pass) : Device :=
  if q.first || q.wide || x.wide then d.inc (fStalls t)
  else ({ d with free := d.free + 1 } : Device).inc (fStalls t) (Config.freeNat d.free % 2)

/-- Tension cycles are counted by the thousand (Table 4-11). -/
def addTension (t n : Nat) (d : Device) : Device :=
  let c := (d.tile t).tcyc + n
  (d.modTile t (fun y => { y with tcyc := c % 1000 })).inc (fTension t) (c / 1000)
/-- Passes begin after a gap: the cycles since its last whole step of 64, in which the arrays ran tension ops, are a matter of
timing, a free value. -/
def endGap (t : Nat) (d : Device) : Device :=
  (addTension t (Config.freeNat d.free % 64) { d with free := d.free + 1 }).modTile t (fun y => { y with gap := 0, ramping := false })

/-- The next pass may begin but for the array current: it stands behind nothing but one pass begun, of another group (R105);
its group is open; a bound group holds its running sum (R162); a window pass has its armed engine, and a stack that serves it
(R111, R346). -/
def Device.passReady (d : Device) (p l : Nat) (q : Pass) : Bool :=
  let x := d.lt p l
  decide (x.begun.length ≤ 1) && x.begun.all (fun b => decide (b.q.ag ≠ q.ag)) && (x.group q.ag).isSome &&
  (match d.boundLink p l q.ag with
   | none => true
   | some k => k.ready && !k.halt) &&
  (match q.conv with
   | none => true
   | some e => match tget none x.armed e with
     | none => false
     | some w => !w.used && d.reachAll p [(locOf w.as).h] && !(d.part p).updating (locOf w.as).h)
/-- The pass at the head of a logical tile's arrays' queue, behind those begun. -/
def LTile.headPass (t : LTile) : Option Pass :=
  match t.arr.drop t.begun.length with
  | .pass q :: _ => some q
  | _ => none

/-- The pass begins: all cells flip, and a window stream is consumed by it (R101). The weights are those cast on into the
shadow set; a pass not cast on yet casts on here, at the pass boundary. -/
def beginPass (p l t : Nat) (q : Pass) (d : Device) : Device :=
  let x := d.lt p l
  let win := match q.conv with
    | none => none
    | some e => (tget none x.armed e).map (fun w => (w.as, w.ai))
  let cast := match x.wsh with
    | some w => decide (w.op = q.id)
    | none => false
  let d := if cast then d else d.touch p l (locOf q.ab) (planeBytes q.fb q.bsz 1024 q.k)
  let w := if cast then x.wsh.getD (d.castOn p l q) else d.castOn p l q
  let q' := { q with win := win }
  let n := x.begun.length
  let d := (countStall d t x q).modLt p l (fun x =>
    { x with begun := x.begun ++ [⟨q', w⟩], wact := some w, wsh := none, flips := x.flips + 1, wide := q.wide,
             arr := x.arr.take n ++ (ArrOp.pass q') :: x.arr.drop (n + 1),
             armed := match q.conv with
               | none => x.armed
               | some e => tput e ((tget none x.armed e).map (fun w => { w with used := true })) x.armed })
  drain p l (if n = 0 then endGap t d else d)

/-- FMT or BSZ of the descriptor differs from the MMA.CONV's: the MOVE.WIN faults (R113), and the pass has no stream. DESIGN CHOICE (log 146): the
MMA.CONV leaves the queue and posts nothing. -/
def convMismatch (p l e : Nat) (q : Pass) (d : Device) : Device :=
  let id := match (d.lt p l).queue e with
    | [] => 0
    | m :: _ => m.id
  let d := d.modLt p l (fun x => { (x.setQueue e ((x.queue e).drop 1)) with
    armed := tput e none x.armed, arr := x.arr.take x.begun.length ++ x.arr.drop (x.begun.length + 1), wsh := none })
  tileFault (endOp (endOp d p l id) p l q.id) p l .illegalInstr

/-- WEIGHT_FLIP: the next pass begins at full array current (R101, R110), in a work item that is not stopped (R108). -/
def weightFlip (p l : Nat) (d : Device) : Device :=
  let x := d.lt p l
  match x.headPass, d.arraysOf p l with
  | some q, some t =>
    if (d.part p).stopping || d.checkDue t then d
    else if !d.passReady p l q then (match q.conv with
      | none => d
      | some e => wakeAll d p (((tget none x.armed e).map (fun w => (locOf w.as).h)).toList) 4)
    else if (d.tile t).level ≠ 4 then d
    else match q.conv.bind (fun e => (tget none x.armed e).map (fun w => (e, d.winDesc p l w.ai))) with
      | none => beginPass p l t q d
      | some (e, b) => if fld b 1 1 = q.fa && fld b 2 1 = q.bsz then beginPass p l t q d else convMismatch p l e q d
  | _, _ => d
/-- WEIGHT_FLIP -/
def execWeightFlip (p : Fin 8) (l : Fin 32) (s : State) : Host.Outcome State Fault Refusal := onDev (weightFlip p l) s

-- ARRAY_PASS_DONE.

/-- A unit of a walk faults: the walk posts on no tile. -/
def failWalk (d : Device) (p wid : Nat) : Device :=
  d.modPart p (fun P => { P with walks := P.walks.map (fun w => if w.wid = wid then { w with failed := true } else w) })

/-- Record of a residue mismatch, or of a parity failure of the weight store, on tile `t` (R121, R367, Table 15-3); `gid`: the group id of a
grouped walk (R114). A failure that a replay or recast does not heal is the logical tile's own fault (R56). REPLAYS counts residues
only (Table 4-10). -/
def residueRec (d : Device) (p l t gid : Nat) (b : RowFind) : Device :=
  let r := mkRec 0 0x01 (if b.weight then 2 else 1) (t + 256 * b.array.val + 65536 * b.group.val)
  let r := { r with detail := b.row.toNat + 2 ^ 16 * gid }
  let d := if b.weight then d else d.inc (fReplays t)
  if b.failed then ueFault d p [l] r else errorCheck d (({ r with action := 1 } : ERec).inPart d p)
/-- Records of the mismatches of a pass, row by row. -/
def residueRecs (d : Device) (p l t gid : Nat) (bs : List RowFind) : Device := bs.foldl (fun d b => residueRec d p l t gid b) d
/-- Can the mismatches be: the array computes the row, of `m` (R95), and the column group is one in use (R120)? -/
def rowsFit (d : Device) (t m : Nat) (bs : List RowFind) : Bool :=
  bs.all (fun b => decide (b.row.toNat < m) && decide (b.row.toNat % 4 = b.array.val) && d.groupUsed t b.array.val b.group.val)
/-- Rows that stay unwritten: their replay disagreed too (R121). -/
def rowsLost (bs : List RowFind) : List Nat := (bs.filter (·.failed)).map (fun b => b.row.toNat)

/-- Does a pass wait for the array current alone: one of the arrays' queue, or of a unit that a walk would deal to the tile
(R110, R116)? None does once the work item is stopped (R108). -/
def Device.passWaits (d : Device) (p l : Nat) : Bool :=
  !(d.part p).stopping &&
  ((d.lt p l).headPass.any (d.passReady p l) ||
   (match (d.lt p l).arr with
    | .walk _ wid _ :: _ => (d.part p).walks.any (fun w => decide (w.wid = wid) && w.started && w.awaits l)
    | _ => false))

/-- A gap in the stream of passes begins, unless a pass is running or ready (R109). -/
def gapStart (d : Device) (p l : Nat) : Device :=
  if d.arraysBusy p l || d.passWaits p l then d
  else match d.hostOf p l with
    | none => d
    | some t => d.modTile t (fun y =>
        { y with gap := if y.release then 64 else 0, level := if y.release then 3 else 4, release := false })

/-- The results of a pass are written to its group: overflow recomputes the group, or restarts the cable it is bound to
(R154, R163); under a stop no group is recomputed (R155), and a cable stops at the epoch all the same. `ovf`: an overflow was found. -/
def passResult (p l : Nat) (q : Pass) (g : Group) (ovf : Bool) (d : Device) : Device :=
  let d := d.modLt p l (fun t => { t with passes := t.passes ++ [q] }.setGroup q.ag (some g))
  match d.boundLink p l q.ag with
  | none =>
    if !ovf || (d.part p).stopping then d
    else
      let r := d.recompute p l ((d.lt p l).record q.ag) 4 g
      let d := tileCount (d.modLt p l (fun t => t.setGroup q.ag (some r.1))) p l fRecomputes r.2.1
      if r.2.2 then setFlag d p l q.id else d
  | some k =>
    let o := if ovf then linkOverflow d p k else (d, true)
    let d := if ovf && o.2 then o.1.modLt p l (fun t => t.setGroup q.ag (some { g with gauge := true })) else o.1
    if o.2 then relayDone d p l k.op else resettleVoid p k d

/-- The oldest pass begun of a logical tile is over; the queue goes on. -/
def leavePass (p l : Nat) (d : Device) : Device :=
  drain p l (gapStart (d.modLt p l (fun t => { t with arr := t.arr.drop 1, begun := t.begun.drop 1 })) p l)

/-- Did the link that binds a group leave its epoch while the pass ran, or stop at it? Its results are discarded, and the
pass is repeated with the others recorded (R167). -/
def Device.passStale (d : Device) (p l ag : Nat) : Bool :=
  match d.boundLink p l ag with
  | none => false
  | some k => !k.ready || k.halt

/-- The results of a pass (R105): operand faults, residue checks, sums, completion. DESIGN CHOICE (log 114): a pass that
leaves a row unwritten posts its counter like any other, and no overflow is found in that row. A pass whose scratchpad or group state has
an error that cannot be corrected ends without a post, as one that meets an operand fault. -/
def passRun (p l t : Nat) (b : Begun) (g : Group) (x : PassEnd) (d : Device) : Device :=
  let bad := x.rows
  let d := tileFound d p l 0 (findMet none x.found)
  let q := b.q
  let full := match d.boundLink p l q.ag with
    | none => false
    | some k => decide (k.npass ≤ ((d.lt p l).record q.ag).length)
  if findUe (findMet none x.found) then endOp (leavePass p l (residueRecs d p l t 0 bad)) p l q.id
  else match (if full then some Cause.illegalInstr else d.passFault p l g.m q) with
  | some c => tileFault (endOp (leavePass p l d) p l q.id) p l c
  | none =>
    let w := d.winSpan p l g.m q
    let d := match q.win with
      | none => d.touch p l (locOf q.aa) (planeBytes q.fa q.bsz g.m q.k)
      | some (as, ai) => (d.touch p l ((locOf as).plus w.1) w.2).touch p l (locOf ai) 64
    let g := ((d.lt p l).group q.ag).getD g
    let d := residueRecs d p l t 0 bad
    let r := d.passSums p l g q b.w.reader (rowsLost bad)
    let d := if d.passStale p l q.ag then d.modLt p l (fun t => { t with passes := t.passes ++ [q] })
      else passResult p l q { g with sums := r.1 } (r.2 && (rowsLost bad).isEmpty) d
    leavePass p l (complete d p l q.id q.cf)

/-- The initial values that an overflow of the group would read again are behind a stack that serves. -/
def Group.initHandles (g : Group) : List Nat := if g.init then [(locOf g.ai).h] else []

/-- Handles that a pass reads behind its window stream. -/
def Pass.winHandles (q : Pass) : List Nat := (q.win.map (fun w => (locOf w.1).h)).toList
/-- The oldest pass begun writes its results. DESIGN CHOICE (log 158): what the INIT read of its group's MMA.OPEN meets is reported with a pass of
the group, not with the open. -/
def passWrite (p l : Nat) (e : PassEnd) (d : Device) : Device :=
  let x := d.lt p l
  match x.begun, d.hostOf p l with
  | b :: _, some t =>
    match x.group b.q.ag with
    | none => d
    | some g =>
      if rowsFit d t g.m e.rows then
        whenReached d p g.initHandles 4 (fun d => passRun p l t b g e (metWord p l (b.q.winHandles ++ g.initHandles) e.bad d))
      else d
  | _, _ => d

/-- What a walk's unit is to its passes: its group id, its rows, the handles it reads. -/
structure UnitInfo where
  gid : Nat
  rows : Nat
  reads : List Nat
  deriving DecidableEq, Repr

/-- A pass of a unit in progress is counted, with the rows it left unwritten. -/
def countPass (p wid : Nat) (v : UProg) (lost : List Nat) (d : Device) : Device :=
  d.modPart p (fun P => { P with walks := P.walks.map (fun w => if w.wid = wid then
    { w with prog := replaceFirst (fun u => decide (u = v)) (fun u =>
      { u with passes := u.passes + 1, skips := u.skips ++ lost.map (fun r => (u.passes, r)) }) w.prog } else w) })

/-- A pass of the unit that a grouped walk runs on the tile is checked: the rows that stay unwritten are kept with the unit, and
the records carry the entry's group id (R114, R121). After the tile's last pass a gap begins (R109); before another the arrays pause for a
drop check that waits (R121). -/
def unitPass (p l t : Nat) (i : UnitInfo) (w : Walk) (v : UProg) (e : PassEnd) (d : Device) : Device :=
  if !rowsFit d t i.rows e.rows || ((d.tile t).held && (d.arraysOut t || d.checkDue t)) then d
  else
    let d := tileFound (metWord p l i.reads e.bad d) p l 0 (findMet none e.found)
    let d := if findUe (findMet none e.found) then failWalk d p w.wid else d
    let d := countPass p w.wid v (rowsLost e.rows) (residueRecs d p l t i.gid e.rows)
    let d := gapStart (d.modLt p l (fun x => { x with wide := false })) p l
    if d.unitRuns p l then d.modTile t (fun y => { y with held := d.checkDue t }) else d

/-- ARRAY_PASS_DONE, in a tile that is in service: the oldest pass begun writes its results, or a pass ends of the oldest unit in progress
that has one to run. `unit`: what a unit is. -/
def passDone (unit : Walk → UProg → UnitInfo) (p l : Nat) (e : PassEnd) (d : Device) : Device :=
  if (d.hostOf p l).any d.tileOut then d
  else match (d.part p).walks.findSome? (fun w => (w.prog.find? (fun u => decide (u.lt = l) && u.runs)).map (fun u => (w, u))),
      d.hostOf p l with
  | some (w, u), some t => unitPass p l t (unit w u) w u e d
  | _, _ => passWrite p l e d

-- MMA_CLOSE_DONE.

/-- A group closes: its record entries are freed (R152). -/
def freeGroup (p l ag : Nat) (d : Device) : Device :=
  d.modLt p l (fun t => { (t.setGroup ag none) with passes := t.passes.filter (fun q => decide (q.ag ≠ ag)) })

/-- The group's result and trailer are written at AD (R84). An AD in the partial-sum region addresses it while the group is still open
(R106). -/
def closeFinish (p l id ag : Nat) (ad : Word) (cf : CF) (g : Group) (d : Device) : Device :=
  let x := locOf ad
  let n := r84Bytes g.acc g.m
  let d := d.modLt p l (fun t => { t with arr := t.arr.drop 1 })
  match d.writeFault p x n with
  | some c => drain p l (tileFault (endOp (freeGroup p l ag d) p l id) p l c)
  | none =>
    let d := d.touch p l x n
    let g := ((d.lt p l).group ag).getD g
    let d := (d.writeAt p l x (g.bytes ++ trailer g.bias g.recomp g.gauge)).touch p l x n
    let d := freeGroup p l ag d
    let d := if g.gauge then setFlag d p l id else d
    drain p l (complete d p l id cf)

/-- MMA_CLOSE_DONE: the close at the head of the queue ends once no link binds its group (R162, step 5), in a work item that is
not stopped (R108) and a tile that is in service (R371). -/
def closeDone (p l : Nat) (d : Device) : Device :=
  let x := d.lt p l
  match (if (d.part p).stopping || (d.hostOf p l).any d.tileOut then [] else x.arr) with
  | .close id ag ad cf :: _ =>
    match x.group ag, d.boundLink p l ag with
    | some g, none =>
      let h := (locOf ad).h
      match d.foreignStack p h with
      | some y => selvedgeCrossing (endOp (freeGroup p l ag (d.modLt p l (fun t => { t with arr := t.arr.drop 1 }))) p l id) p y
      | none => whenReached d p [h] 4 (closeFinish p l id ag ad cf g)
    | _, _ => d
  | _ => d
/-- MMA_CLOSE_DONE -/
def execMmaCloseDone (p : Fin 8) (l : Fin 32) (s : State) : Host.Outcome State Fault Refusal := onDev (closeDone p l) s

-- Array current (R109, R110).

/-- One step of the array current: up while a ready pass waits or a RAMP runs, kept under HOLD, down otherwise. -/
def levelStep (waits : Bool) (y : PTile) : PTile :=
  if (waits || y.ramping || decide (0 < y.holdCyc)) && decide (y.level < 4) then
    { y with level := y.level + 1, ramping := y.ramping && decide (y.level + 1 < 4),
             gap := if y.level + 1 = 4 then 0 else (4 - (y.level + 1)) * 64 }
  else if waits || decide (0 < y.holdCyc) then y
  else
    let g := min (y.gap + 64) 256
    { y with gap := g, level := 4 - g / 64 }

/-- Records of the mismatches of tension ops: a CE and a drop check, no result changed (R121). -/
def tensionRecs (d : Device) (p t : Nat) (bs : List TensionFind) : Device :=
  (bs.filter (fun b => d.groupUsed t b.array.val b.group.val)).foldl (fun d b =>
    errorCheck d ((mkRec 0 0x01 1 (t + 256 * b.array.val + 65536 * b.group.val)).inPart d p)) d

/-- TENSION_LEVEL_STEP: the arrays of the tile that runs the logical tile, with no pass in progress. DESIGN CHOICE (log 22):
one step is 64 tile cycles of tension ops. -/
def tensionStep (p l : Nat) (bad : List TensionFind) (d : Device) : Device :=
  match d.hostOf p l with
  | none => d
  | some t =>
    if (d.tile t).run ≠ l || !d.domOn t || d.arraysOut t || d.arraysBusy p l then d
    else
      let d := if (d.tile t).level = 0 then d else tensionRecs (addTension t 64 d) p t bad
      d.modTile t (levelStep (d.passWaits p l))
/-- TENSION_LEVEL_STEP -/
def execTensionLevelStep (p : Fin 8) (x : TensionOps) (s : State) : Host.Outcome State Fault Refusal :=
  onDev (tensionStep p x.lt x.bad) s

/-- TENSION_HOLD_END: the cycles of a HOLD have run out. -/
def execTensionHoldEnd (p : Fin 8) (l : Fin 32) (s : State) : Host.Outcome State Fault Refusal :=
  onDev (fun d => onHost d p l (fun y => { y with holdCyc := 0 })) s

end Sys2Proof.Machine
end

