-- ==== Sys2Proof/Machine/Walk.lean ====
section
/-! DEFINITION. Grouped passes (R85, R114 to R119): joining a walk, its table, dealing its work units, and what a unit computes and writes. -/
namespace Sys2Proof.Machine

/-- What a unit in progress is to its passes. -/
def Walk.unitOf (w : Walk) (u : UProg) : UnitInfo :=
  ⟨(gEntry w.table u.u.entry).gid, (w.dims u.u).1, (locOf w.at_).h :: w.reads u.u⟩

/-- Sums of a unit of nr rows and nc columns at a bias, value i * nc + c at that index, and whether one overflowed; passes of
`depth` elements left the rows of `skips` unwritten. -/
def unitSums (code : Nat) (bias : Int) (nr nc red depth : Nat) (skips : List (Nat × Nat)) (A B : Nat → Nat → Val) : Tab Word × Bool :=
  (List.range (nr * nc)).foldl (fun r i =>
    let js := (List.range red).filter (fun j => !skips.contains (j / depth, i / nc))
    let a := accPairs code bias ⟨vzero, false, false⟩ (js.map (fun j => (A (i / nc) j, B (i % nc) j)))
    (tset 0 r.1 i (BitVec.ofNat 64 (encodeFmt code a.v)), r.2 || a.ovf)) ([], false)

/-- A unit with its recomputes (R154, R155): sums, bias, recompute count, gauge bit. -/
def unitRun (code nr nc red depth : Nat) (skips : List (Nat × Nat)) (A B : Nat → Nat → Val) :
    Nat → Int → Nat → Tab Word × Int × Nat × Bool
  | 0, bias, n => ((unitSums code bias nr nc red depth skips A B).1, bias, n, true)
  | k + 1, bias, n =>
    let r := unitSums code bias nr nc red depth skips A B
    if r.2 then (if 3 ≤ n then (r.1, bias, n, true) else unitRun code nr nc red depth skips A B k (bias - 16) (n + 1))
    else (r.1, bias, n, false)

/-- What a unit writes of C: its lines, then its trailer (R115). -/
def unitWrites (e : GEntry) (mode acc : Nat) (u : GUnit) (nr nc : Nat) (r : Tab Word × Int × Nat × Bool) :
    List (Loc × List Byte) :=
  let w := accBytes acc
  let s := e.dims mode
  let at_ (k : Nat) : Loc := ⟨e.cH, e.cOff * 64 + k, false⟩
  let val (i c : Nat) : List Byte := toLe w (tget 0 r.1 (i * nc + c)).toNat
  let lines := if mode = 2 then
      (List.range nc).map (fun c => (at_ (((u.col * 1024 + c) * s.1 + u.row * 1024) * w), (List.range nr).flatMap (fun i => val i c)))
    else (List.range nr).map (fun i => (at_ (((u.row * 1024 + i) * s.2.1 + u.col * 1024) * w), (List.range nc).flatMap (val i)))
  lines ++ [(at_ (ceil64 (s.1 * s.2.1 * w) + 64 * (u.row * cdiv s.2.1 1024 + u.col)), trailer r.2.1 r.2.2.1 r.2.2.2)]

/-- A unit's sums once an instruction has addressed the partial-sum region meanwhile: free values (R106). -/
def spoilt (n : Nat) (d : Device) : Tab Word × Device :=
  ((List.range n).foldl (fun t i => tset 0 t i (Config.freeWord (d.free + i))) [], { d with free := d.free + n })

/-- A work unit on logical tile `l`, operation `id`, is written (R116, R119). -/
def runUnit (id : Nat) (w : Walk) (x : UProg) (p : Nat) (d : Device) : Device :=
  let u := x.u
  let l := x.lt
  let e := gEntry w.table u.entry
  let s := w.dims u
  let nr := s.1
  let nc := s.2.1
  let f := if s.2.2 = 0 then none else
    match rangesFault d p e.aH e.aOff (e.aRanges w.mode w.fa w.bsz (u.row * 1024) nr) with
    | some c => some c
    | none => rangesFault d p e.bH e.bOff (e.bRanges w.mode w.fb w.bsz (u.col * 1024) nc)
  match f with
  | some c => tileFault (failWalk d p w.wid) p l c
  | none =>
    let r := unitRun (accCode w.acc) nr nc s.2.2 w.depth x.skips
      (fun i j => e.a w.mode w.fa w.bsz (d.reader p l ⟨e.aH, e.aOff * 64, false⟩) (u.row * 1024 + i) j)
      (fun c j => e.b w.mode w.fb w.bsz (d.reader p l ⟨e.bH, e.bOff * 64, false⟩) (u.col * 1024 + c) j) 4 0 0
    let d := tileCount d p l fRecomputes r.2.2.1
    let d := if r.2.2.2 then setFlag d p l id else d
    let y := if x.spoiled then spoilt (nr * nc) d else (r.1, d)
    let z := writeParts p l (unitWrites e w.mode w.acc u nr nc (y.1, r.2)) y.2
    match z.2 with
    | some c => tileFault (failWalk z.1 p w.wid) p l c
    | none => z.1

-- The walk.

/-- A walk of the partition. -/
def Part.walk (P : Part) (wid : Nat) : Option Walk := P.walks.find? (fun w => decide (w.wid = wid))
/-- Change a walk. -/
def modWalk (d : Device) (p wid : Nat) (f : Walk → Walk) : Device :=
  d.modPart p (fun P => { P with walks := P.walks.map (fun w => if w.wid = wid then f w else w) })
/-- The walk operation at the head of a logical tile's arrays. -/
def LTile.walkHead (t : LTile) : Option (Nat × Nat × CF) :=
  match t.arr with
  | .walk id wid cf :: _ => some (id, wid, cf)
  | _ => none
/-- Is an operation of the arrays' queue part of walk `wid`? -/
def ArrOp.ofWalk (wid : Nat) : ArrOp → Bool
  | .walk _ v _ => decide (v = wid)
  | _ => false

/-- A walk faults on every tile of its mask; no entry runs (R85, R119). -/
def walkFault (d : Device) (p : Nat) (w : Walk) (c : Cause) : Device :=
  let d := (maskLts w.mask).foldl (fun d l => tileFault (d.modLt p l (fun t =>
    { t with arr := t.arr.filter (fun o => !o.ofWalk w.wid) })) p l c) d
  d.modPart p (fun P => { P with walks := P.walks.filter (fun v => decide (v.wid ≠ w.wid)) })

/-- Do a walk's fields agree with what another tile issues (R85)? -/
def Walk.matches (w v : Walk) : Bool :=
  decide (w.at_ = v.at_) && decide (w.cnt = v.cnt) && decide (w.fa = v.fa) && decide (w.fb = v.fb) && decide (w.bsz = v.bsz) &&
  decide (w.acc = v.acc) && decide (w.mode = v.mode)

/-- A walk as a word and its registers give it. -/
def walkOf (t : LTile) (wid l w : Nat) : Walk :=
  { wid := wid, mask := (t.sreg (bits w 39 34)).toNat, at_ := t.areg (bits w 27 24), cnt := (t.sreg (bits w 33 28)).toNat,
    fa := bits w 43 40, fb := bits w 47 44, bsz := bits w 49 48, acc := bits w 50 50, mode := bits w 52 51, joined := [l],
    started := false, table := [], units := [], prog := [], done := [], failed := false }

/-- A logical tile enters its walk operation; one with 0 entries completes at once. -/
def enterWalk (p l id wid cnt : Nat) (cf : CF) (d : Device) : Device :=
  if cnt = 0 then complete (modWalk d p wid (fun w => { w with done := l :: w.done })) p l id cf
  else pushArr p l (.walk id wid cf) d

/-- GRP.WALK: walks are matched by the order in which each tile issues walks with the mask. -/
def walkAct (id p l w : Nat) (d : Device) : Device :=
  let v := walkOf (d.lt p l) (d.part p).walkNo l w
  match (d.part p).walks.find? (fun x => decide (x.mask = v.mask) && !x.joined.contains l) with
  | none =>
    enterWalk p l id v.wid v.cnt (cfOf w) (d.modPart p (fun P => { P with walkNo := P.walkNo + 1, walks := P.walks ++ [v] }))
  | some x =>
    if !x.matches v then walkFault d p x .illegalInstr
    else
      let d := enterWalk p l id x.wid x.cnt (cfOf w) (modWalk d p x.wid (fun y => { y with joined := y.joined ++ [l] }))
      d.modPart p (fun P => { P with walks := P.walks.filter (fun y => !(decide (y.cnt = 0) && decide (y.joined.length = (maskLts y.mask).length))) })

/-- Checks at issue of GRP.WALK (R85). -/
def walkCheck (d : Device) (p l w : Nat) : Bool :=
  let t := d.lt p l
  let m := (t.sreg (bits w 39 34)).toNat
  decide ((t.sreg (bits w 33 28)).toNat ≤ 4096) && decide (m < 2 ^ (d.part p).ltCount) && bit m l &&
  t.ags.all (fun e => e.2.isNone) &&
  (!(d.part p).compat || (!bit w 50 && compatPass (bits w 43 40) (bits w 49 48)))

/-- GRP.WALK -/
def opWalk : Op :=
  { cls := 4, opc := 0, used := [(52, 24), (22, 16)],
    legal := fun w => cfLegal w && decide (bits w 52 51 ≤ 2) && pairLegal (bits w 43 40) (bits w 47 44) &&
      bszLegal (bits w 43 40) (bits w 49 48),
    regs := fun w => [.s (bits w 39 34), .s (bits w 33 28)], full := arrFull, check := walkCheck, skip := skipOne,
    act := unitAct walkAct }
/-- GRP.WALK joins a grouped walk. -/
def execGrpWalk (p : Fin 8) (l : Fin 32) (w : BitVec 128) (s : State) : Host.Outcome State Fault Refusal :=
  onDev (issue opWalk p l w) s

/-- The walk starts: its table is fetched and checked (R119). -/
def startWalk (p : Nat) (w : Walk) (d : Device) : Device :=
  let x := locOf w.at_
  let l0 := (maskLts w.mask).headD 0
  match d.readFault p x (32 * w.cnt) with
  | some c => walkFault d p w c
  | none =>
    let d := d.touch p l0 x (32 * w.cnt)
    let b := d.readAt p l0 x (32 * w.cnt)
    let es := (List.range w.cnt).map (gEntry b)
    if es.any (fun e => decide (e.aH = 0) || decide (e.bH = 0) || decide (e.cH = 0)) then walkFault d p w .illegalInstr
    else
      let us := es.zipIdx.flatMap (fun e => e.1.units w.mode e.2)
      (maskLts w.mask).foldl (fun d l => d.openRegion p l) (modWalk d p w.wid (fun w => { w with started := true, table := b, units := us }))

/-- Passes of a unit dealt to tile `t` whose cast-on was not complete in time (Table 4-11): the first when the arrays were
empty; whether the scratchpad fed the others too slowly is a matter of timing, a free value. -/
def unitStalls (p l t : Nat) (n : Nat) (d : Device) : Device :=
  let f := if d.arraysBusy p l then 0 else 1
  ({ d with free := d.free + 1 } : Device).inc (fStalls t) (min n f + Config.freeNat d.free % (n - f + 1))

/-- The operation of logical tile `l` that runs a walk. -/
def Device.walkOp (d : Device) (p l : Nat) : Nat := (((d.lt p l).walkHead).map (·.1)).getD 0

/-- The next unit goes to the tile, at full array current (R110); of two units it has in progress the older is written first
(R116). -/
def dealUnit (p l t : Nat) (w : Walk) (d : Device) : Device :=
  match w.units with
  | [] => d
  | u :: us =>
    if (d.part p).stopping || d.checkDue t || (d.tile t).level ≠ 4 then d
    else
      let mine := w.prog.filter (fun x => decide (x.lt = l))
      let deal (d : Device) : Device :=
        let d := unitStalls p l t (w.passes u) d
        let d := if d.arraysBusy p l then d else endGap t d
        modWalk d p w.wid (fun w => { w with units := us, prog := w.prog ++ [⟨l, u, w.passes u, 0, [], false⟩] })
      match mine with
      | a :: _ :: _ => whenRead d p (w.reads a.u) [(gEntry w.table a.u.entry).cH] 4 (fun d =>
          deal (modWalk (runUnit (d.walkOp p l) w a p d) p w.wid (fun w => { w with prog := dropFirst (fun x => decide (x.lt = l)) w.prog })))
      | _ => deal d

/-- Is the walk at the head of the arrays' queue of every tile of its mask (R85)? -/
def Device.walkMet (d : Device) (p : Nat) (w : Walk) : Bool :=
  (maskLts w.mask).all (fun m => decide (((d.lt p m).walkHead).map (·.2.1) = some w.wid))

/-- GRP_UNIT_DEAL: a walk starts once every tile of its mask has it at the head of its arrays, and its units are dealt. -/
def unitDeal (p l : Nat) (d : Device) : Device :=
  match (d.lt p l).walkHead, d.arraysOf p l with
  | some (_, wid, _), some t =>
    match (d.part p).walk wid with
    | none => d
    | some w =>
      if w.started then dealUnit p l t w d
      else if d.walkMet p w && !(d.part p).stopping then
        whenRead d p [(locOf w.at_).h] [] 4 (fun d =>
          let d := startWalk p w d
          match (d.part p).walk wid with
          | none => d
          | some w => dealUnit p l t w d)
      else d
  | _, _ => d
/-- GRP_UNIT_DEAL -/
def execGrpUnitDeal (p : Fin 8) (l : Fin 32) (s : State) : Host.Outcome State Fault Refusal := onDev (unitDeal p l) s

/-- Every unit in progress is written. -/
def finishUnits (p : Nat) (w : Walk) (d : Device) : Device :=
  modWalk (w.prog.foldl (fun d x => runUnit (d.walkOp p x.lt) w x p d) d) p w.wid (fun w => { w with prog := [] })

/-- A logical tile's part of a walk is over: it posts unless a unit faulted, and the arrays go on (R85); the gap that follows begins now
for a tile that ran passes to the end (`busy`). -/
def leaveWalk (p wid : Nat) (busy : List Nat) (d : Device) (m : Nat) : Device :=
  let bad := ((d.part p).walk wid).any (·.failed)
  match (d.lt p m).walkHead with
  | some (id, v, cf) =>
    if v = wid then
      let d := complete (d.modLt p m (fun t => { t with arr := t.arr.drop 1 })) p m id (if bad then none else cf)
      drain p m (if busy.contains m then gapStart d p m else d)
    else d
  | none => d

/-- The walk's units in progress are written, and it completes on each tile (R85). -/
def walkFinish (p : Nat) (w : Walk) (d : Device) : Device :=
  let busy := (maskLts w.mask).filter (d.arraysBusy p)
  let d := (w.prog.filter (fun u => decide (0 < u.total))).foldl (fun d u => d.modLt p u.lt (fun t => { t with wide := false })) d
  let d := (maskLts w.mask).foldl (leaveWalk p w.wid busy) (finishUnits p w d)
  let d := d.modPart p (fun P => { P with walks := P.walks.filter (fun v => decide (v.wid ≠ w.wid)) })
  (maskLts w.mask).foldl (fun d m => armEngine (armEngine d p m 6) p m 7) d

/-- GRP_WALK_DONE: with every unit dealt, what is in progress is written and each tile's walk completes and posts, in a work
item that is not stopped (R108); the arrays of no tile are out of service (R121, R371). -/
def walkDone (p l : Nat) (d : Device) : Device :=
  match (d.lt p l).walkHead with
  | none => d
  | some (_, wid, _) =>
    match (d.part p).walk wid with
    | none => d
    | some w =>
      if !w.started || !w.units.isEmpty || (d.part p).stopping ||
          (maskLts w.mask).any (fun m => (d.hostOf p m).any d.arraysOut) then d
      else whenRead d p (w.prog.flatMap (fun x => w.reads x.u)) (w.prog.map (fun x => (gEntry w.table x.u.entry).cH)) 4 (walkFinish p w)
/-- GRP_WALK_DONE -/
def execGrpWalkDone (p : Fin 8) (l : Fin 32) (s : State) : Host.Outcome State Fault Refusal := onDev (walkDone p l) s

-- ARRAY_PASS_DONE.

/-- ARRAY_PASS_DONE: the oldest pass begun ends, of the arrays' queue or of a unit that a walk runs. -/
def execArrayPassDone (p : Fin 8) (l : Fin 32) (x : PassEnd) (s : State) : Host.Outcome State Fault Refusal :=
  onDev (passDone Walk.unitOf p l x) s

end Sys2Proof.Machine
end

