-- ==== Sys2Proof/Machine/Seam.lean ====
section
/-! DEFINITION. The life of a work item on the tiles: its start (R33, R45, R347), the stop of a logical tile (R55, R56, R108,
R195), slot grants (R236, R237), the seam and its work (R22, R226), and the next step. -/
namespace Sys2Proof.Machine

-- From step to step.

/-- Step of a message that waits. -/
def Early.step : Early → Nat
  | .seg m _ => m.step.toNat
  | .restart m => m.step.toNat
  | .rows m _ => m.step.toNat
  | .head m _ => m.step.toNat
  | .void m => m.step.toNat
/-- Device whose VOID waits, for step n. -/
def Early.voidOf (n : Nat) : Early → Option Nat
  | .void m => if m.step.toNat = n then some m.src.toNat else none
  | _ => none

/-- Sums of a step that need no further answer once it is over: those discarded without a descriptor, and those written (R206). -/
def Part.sumsOver (P : Part) : List (Nat × Nat) :=
  P.gone ++ (P.descs.filter (fun x => x.landed && !x.isRes && decide (x.cable ≠ 0xFFFF))).map (fun x => (x.cable, P.step))
/-- Is a gauge flag of before carried into the contribution to come (R91): one carried out of the step that is over, or one that was to go
with a contribution that never left? -/
def Part.takesFlag (P : Part) : Bool := P.carry || (P.carried && !P.contrib)
/-- The partition turns to step `n`: nothing of the step before is left but its updates; messages held for `n` count,
flags carried over are set, unreachable devices stay lost (R91, R210, R304), and a cause recorded since the seam stops the step (R55). -/
def turnTo (d : Device) (p n : Nat) : Device :=
  let P := d.part p
  let lost := P.fataled.filter (fun v => d.isUnreach p v)
  let d := d.modPart p (fun P =>
   { P with
    step := n, result := none, contrib := false, stopping := decide (P.cause ≠ .none), voidSent := false, flag := false, carried := P.takesFlag, carry := false, descs := [],
    links := [], formed := [], gone := P.sumsOver, exchs := [], visitedNow := [], parked := P.parked.filter (·.due), written := [], fataled := lost, voids := lost,
    gauges := P.gauges.filter (fun m => decide (n ≤ m.step.toNat)),
    early := P.early.filter (fun e => decide (n ≤ e.step) && (e.voidOf n).isNone) })
  let d := P.lts.foldl (fun d l => d.modLt p l (fun t => { t with gaugePart := none, gaugeFlag := false })) d
  let d := P.visitedNow.foldl (fun d v => d.wr (fVisited v) 0) d
  (P.early.filterMap (fun e => e.voidOf n)).foldl (fun d v => voidFrom d p v) d

-- WORK_ITEM_START (R33, R45, R347).

/-- A logical tile at the start of a work item (Table 2-11a); `pc` is its entry offset. -/
def LTile.start (P : Part) (w : WorkItem) (l pc : Nat) : LTile :=
  let s := [l, P.ltCount, P.devId, P.devCount, w.startStep, w.stepCount, P.mbPerStep, P.slots, P.seed, fld P.desc 0x16 2]
  let a := (List.range 8).map (fun i => fld P.desc (0x40 + 4 * i) 4) ++ [P.mapH]
  { LTile.reset with
    pc := pc, s := s.zipIdx.foldl (fun t x => tset 0 t x.2 (BitVec.ofNat 64 x.1)) [],
    a := a.zipIdx.foldl (fun t x => tset 0 t x.2 (BitVec.ofNat 64 (x.1 * 2 ^ 32))) [] }
/-- Logical tile `l` begins with a clear scratchpad at its entry offset (R34, R45). -/
def startLt (p : Nat) (w : WorkItem) (d : Device) (l : Nat) : Device :=
  let P := d.part p
  ({ d with spad := mclear d.spad (spKey p l 0) spadSize } : Device).setLt p l (LTile.start P w l (fld (d.hRead p P.prog (8 * l) 8) 0 8))
/-- A physical tile runs one of its logical tiles as a work item starts; TILE_RUN names the item. DESIGN CHOICE (log 144): of two it runs the
lower one first (R43). -/
def startTile (id : Nat) (d : Device) (t : Nat) : Device :=
  ((d.modTile t (fun x => { x with run := x.hosted.headD 0, switching := false })).wr (fRunWi t) id).wr (fSwitches t) 0

/-- The work item at the head of the queue runs; sums of its steps are counted anew when it runs a step again (R206). DESIGN CHOICE (log 149):
SLOT_SCHED.LAST reads 0 from a start until the item's first grant. -/
def startItem (p : Nat) (w : WorkItem) (d : Device) : Device :=
  let d := if (d.part p).step = w.startStep then d else turnTo d p w.startStep
  let d := d.modPart p (fun P =>
   { P with
    wis := replaceFirst (fun v => decide (v.id = w.id)) (fun v => { v with state := .running }) P.wis, tornStep := none, yieldAt := [],
    gone := P.gone.filter (fun k => decide (k.2 < w.startStep)),
    lastGrant := none, stalled := false, walks := [], woke := false })
  let d := dropHeld d p
  let d := (((setPool d p []).wr (fGrants p) 0).wr (fLastSlot p) 0)
  let d := (d.part p).lts.foldl (startLt p w) d
  (d.usableTiles p).foldl (startTile w.id) d

/-- Is a domain in RET or OFF, or on its way there with neither a wake nor a refuser recorded, so that a wake counts? -/
def Device.sleeps (d : Device) (n : Nat) : Bool :=
  !d.domOn n && decide (d.rd (fDomStep n) ≠ 6) && (d.dom n).wake.isNone && (d.dom n).refuse.isNone
/-- PWR_LAUNCH_WAKE names the work item and counts the tiles and stacks it woke (Table 13-12); wakes of one launch add up while it is about
to start. -/
def launchWake (d : Device) (p id nt nx : Nat) : Device :=
  if nt + nx = 0 then d
  else
    let old := (d.reg 0x20018).toNat
    let same := (d.part p).woke && decide (bits old 63 32 = id) && decide (bits old 31 29 = p)
    let count (hi lo n : Nat) : Nat := min 255 ((if same then bits old hi lo else 0) + n)
    (d.modPart p (fun P => { P with woke := true })).wr fLaunchWake (id * 2 ^ 32 + p * 2 ^ 29 + count 23 16 nt * 2 ^ 16 + count 15 8 nx * 2 ^ 8)

/-- WORK_ITEM_START: after the seam work of the item before, with no swap pending, every tile ON and the program readable; tiles and
stacks that are not ON are woken. Logical tiles that cannot be hosted end the item. -/
def itemStart (p : Nat) (d : Device) : Device :=
  let P := d.part p
  match P.wis with
  | [] => d
  | w :: _ =>
    if w.state ≠ .queued || P.seam ≠ .none || d.rd fCfgState = 1 || d.rd fMode ≠ 2 then d
    else if !d.canHost p then
      let d := d.modPart p (fun P => { P with wis := P.wis.drop 1 })
      flushQueued (endItem d p { w with state := .faulted, cause := .tileRetired }) p
    else
      let ts := (d.usableTiles p).filter d.sleeps
      let xs := (P.stacksOf P.prog).filter (fun x => d.sleeps (32 + x))
      if (d.usableTiles p).all d.domOn && d.reach p P.prog then startItem p w d
      else wakeTiles ((launchWake d p w.id ts.length xs.length).wakeFor p P.prog 4) p 2
/-- WORK_ITEM_START -/
def execWorkItemStart (p : Fin 8) (s : State) : Host.Outcome State Fault Refusal := onDev (itemStart p) s

-- TILE_STOP (R55, R56, R108, R168, R195).

/-- Issued stores of a logical tile are complete: what is left waits for a pass that will not come, or for a walk. -/
def LTile.storesDone (t : LTile) (walking : Bool) : Bool :=
  t.vec.isEmpty && t.rte.isEmpty && t.moves.all (fun e => match e.2 with
    | [] => true
    | m :: _ => decide (m.kind = 4) || (walking && decide (6 ≤ e.1)))
/-- Is an operation of the arrays' queue a pass that broadcasts? -/
def LTile.broadcasts (t : LTile) (o : ArrOp) : Bool := t.begun.any (fun b => decide (b.q.id = o.num))
/-- Operations that a stop discards: those of the arrays but a pass that broadcasts, and a window stream with the MOVEs behind it. -/
def LTile.discarded (t : LTile) : List Nat :=
  (t.arr.filter (fun o => !t.broadcasts o)).map ArrOp.num ++ t.moves.flatMap (fun e => (e.2.dropWhile (fun m => decide (m.kind ≠ 4))).map (fun m => m.id))
/-- Those operations are dropped, and posts that waited for them. -/
def LTile.shed (t : LTile) : LTile :=
  { t with arr := t.arr.filter t.broadcasts, moves := t.moves.map (fun e => (e.1, e.2.takeWhile (fun m => decide (m.kind ≠ 4)))), armed := [],
           posts := t.posts.filter (fun q => q.waits.all (fun i => !t.discarded.contains i)) }

/-- A pass that broadcasts as the stop comes completes. -/
def finishPass (p l : Nat) (d : Device) : Device :=
  match (d.lt p l).begun, d.hostOf p l with
  | b :: _, some t =>
    (match (d.lt p l).group b.q.ag with
     | none => d
     | some g => passRun p l t b g { rows := [] } d)
  | _, _ => d
/-- Grouped walks in the arrays' queue. -/
def LTile.walkIds (t : LTile) : List Nat := t.arr.filterMap (fun o => match o with
  | .walk _ wid _ => some wid
  | _ => none)
/-- The arrays of a stopped tile: the passes that broadcast complete, later operations are discarded, and open groups close without
writing (R108). A walk is over for this tile, and goes on elsewhere until the other tiles of its mask stop. -/
def stopArrays (p l : Nat) (d : Device) : Device :=
  let ws := (d.lt p l).walkIds
  let n := (d.lt p l).begun.length
  let unit := (d.part p).walks.any (fun w => ws.contains w.wid && w.prog.any (fun u => decide (u.lt = l)))
  let d := (List.range n).foldl (fun d _ => finishPass p l d) (d.modLt p l LTile.shed)
  let leave (w : Walk) : Walk := if ws.contains w.wid then { w with prog := w.prog.filter (fun u => decide (u.lt ≠ l)), done := l :: w.done } else w
  let d := (d.modPart p (fun P => { P with walks := (P.walks.map leave).filter (fun w =>
    !(maskLts w.mask).all (fun m => w.done.contains m)) })).modLt p l (fun t =>
    { t with arr := [], ags := [], groups := [], passes := [], begun := [], wact := none, wsh := none, hold := none, block := .stopped })
  if unit then gapStart d p l else d

/-- Is a message rows of a skein of step `s`? -/
def rowsOf (s : Nat) (m : Msg) : Bool :=
  match m with
  | .skein 0x12 m => decide (m.step.toNat = s)
  | _ => false
/-- Rows of the step's skeins that have not been sent are sent no more: the VOID stands for them (R195). -/
def dropRows (d : Device) (p : Nat) : Device :=
  let s := (d.part p).step
  let keep (ms : List (Bool × Msg)) : List (Bool × Msg) := ms.filter (fun x => !rowsOf s x.2)
  let d : Device :=
   { d with flows := d.flows.map (fun e =>
      if e.2.kind = 2 && decide (e.2.part = p) then (e.1, { e.2 with waiting := keep e.2.waiting }) else e) }
  d.modPart p (fun P => { P with peerWait := P.peerWait.map (fun w => (w.1, keep w.2)) })
/-- The device's VOID message for the step goes to every other device, once; its own exchanges take nothing more. -/
def sendVoid (d : Device) (p : Nat) : Device :=
  if (d.part p).voidSent then d
  else
    let P := d.part p
    let d := d.modPart p (fun P => { P with voidSent := true, exchs := P.exchs.map (fun x => { x with srcs := x.srcs.map SrcIn.voided }) })
    let d := dropRows ((P.exchs).foldl (fun d x => landAll p x.lt x.op d) d) p
    let d := ((List.range P.devCount).filter (· ≠ P.devId)).foldl (fun d v =>
      sendPeer d p v (.skein 0x13 (skeinMsg p 0 0 P.step P.devId v 0 0 0 0 0 []))) d
    voidFrom (pumpPeers d p) p P.devId
/-- What a stopped tile leaves to the exchange engines: its links go on with zero parts. -/
def stopLinks (p l : Nat) (d : Device) : Device := settle (sendVoid (zeroLinks d p l) p) p (d.part p).devId

/-- Is the physical tile of a logical tile ON? -/
def Device.ltOn (d : Device) (p l : Nat) : Bool := ((d.hostOf p l).map d.domOn).getD false
/-- TILE_STOP -/
def tileStop (p l : Nat) (d : Device) : Device :=
  let P := d.part p
  let t := d.lt p l
  if !P.isRunning || P.seam ≠ .none || P.ltCount ≤ l || !d.ltOn p l then d
  else if P.stopping then
    if t.block = .stopped || !t.storesDone (P.walking l) then d else stopLinks p l (stopArrays p l d)
  else if t.block = .halted then stopLinks p l (if t.arr.isEmpty then d.setLt p l t.shed else d)
  else d
/-- TILE_STOP -/
def execTileStop (p : Fin 8) (l : Fin 32) (s : State) : Host.Outcome State Fault Refusal := onDev (tileStop p l) s

-- SLOT_GRANT (R236, R237).

/-- Slots after `k` in cyclic order. -/
def cyclicAfter (n : Nat) (k : Option Nat) : List Nat :=
  let s := match k with
    | none => 0
    | some j => j + 1
  (List.range n).map (fun i => (s + i) % n)
/-- The slot to grant, if one may be granted now. -/
def Device.chooseSlot (d : Device) (p : Nat) : Option Nat :=
  let P := d.part p
  if P.order = 1 then P.pool.find? (d.slotReady p)
  else match (cyclicAfter P.slots P.lastGrant).find? (fun j => P.pool.contains j) with
    | none => none
    | some j => if d.slotReady p j then some j else none
/-- A grant: SEL on every logical tile, then GNT; 16 stands for NONE. -/
def grantSlot (p : Nat) (slot : Nat) (d : Device) : Device :=
  let P := d.part p
  let ready := (P.pool.filter (d.slotReady p)).length
  let lts := List.range P.ltCount
  let took := lts.map (fun l => (32 * slot + l, d.ctrOf p l (P.yieldCtr slot)))
  let d := if 2 ≤ ready then d.inc (fMulti p) else d
  let d := if P.stalled then d.inc (fStalled p) else d
  let d := ((d.inc (fGrants p)).wr (fLastSlot p) slot).modPart p (fun P => { P with stalled := false })
  let d := if slot = 16 then d
    else setPool (d.modPart p (fun P => { P with lastGrant := some slot, yieldAt := took.foldl (fun t x => tput x.1 x.2 t) P.yieldAt })) p
      (P.pool.filter (· ≠ slot))
  let d := lts.foldl (fun d l => post d [] p l (P.cbase + 2) (slot + 1)) d
  lts.foldl (fun d l => post d [] p l (P.cbase + 1) 1) d
/-- SLOT_GRANT -/
def slotGrant (p : Nat) (d : Device) : Device :=
  let P := d.part p
  if P.order = 0 || !P.isRunning || P.stopping || P.seam ≠ .none || !d.allAsk p then d
  else if P.pool = [] then grantSlot p 16 d
  else match d.chooseSlot p with
    | some j => grantSlot p j d
    | none => d
/-- SLOT_GRANT -/
def execSlotGrant (p : Fin 8) (s : State) : Host.Outcome State Fault Refusal := onDev (slotGrant p) s

-- GAUGE_CONTRIBUTION (R209, R267).

/-- GAUGE_CONTRIBUTION: a word that ECC cannot correct among those the norm reads faults the work item first (R267), and the contribution
comes with a later command; one that ECC corrects is recorded (R367). -/
def gaugeContribute (x : GaugeWork) (d : Device) : Device :=
  let p := x.p.val
  let un := x.unformed.map (·.toNat)
  match x.bad with
  | none => gaugeContribution p un d
  | some b =>
    let h := b.handle.toNat
    if d.canContribute p un && !(d.part p).stopping && d.reachAll p (d.part p).normReads && d.normMeets p h b.off.toNat then
      if b.corrected then gaugeContribution p un (readCe p h b.off.toNat d) else readUe p h b.off.toNat (some []) d
    else gaugeContribution p un d
/-- GAUGE_CONTRIBUTION -/
def execGaugeContribution (x : GaugeWork) (s : State) : Host.Outcome State Fault Refusal := onDev (gaugeContribute x) s

-- SEAM_RECORD (R226, R55 to R58).

/-- Is a logical tile held at the seam: at CTL.SEAM or stopped, with every operation and post it issued done? -/
def LTile.held (t : LTile) : Bool :=
  t.quiet && t.posts.isEmpty && (match t.block with
    | .seam _ => true
    | .stopped => true
    | .halted => true
    | _ => false)
/-- Conditions of the seam (R226, step 6). -/
def Device.seamDue (d : Device) (p : Nat) : Bool :=
  let P := d.part p
  P.isRunning && decide (P.seam = .none) && P.result.isSome && (List.range P.ltCount).all (fun l => (d.lt p l).held) &&
  P.uncommitted.all (fun u => decide (P.step ≤ u.1) || decide (u.2 ≠ P.jobId))

/-- Visit counts of an instance after a step. -/
def instWord (w : Word) (hit : Bool) : Word :=
  if hit then putBits (putBits w 63 32 (satAdd 0xFFFFFFFF (bits w.toNat 63 32) 1)) 31 16 0
  else putBits w 31 16 (satAdd 0xFFFF (bits w.toNat 31 16) 1)
/-- UPD_INST after a step in which the instances `vs` were visited. -/
def countVisits (d : Device) (vs : List Nat) : Device :=
  let mid := d.regs.filter (fun e => decide (0x501000 ≤ e.1) && decide (e.1 < 0x503000))
  let new := (List.range 1024).filterMap (fun n =>
    let w := instWord (tget 0 mid (0x501000 + 8 * n)) (vs.contains n)
    if w = 0 then none else some (0x501000 + 8 * n, w))
  { d with regs := d.regs.filter (fun e => decide (e.1 < 0x501000)) ++ new ++ d.regs.filter (fun e => decide (0x503000 ≤ e.1)) }

/-- Every granule that the work item wrote in a stopped step is poisoned and counted (R55). -/
def poisonWritten (d : Device) (p : Nat) : Device :=
  let ws := (d.part p).written
  d.modPart p (fun P =>
    ({ P with poison := ws.foldl (fun t e => tput e.1 true t) P.poison } : Part).modRunning (fun w => { w with poisoned := w.poisoned + ws.length }))

/-- A logical tile after the last seam of its work item: open groups are discarded (R151), and it fetches nothing. -/
def LTile.finish (t : LTile) : LTile := { t with ags := [], groups := [], passes := [], block := .ended }

/-- The work item ends at its final seam (R52, R53): tiles retire, leases are freed, the queue behind it is flushed unless
it completed. -/
def endRunning (d : Device) (p : Nat) (w : WorkItem) : Device :=
  let d := retireDue d p
  let w := { w with state := w.cause.ends (d.canHost p) }
  let d := d.modPart p (fun P => { P with wis := P.wis.filter (fun v => decide (v.id ≠ w.id)), finalWait := P.finalWait ++ [w] })
  let d := (unitsOf (d.part p).cols).foldl (fun d t => d.wr (fRunWi t) 0) (leakLeases d p)
  let d := (d.part p).lts.foldl (fun d l => d.modLt p l LTile.finish) d
  let d := releaseFinal d p
  let d := if w.state = .completed then d else flushQueued d p
  if (d.part p).starting then refuseDoms d (columnDoms (d.part p).cols) Refuser.place.num else d

/-- A lease holds nothing back any longer: blocks are staged, steps commit, and requests go on (R225, R226). -/
def unleash (d : Device) (p : Nat) : Device := retry (stageAll p (commitReady p 4 d)) p

/-- The seam of the running item's step is recorded; `out` is the step's outcome. With STEP_NOTICE a STATUS leaves at each seam, the work
item still RUNNING (R27). DESIGN CHOICE (log 56): every seam recorded is a step of the placement history, a skipped one too. -/
def recordSeam (p : Nat) (w : WorkItem) (out : Outcome) (d : Device) : Device :=
  let P := d.part p
  let s := P.step
  let d := if out = .skipData then skipAdvance d p s else d
  let d := if P.stopping then poisonWritten d p else d
  let d := (countVisits d P.visitedNow).modPart p (fun P =>
    { P with steps := P.steps + 1, written := [], seam := .held,
             coldGrads := (P.descs.filter (fun x => !x.isRes)).map (fun x => (x.inst, x.gH)) })
  let d := d.modPart p (fun P => { P with moving := (d.visitedShards p).map (·, false) })
  let d := unleash d p
  let w := ((d.part p).running).getD w
  let d := if P.stepNotice then sendWiStatus d p w else d
  let d := if w.cause ≠ .none || w.finalStep ≤ s then turnTo (endRunning d p w) p (if out = .skipFault then s else s + 1) else d
  if d.rd fCfgState = 1 then seamArrives d p else seamWork d p
/-- SEAM_RECORD -/
def seamRecord (p : Nat) (d : Device) : Device :=
  match (d.part p).running, (d.part p).result with
  | some w, some r => if d.seamDue p then recordSeam p w r.outcome d else d
  | _, _ => d
/-- SEAM_RECORD -/
def execSeamRecord (p : Fin 8) (s : State) : Host.Outcome State Fault Refusal := onDev (seamRecord p) s

-- SEAM_WORK_DONE (R22).

/-- CTL.SEAM lets a logical tile go on, with the next step's number in its register (R75). -/
def LTile.release (n : Nat) (t : LTile) : LTile :=
  match t.block with
  | .seam sd => { t.setS sd (BitVec.ofNat 64 n) with block := .none }
  | _ => t
/-- The tier moves of the seam, and a word that they read where a handle that moves lay before, which ECC cannot correct (R267). -/
def movesMet (p : Nat) (bad : Option WordFind) (d : Device) : Device :=
  let f := tierMoves d p
  let hs := ((d.part p).entries.filter (fun e => ((f.part p).entry e.1).any (fun x => decide (x.place ≠ e.2.place)))).map (·.1)
  if bad.isSome && hs ≠ [] then tierMoves (metBy p none hs bad d) p else f
/-- SEAM_WORK_DONE: swap, tier moves and swatch copy are over, and the next step begins. `bad`: a word that a tier move reads and ECC cannot
correct (R267); the move goes on. -/
def seamWorkDone (p : Nat) (bad : Option WordFind) (d : Device) : Device :=
  if (d.part p).seam ≠ .work then d
  else
    let d := swatchTurn (movesMet p bad d) p
    if d.movesLeft p ≠ [] || (d.part p).swDue || (d.part p).swatch.state = .copying then d
    else
      let n := (d.part p).step + 1
      let d := d.modPart p (fun P => { P with seam := .none, coldGrads := [], moving := [] })
      if (d.part p).isRunning then
        let d := turnTo d p n
        (List.range (d.part p).ltCount).foldl (fun d l => d.modLt p l (LTile.release n)) d
      else d
/-- SEAM_WORK_DONE -/
def execSeamWorkDone (x : PartWork) (s : State) : Host.Outcome State Fault Refusal := onDev (seamWorkDone x.p x.bad) s

-- Events after which a waiting request may go on.

/-- ENTRY_STEP_DONE: what waited for a domain whose entry is abandoned goes on (R346). -/
def execEntryStepDone (n : Fin 80) (s : State) : Host.Outcome State Fault Refusal := onDev (fun d => retryAll (entryStep n d)) s

/-- A phase of an exit ends (R343); with memory ready, a stack that trains reports the channels that failed twice and those that passed
only in degraded form (R268), and a tile an error in what its SRAM has retained: a UE of its partition's work item, and the exit completes (R352). -/
def exitTrained (n : Nat) (failed degraded : List Nat) (found : TileFind) (d : Device) : Device :=
  let e := exitPhase n d
  if isTileDom n && d.rd (fDomReady n) = 3 && e.rd (fDomReady n) = 7 then unitFound e n ((e.tile n).part.map (fun p => (p, []))) 0 (findMet none found)
  else if isStackDom n && d.rd (fTrain (n - 32)) = 1 && e.rd (fTrain (n - 32)) = 2 then trainingFound (n - 32) failed degraded e else e
/-- EXIT_PHASE_DONE -/
def execExitPhaseDone (x : ExitPhase) (s : State) : Host.Outcome State Fault Refusal :=
  onDev (fun d => retryAll (exitTrained x.d (x.failed.map (·.val)) (x.degraded.map (·.val)) x.found d)) s

/-- An update reads a word that ECC cannot correct, in its shard or its gradient: the shard turns TORN (R60, R220, R267). -/
def blockUe (p h g off : Nat) (d : Device) : Device :=
  let d := readUe p g off none d
  if d.shardTorn p h then d else tearShard d p h
/-- Record of an error that the Purl engine's checks, or those of its staging, find in an update (Table 15-3); `sub`: 0 for the engine, 1
for the staging. -/
def purlErr (d : Device) (u : ShardUpd) (cls sub kind : Nat) : Device :=
  errorCheck d (({ mkRec cls 7 kind (u.eng + 256 * sub) with detail := u.desc.shard, action := if sub = 0 && cls = 0 then 1 else 0 } : ERec).ofDomain d
    (32 + u.eng))
/-- Can the next block of an update meet the find now? It is the update's turn, what it reads serves, and for the staging there is a
staged block. -/
def Device.meets (d : Device) (p : Nat) (u : ShardUpd) (f : BlockFind) : Bool :=
  !d.leased p u && !d.engineBusy p u && d.reachAll p [u.desc.shard, u.desc.gH] && d.domOn (32 + u.eng) &&
  (match f with
   | .corrected => (d.stagedOf p u).any (fun b => !b.overflow)
   | .unreadable => (d.stagedOf p u).any (fun b => !b.overflow)
   | _ => true)
/-- A ledger block of a shard, by what it meets: an error that is corrected, in a word it reads too, or a repeat that agrees, is a CE; one that
is not makes the shard TORN (R220, R367, R368). -/
def ledgerBlock (p h : Nat) (f : BlockFind) (d : Device) : Device :=
  match (d.part p).updates.find? (fun u => decide (u.desc.shard = h)) with
  | none => d
  | some u => match f with
    | .good => ledgerWrite p h d
    | f =>
      if !d.meets p u f then d
      else match f with
        | .good => d
        | .corrected => ledgerWrite p h (purlErr d u 0 1 2)
        | .unreadable => tearShard (purlErr d u 1 1 3) p h
        | .residue false => ledgerWrite p h (purlErr d u 0 0 1)
        | .residue true => tearShard (purlErr d u 1 0 1) p h
        | .shardUe off => blockUe p h h off.toNat d
        | .gradUe off => blockUe p h u.desc.gH off.toNat d
        | .shardCe off => ledgerWrite p h (readCe p h off.toNat d)
        | .gradCe off => ledgerWrite p h (readCe p u.desc.gH off.toNat d)
/-- LEDGER_BLOCK_WRITE -/
def execLedgerBlockWrite (p : Fin 8) (shard : BitVec 32) (found : BlockFind) (s : State) : Host.Outcome State Fault Refusal :=
  onDev (fun d => retryAll (ledgerBlock p shard.toNat found d)) s

/-- A MOVE completes; `bad` is a word of its source that ECC corrects or cannot correct. A lease it closed holds nothing back. -/
def moveDone (p l e : Nat) (bad : Option OffFind) (found : TileFind) (d : Device) : Device :=
  let f := moveComplete p l e (fun h d => match bad with
    | none => d
    | some b => metOff p h b (some [l]) d) (findMet none found) d
  if f.leases = d.leases then f else unleash f p
/-- MOVE_COMPLETE -/
def execMoveComplete (p : Fin 8) (l : Fin 32) (x : MoveEnd) (s : State) : Host.Outcome State Fault Refusal :=
  onDev (moveDone p l x.eng x.bad x.found) s

/-- PATROL_READ -/
def execPatrolRead (x : Fin 32) (f : PatrolFind) (s : State) : Host.Outcome State Fault Refusal :=
  onDev (fun d => retryAll (patrolRead x f d)) s
/-- RETRAIN_DONE: what waited for the channel goes on. -/
def execRetrainDone (x c : Fin 32) (ok : Bool) (s : State) : Host.Outcome State Fault Refusal :=
  onDev (fun d => retryAll (retrainDone x c ok d)) s

end Sys2Proof.Machine
end

