-- ==== Sys2Proof/Machine/Bringup.lean ====
section
/-! DEFINITION. Start-up (R384, R386), resets (R385, R413), power in and out (R414), and thermal control (R402 to R404). -/
namespace Sys2Proof.Machine

-- What a reset leaves.

/-- The device after a power loss or at a falling RESET_N: what MRAM, fuses and the image stores hold, the targets that failed their
self-test and have not passed since (R381), the pins and what was sent are left (Table 15-6). -/
def bare (d : Device) : Device :=
  let r := Device.reset
  let r : Device :=
   { r with
    shadow := d.shadow, mramActive := d.mramActive, bootNv := d.bootNv, seqNv := d.seqNv, log := d.log, repairs := d.repairs,
    comps := d.comps.map (fun e => (e.1, { Comp.reset with image := e.2.image, next := e.2.next })), fused := d.fused,
    revoked := d.revoked, sigTable := d.sigTable, cak := d.cak, ckn := d.ckn,
    roleKeys := d.roleKeys.filter (fun e => decide (e.1 < 16)), drbgN := d.drbgN, badTargets := d.badTargets, strapBoard := d.strapBoard, strapPos := d.strapPos,
    strapSlot := d.strapSlot, vinMv := d.vinMv, lockout := d.lockout, resetN := d.resetN, testEn := d.testEn, out := d.out, free := d.free }
  r.wr fTestEn (if d.testEn then 1 else 0)
/-- The input stage has stopped: a power loss (R377, R414). -/
def powerLoss (d : Device) : Device := bare d
/-- Every domain but D.AON goes OFF; D.AON keeps the records not yet in MRAM (R413). -/
def logicReset (d : Device) : Device :=
  (({ bare d with powered := d.powered, staged := d.staged } : Device).wr (fDom 79) (d.rd (fDom 79)))
/-- A cold start begins with step 1. -/
def coldStart (d : Device) : Device := ({ bare d with powered := true } : Device).wr fPhase 1

-- Start-up steps (Table 16-1).

/-- The straps are sampled (R412). -/
def sampleStraps (d : Device) (s : Straps) : Device := { d with strapBoard := s.boardMode, strapPos := s.brdPos, strapSlot := s.slotId }
/-- A domain comes ON, its four ready signals given (R343). -/
def comeOn (d : Device) (n : Nat) : Device := (d.wr (fDom n) 0).wr (fDomReady n) 0xF

/-- Step 3: BOOT_COUNT rises, the ROM is measured, component 1 verified, fields from the fuses and the key store appear. -/
def bootRom (d : Device) : Device :=
  let d := swapBanks { d with bootNv := (d.bootNv + 1) % 2 ^ 32 }
  let d := (((d.wr fSerial Config.serial.toNat).wr fMgtMac Config.mgtMac.toNat).wr fBootCount d.bootNv).wr fCakSet (if d.cak = [] then 0 else 1)
  verifyComp 1 (measureRom d)
/-- A repair list entry takes effect at start-up (R376). -/
def applyRepair (d : Device) (e : Repair) : Device :=
  let u := e.unit % 256
  let c := e.unit / 256 % 256
  if e.source = 1 && !e.retire then takeSpare d u c (e.unit / 65536)
  else if e.source = 1 then (d.modTile u (fun x => { x with retired := true })).wr (fTRetired u) 1
  else if e.source = 5 then (d.inc (fRowsUsed u)).inc (fSparesUsed u c)
  else if e.source = 6 then failChan d u c
  else if e.source = 7 then (List.range 32).foldl (fun d c => if d.ch u c = 3 then d else failChan d u c) d
  else if e.source = 9 then d.modPort u (fun p => { p with failed := true })
  else if e.source = 0x0D then retireStack d c
  else d

/-- Step 4: components 2 to 6; SEQ and the repair list from MRAM, whose entries take effect unless a start-up has applied them already. -/
def bootRuntime (d : Device) : Device :=
  let e := [2, 3, 4, 5, 6].foldl (fun d c => verifyComp c d) d
  let e := (e.wr fNextSeq e.seqNv).wr fRepairUsed e.repairs.length
  if d.rd fRepairUsed = 0 then e.repairs.foldl applyRepair e else e

/-- A set whose digest fails is replaced by the factory set: a FATAL error of the MRAM (R387, Table 15-1). -/
def badSet (d : Device) : Device := fatalCheck d (mkRec 2 0x0B 2 4)
/-- Step 5: both sets are loaded, and every RWS field takes its active value. -/
def loadSets (activeOk shadowOk : Bool) (d : Device) : Device :=
  let d := if activeOk then d else badSet { d with mramActive := factorySet }
  let d := if shadowOk then d else badSet { d with shadow := factorySet }
  rwsRegs.foldl (fun d a => putActive d a (tget 0 d.mramActive a)) d

/-- Is a component from 2 to 6 not VERIFIED? -/
def Device.runtimeBad (d : Device) : Bool := [2, 3, 4, 5, 6].any (fun c => decide (d.rd (fFwStatus c) ≠ 1))
/-- Steps 7 and 8 begin: stacks exit OFF and train, enabled ports that are not FAILED (R373) exit OFF and train; pending drop checks are
due. -/
def beginTraining (d : Device) : Device :=
  let d := (d.liveStacks 0xFF).foldl (fun d x => startExit d (32 + x) 0) (d.wr fPhase 7)
  checkPending ((List.range 8).foldl (fun d n => if d.rd (fEnable n) = 1 && !(d.port n).failed then startExit d (64 + n) 10 else d) d)

/-- What initial training found in each stack; then every tile and stack domain goes OFF (R315). -/
def endTraining (r : BootReport) (d : Device) : Device :=
  let of (l : List (Fin 32 × Fin 32)) (x : Nat) : List Nat := (l.filter (fun y => decide (y.1.val = x))).map (fun y => y.2.val)
  let d := (d.liveStacks 0xFF).foldl (fun d x => trainingFound x (of r.failed x) (of r.degraded x) d) d
  (List.range 64).foldl forceOff d

/-- Steps 7 and 8 are both done: ADMITTED, READY. -/
def finishBoot (d : Device) : Device :=
  if d.step7 && d.step8 then ((d.wr fMode 0).wr fPhase 9).wr fReady 1
  else if d.step7 then d.wr fPhase 8 else d

/-- After a warm reset each engine first rewrites every staged block it holds (R220); the update path then goes on from there. -/
def rewriteStaged (d : Device) (p : Nat) : Device :=
  (d.part p).updates.foldl (fun d u => match d.stagedOf p u with
    | none => d
    | some b => if d.reachAll p [u.desc.shard, u.desc.gH] then writeBlock p u b d else d) d
/-- Step 6 ends. After a warm reset staged blocks are rewritten, the listeners listen again and pending checks run; firmware that fails forces an
outward passage from SERVICE (R385). DEDUCED (log 141): a warm reset of a device whose start-up had not come to its end goes on with steps 7
and 8. -/
def endStep6 (d : Device) : Device :=
  let bad := d.runtimeBad || d.rd (fFwStatus 1) ≠ 1
  let d := [73, 74, 75, 76, 77].foldl comeOn d
  if d.step7 && d.step8 then
    let d := (List.range 8).foldl (fun d p => commitReady p 4 (rewriteStaged d p)) (checkPending (d.wr fPhase 9))
    let d := (List.range 8).foldl (fun d p => if within 2 3 (d.rd (fPartState p)) then listen d p else d) d
    if !bad then d.wr fReady 1
    else if d.rd fMode = 2 then beginPassage d false true 2
    else if d.rd fMode = 1 then { d with thenOut := decide (d.rd fInward = 1) }
    else firmwareStop d
  else if bad then { d with halted6 := true }
  else beginTraining d

/-- May a start-up step complete now? -/
def Device.stepDue (d : Device) (k : Nat) : Bool :=
  d.powered && d.resetN && !d.thermTrip && !d.recovery && !d.halted6 &&
  (if k = 7 then decide (d.rd fPhase = 7 ∨ d.rd fPhase = 8) && !d.step7 && d.checks.isEmpty
   else if k = 8 then decide (d.rd fPhase = 7 ∨ d.rd fPhase = 8) && !d.step8
   else decide (1 ≤ k ∧ k ≤ 6) && decide (d.rd fPhase = k))

/-- Step `k` completes, and the next begins. -/
def startupEnd (k : Nat) (r : BootReport) (d : Device) : Device :=
  if k = 1 then (comeOn { sampleStraps d r.straps with pwrOk := true } 79).wr fPhase 2
  else if k = 2 then ([72, 78].foldl comeOn d).wr fPhase 3
  else if k = 3 then
    let d := bootRom d
    if d.rd (fFwStatus 1) ≠ 1 && d.rd fMode = 0 then { d with recovery := true } else d.wr fPhase 4
  else if k = 4 then (bootRuntime d).wr fPhase 5
  else if k = 5 then (loadSets r.activeOk r.shadowOk d).wr fPhase 6
  else if k = 6 then endStep6 d
  else if k = 7 then finishBoot { endTraining r d with step7 := true }
  else finishBoot { d with step8 := true }
/-- STARTUP_STEP_DONE: a step that is due completes; errors of support units that it has met are recorded first (R367). -/
def startupStep (r : BootReport) (d : Device) : Device :=
  if d.stepDue r.step.val then startupEnd r.step.val r (supportFounds d r.support) else d
/-- STARTUP_STEP_DONE (R384) -/
def execStartupStepDone (r : BootReport) (s : State) : Host.Outcome State Fault Refusal := onDev (startupStep r) s

-- Resets by request (R384, R385).

/-- A full reset restarts the sequence from step 2. -/
def fullReset (d : Device) : Device := ({ logicReset d with pwrOk := true, thermTrip := d.thermTrip } : Device).wr fPhase 2
/-- FULL_RESET: the reply is sent before the reset. -/
def fullResetReq (m : WenMsg) (d : Device) : Device :=
  wenRequest 0x35 [0] false m (fun m s d =>
    if m.body ≠ toLe 1 1 then refuse 4 d else (none, fullReset (replyTo d s.id 0x35 0 []))) d
/-- FULL_RESET (R384) -/
def execFullReset (m : WenMsg) (s : State) : Host.Outcome State Fault Refusal := onModule (fullResetReq m) s

/-- Work items of a partition end FAULTED with cause FATAL at a warm reset; what a step under way had written is poisoned,
and nothing of that step is left but decided updates, whose commit comes before any launch (R220). -/
def warmPart (d : Device) (p : Nat) : Device :=
  let d := if (d.part p).isRunning && (d.part p).seam = .none then poisonWritten d p else d
  let ws := (d.part p).wis
  let d := (d.part p).visitedNow.foldl (fun d v => d.wr (fVisited v) 0) (leakLeases (failSwatch d p 10) p)
  let d := d.modPart p (fun P =>
   { P with
    ended := P.ended ++ ws.map (fun w => { w with state := .faulted, cause := .fatal }), wis := [], written := [],
    contrib := false, stopping := false, voidSent := false, flag := false, carried := P.takesFlag, carry := false, descs := [], gauges := [], fataled := [],
    result := none, seam := .none, links := [], formed := [], gone := [], early := [], peerWait := [], exchs := [], visitedNow := [],
    voids := [], walks := [], putPosts := [], waitReqs := [], coldGrads := [], pool := [], yieldAt := [], lastGrant := none,
    stalled := false, parked := P.parked.filter (·.due), moving := [], swDue := false, woke := false, replay := decide (P.uncommitted ≠ []) || decide (P.updates ≠ []) })
  (unitsOf (d.part p).cols).foldl (fun d t => (d.wr (fRunWi t) 0).modTile t (fun x => { x with switching := false, paused := false, held := false })) d
/-- A channel that was PAUSED runs a fast retrain, and a row repair not yet recorded is redone from its drop check (Table
10-8). -/
def warmStack (d : Device) (x : Nat) : Device :=
  let d := (d.pausedCh x).foldl (fun d c => setCh d x c 0) d
  d.modStack x (fun s => { s with repair := none, repairFor := none })
/-- Counters clear at a warm reset as at every other (R333, R383), those of the ports and the cycles counted towards TENSION_KCYC too. DESIGN
CHOICE (log 150): SWATCH_BYTES.SENT is none of them and keeps its value. -/
def warmCounters (d : Device) : Device :=
  let d := (List.range 8).foldl (fun d n => d.modPort n (fun x => { x with refused := 0 })) (clearCounters d)
  (List.range 32).foldl (fun d t => d.modTile t (fun x => { x with tcyc := 0 })) d
/-- A warm reset: flows go FREE, work items end, tiles go OFF, a pending swap is dropped, counters clear; steps 3 to 6 run again, out of the
recovery service or a stop after step 6 too (R385). -/
def warmReset (d : Device) : Device :=
  let d := dropSwap d
  let up := d.step7 && d.step8
  let d : Device :=
   { d with
    kept := d.admitted, recovery := false, halted6 := false, step7 := up, step8 := up,
    flows := [], sess := [], load := none, passageVia := none, bist := none,
    dies := d.dies.map (fun e => (e.1, { e.2 with rotation := [] })) }
  let d := (List.range 8).foldl warmPart d
  let d := (List.range 32).foldl warmStack ((List.range 32).foldl forceOff d)
  let d := (List.range 8).foldl (fun d p => retireDue (setPool d p []) p) d
  let d := setChecks ((List.range 32).foldl (fun d t => d.modTile t (fun x => { x with paused := false, held := false })) d) []
  let d := if d.rd fTestStatus = 1 then d.wr fTestStatus 0 else d
  (((warmCounters d).wr fHold 0).wr fWarm 1).wr fPhase 3
/-- WARM_RESET: the reply is sent before the reset. -/
def warmResetReq (m : WenMsg) (d : Device) : Device :=
  wenRequest 0x35 [0] false m (fun m s d =>
    if m.body ≠ toLe 1 0 then refuse 4 d else (none, warmReset (replyTo d s.id 0x35 0 []))) d
/-- WARM_RESET (R385) -/
def execWarmReset (m : WenMsg) (s : State) : Host.Outcome State Fault Refusal := onDev (warmResetReq m) s

-- Thermal control (R402 to R404).

/-- Warning, throttle and trip thresholds of a sensor in degrees (Table 16-9). -/
def Device.thresholds (d : Device) (k : Nat) : Nat × Nat × Nat :=
  let w := (d.reg 0x10028).toNat
  if k < 32 then (bits w 7 0, 105, 115) else if k < 64 then (bits w 15 8, 95, 105) else (bits w 23 16, 105, 115)
/-- Readings in degrees above -40, with their sensors. -/
def readings (ts : List (BitVec 8)) : List (Nat × Nat) := (List.range ts.length).map (fun k => (k, (ts.getD k 0xFF#8).toNat))
/-- DEV_TEMP shows the readings; sensors 66 to 71 read 0xFF. -/
def showTemps (d : Device) (ts : List (BitVec 8)) : Device :=
  (List.range 9).foldl (fun d k => d.setReg (0x100 + 8 * k)
    (BitVec.ofNat 64 (leNat ((List.range 8).map (fun j => if 8 * k + j < 66 then ts.getD (8 * k + j) 0xFF#8 else 0xFF#8))))) d

/-- The thermal shutdown: THERM_TRIP_N, a FATAL record, work items stopped, every domain but D.AON and D.X0 OFF. -/
def thermShutdown (d : Device) : Device :=
  if d.thermTrip then d
  else
    let d := addRecord { d with thermTrip := true } { mkRec 2 0x0E 1 0 with action := 11 }
    let d := (List.range 8).foldl (fun d p => recordFault d p .fatal) d
    ((List.range 79).filter (fun n => decide (n ≠ 72))).foldl forceOff d

/-- SENSOR_SAMPLE: the readings of 66 sensors; at or above a throttle limit the level rises, and no reading within 3
degrees of a limit lets a fall of the level count (R403). Errors that support units have found since the last sample are recorded (R367). -/
def sensorSample (x : SensorReport) (d : Device) : Device :=
  if !d.domOn 79 then d
  else
    let ts := x.temps
    let d := showTemps (supportFounds d x.support) ts
    let any (f : Nat × Nat × Nat → Nat) : Bool := (readings ts).any (fun x => decide (f (d.thresholds x.1) + 40 ≤ x.2))
    let d := d.wr fThermWarn (if any (fun t => t.1) then 1 else 0)
    let d := if any (fun t => t.2.1) then setLevel d (min 15 (d.rd fLevel + 1)) else d
    let hot := any (fun t => t.2.1 - 2)
    let d : Device := { d with warm := hot, pauseLow := if hot then 0 else d.pauseLow }
    if any (fun t => t.2.2) then thermShutdown d else d
/-- SENSOR_SAMPLE (R402) -/
def execSensorSample (x : SensorReport) (s : State) : Host.Outcome State Fault Refusal := onDev (sensorSample x) s

end Sys2Proof.Machine
end

