-- ==== Sys2Proof/Machine/Finish.lean ====
section
/-! DEFINITION. Work that ends and lets what waited go on: cables and exchanges with what their engines met in their reads (R165, R169, R186,
R267), row repairs, zeroing scrubs, and a tile's switch (R43, R271). -/
namespace Sys2Proof.Machine

-- Cables and fans (R165, R169).

/-- Handles that a link's descriptor and its part are read from. -/
def Link.reads (k : Link) : List Nat := k.descH :: (if k.zero || decide (k.mbN = 0) then [] else [(locOf k.as).h])
/-- CABLE_COMPLETE, while no exchange engine is under check. A word that ECC corrects in what the link has read is recorded; with one that ECC
cannot correct its tile faults UE and its part is zero from then on (R168, R267). Then a link that may complete is counted, freed and posts
(R165, R169). DESIGN CHOICE (log 156): what the engine meets in its reads is reported with this command, before or at the completion. -/
def cableComplete (p l : Nat) (x : ExchEnd) (d : Device) : Device :=
  let op := x.op
  match (if d.exchOut then none else (d.part p).link l op) with
  | none => d
  | some k =>
    if d.canMeet p k.reads x.bad && findBad k.reads x.bad then zeroLink p k (metWord p l k.reads x.bad d)
    else
      let d := if d.canMeet p k.reads x.bad then metWord p l k.reads x.bad d else d
      if !k.over then d
      else
        let d := tileCount d p l fLinksDone
        let d := if k.zero then tileCount d p l fVoids else d
        let d := d.modPart p (fun P => { P with links := dropFirst (fun x => decide (x.lt = l) && decide (x.op = op)) P.links })
        complete (d.modLt p l (fun t => { t with xch := t.xch.filter (fun o => decide (o.id ≠ op)) })) p l op k.cf
/-- CABLE_COMPLETE -/
def execCableComplete (p : Fin 8) (l : Fin 32) (x : ExchEnd) (s : State) : Host.Outcome State Fault Refusal :=
  onDev (cableComplete p l x) s

-- Exchanges (R186).

/-- Handles that an exchange reads: as it starts, the tags it compares with as rows land, the table whose counts it fills in. -/
def Exch.allReads (x : Exch) : List Nat :=
  x.reads ++ (if x.mode % 2 = 1 then [(fieldLoc x.tagsAt.toNat).h] else if x.mode = 2 then [fld x.plan 0x14 4] else []) ++
  (if fld x.plan 3 1 = 1 then [fld x.plan 0x1C 4] else [])
/-- SKEIN_COMPLETE, while no exchange engine is under check. A word that ECC corrects in what the exchange has read is recorded, and with one that
ECC cannot correct its tile faults UE (R267). Then, with every skein delivered and landed, visits are marked and the operation posts. DESIGN
CHOICE (log 156): what the engine meets in its reads is reported with this command, before or at the completion. -/
def skeinComplete (p l : Nat) (y : ExchEnd) (d : Device) : Device :=
  let op := y.op
  match (if d.exchOut then none else (d.part p).exchOf l op) with
  | none => d
  | some x =>
    let hs := [(locOf x.planAt).h, fld x.plan 0x1C 4]
    let d := if d.canMeet p x.allReads y.bad then metWord p l x.allReads y.bad d else d
    if !x.srcs.all (·.landed) || !d.delivered p x then d
    else if !d.readable p hs then wakeAll d p hs 4
    else
      let r := writeParts p l (planWrites x d p) d
      let d := r.1.modPart p (fun P => { P with exchs := dropFirst (fun y => decide (y.lt = l) && decide (y.op = op)) P.exchs })
      let d := d.modLt p l (fun t => { t with xch := t.xch.filter (fun o => decide (o.id ≠ op)) })
      match r.2 with
      | some c => tileFault d p l c
      | none =>
        let seen := if x.mode = 0 then (List.range x.nent).filter (fun i => decide (0 < x.landed i)) else []
        let d := seen.foldl (fun d i =>
          let n := fld x.ents (32 * i + 2) 2
          (d.wr (fVisited n) 1).modPart p (fun P =>
            { P with visitedNow := (if P.visitedNow.contains n then P.visitedNow else n :: P.visitedNow) })) d
        let d := tileCount d p l fExchanges
        let d := if x.srcs.any (·.void) then tileCount d p l fSkeinVoids else d
        complete d p l op x.cf
/-- SKEIN_COMPLETE -/
def execSkeinComplete (p : Fin 8) (l : Fin 32) (x : ExchEnd) (s : State) : Host.Outcome State Fault Refusal :=
  onDev (skeinComplete p l x) s

-- Purl engine work (R271).

/-- ROW_REPAIR_DONE: what waited for the channel or its engine goes on. -/
def execRowRepairDone (x : RowCopy) (s : State) : Host.Outcome State Fault Refusal :=
  onDev (fun d => retryAll (rowRepairDone x.stack (x.bad.map (·.toNat)) (x.fixed.map (·.toNat)) d)) s
/-- SCRUB_DONE -/
def execScrubDone (x : Fin 32) (s : State) : Host.Outcome State Fault Refusal := onDev (fun d => retryAll (scrubDone x d)) s
/-- TILE_SWITCH_DONE: what waited for the Purl engine goes on. -/
def execTileSwitchDone (t : Fin 32) (s : State) : Host.Outcome State Fault Refusal := onDev (fun d => retryAll (switchDone t d)) s

end Sys2Proof.Machine
end

