-- ==== Sys2Proof/Machine/Meter.lean ====
section
/-! DEFINITION. The Aethen meter (R354 to R365): its register, records, pulses, audit counter and faults, and what X0 makes of
a record (R363, R364). Nothing else reaches the meter's state. -/
namespace Sys2Proof.Machine

/-- An event of the meter chip, while it runs. -/
def onMeter (f : Meter → Meter) (s : State) : Host.Outcome State Fault Refusal :=
  .next (if s.meter.running then { s with meter := f s.meter } else s)

/-- Pulses that a value of the register has given in all (R361). -/
def pulsesAt (mj : Nat) : Nat := mj / 360000
/-- The register rises by whole millijoules, and a pulse starts each time it passes a multiple of 360,000 mJ, unless FAULT is INVALID (R359,
R361, R365). -/
def Meter.integrate (m : Meter) (mj : Nat) : Meter :=
  if m.fault = 2 then m
  else
    let e := satAdd (2 ^ 64 - 1) m.energy mj
    { m with energy := e, pulses := m.pulses + (pulsesAt e - pulsesAt m.energy), pulse := m.pulse || decide (pulsesAt m.energy < pulsesAt e) }

-- Start and loss of input (R357, R360).

/-- METER_START: the ROM checks the image and its signature under the meter key, and firmware that verifies runs from the committed values; the
first record is flagged RESTART. -/
def meterStart (fw : List Byte) (ver : BitVec 32) (sig : List Byte) (m : Meter) : Meter :=
  if m.running || !Config.meterVerify fw sig then m
  else { m with energy := m.nv.energy, seq := m.nv.seq, pulses := m.nv.pulses, running := true, restart := true, fw := fw, fwSig := sig, fwVer := ver,
                fwSum := BitVec.ofNat 32 (fld (Config.shake256 fw 256) 0 4) }
/-- METER_START (R360) -/
def execMeterStart (fw : List Byte) (ver : BitVec 32) (sig : List Byte) (s : State) : Host.Outcome State Fault Refusal :=
  .next { s with meter := meterStart fw ver sig s.meter }

/-- METER_INPUT_LOSS: the remaining energy is integrated, and register, sequence and pulse count are committed. -/
def inputLoss (mj : Nat) (m : Meter) : Meter :=
  let m := m.integrate mj
  { m with running := false, nv := { energy := m.energy, seq := m.seq, pulses := m.pulses } }
/-- METER_INPUT_LOSS (R360) -/
def execMeterInputLoss (mj : Nat) (s : State) : Host.Outcome State Fault Refusal := onMeter (inputLoss mj) s

-- Pulses, calibration, self-check.

/-- MET_PULSE_START: the register reaches the next multiple of 360,000 mJ, which starts a pulse. -/
def pulseStart (m : Meter) : Meter := m.integrate (360000 - m.energy % 360000)
/-- MET_PULSE_START (R361) -/
def execMetPulseStart (s : State) : Host.Outcome State Fault Refusal := onMeter pulseStart s
/-- METER_PULSE_END: after 20 ms the output is released; the hold-up store completes a pulse when input is lost. -/
def execMeterPulseEnd (s : State) : Host.Outcome State Fault Refusal := .next { s with meter := { s.meter with pulse := false } }

/-- METER_CALIBRATION: an accepted change raises the audit counter; at its limit changes are refused. -/
def calibrate (m : Meter) : Meter := if m.audit < 0xFFFFFFFF then { m with audit := m.audit + 1 } else m
/-- METER_CALIBRATION (R358) -/
def execMeterCalibration (s : State) : Host.Outcome State Fault Refusal := onMeter calibrate s

/-- METER_SELF_CHECK: SELFTEST is flagged, INVALID freezes the register, so no pulse falls due. -/
def selfCheck (c : MeterCheck) (m : Meter) : Meter :=
  match c with
  | .pass => m
  | .selftest => if m.fault = 2 then m else { m with fault := 1 }
  | .invalid => { m with fault := 2 }
/-- METER_SELF_CHECK (R365) -/
def execMeterSelfCheck (c : MeterCheck) (s : State) : Host.Outcome State Fault Refusal := onMeter (selfCheck c) s

-- Records (R362 to R364).

/-- The record of Table 14-2. -/
def Meter.record (m : Meter) (mw : Nat) : List Byte :=
  let b := toLe 1 1 ++ toLe 1 ((if m.restart then 1 else 0) + (if m.fault = 0 then 0 else 2)) ++ toLe 1 m.fault ++ toLe 1 0 ++ toLe 4 m.fwVer.toNat ++
    toLe 8 m.seq ++ toLe 8 m.energy ++ toLe 4 mw ++ toLe 4 m.audit ++ toLe 4 m.fwSum.toNat ++ toLe 4 Config.meterId.toNat ++ toLe 8 0
  b ++ padTo 16 (Config.kmac256 Config.meterReadKey b 128 "AETHEN record")
/-- After a record: SEQ rises by 1, RESTART is over. -/
def Meter.sent (m : Meter) : Meter := { m with seq := m.seq + 1, restart := false }

/-- The estimates of tile and stack domains, each cut to what is left of the delta. -/
def cutShares : Nat → List Nat → List Nat
  | _, [] => []
  | left, e :: es => min e left :: cutShares (left - min e left) es
/-- Share of each partition, and of IDLE last, of an energy delta (R364); `es` are the power controller's estimates for
domains 0 to 63. -/
def apportion (d : Device) (delta : Nat) (es : List Nat) : List Nat :=
  let xs := cutShares delta ((List.range 64).map (fun n => es.getD n 0))
  let rest := delta - xs.sum
  let own (p : Nat) : Nat := ((List.range 64).map (fun n => if d.partOf n = some p then xs.getD n 0 else 0)).sum
  let ps := (List.range 8).map (fun p => own p + rest * (colsOf (d.part p).cols).length / 8)
  ps ++ [delta - ps.sum]
/-- The shares are added to MET_APPORT. -/
def addShares (d : Device) (ss : List Nat) : Device :=
  ((List.range 8).foldl (fun d p => d.inc (fApport p) (ss.getD p 0)) d).inc fApportIdle (ss.getD 8 0)

/-- X0 keeps a record whole, mirrors it, counts missed ones and apportions its delta; the first record after a reset has no
delta. -/
def takeRecord (m : Meter) (mw : Nat) (es : List Nat) (d : Device) : Device :=
  if !d.domOn 72 then d
  else
    let last := d.rd fMetSeq
    let d := if last = 0 then d else addShares (d.inc fMetLost (m.seq - last - 1)) (apportion d (m.energy - d.rd fMetEnergy) es)
    let d : Device := { d with metRecord := m.record mw }
    let d := ((d.wr fMetEnergy m.energy).wr fMetSeq m.seq).wr fMetPower mw
    let d := (d.setReg 0x30018 (BitVec.ofNat 64 (m.fwVer.toNat * 2 ^ 32 + m.fwSum.toNat))).wr fMetAudit m.audit
    ((d.wr fMetFault m.fault).wr fMetRestart (if m.restart then 1 else 0)).wr fMetAge 0
/-- METER_RECORD: `mj` were integrated since the register last rose, `mw` is the average power (R362). A record that does not cross the isolator
whole is lost to X0, which keeps the last one (R365). -/
def execMeterRecord (mj : Nat) (mw : BitVec 32) (x : RecordPath) (s : State) : Host.Outcome State Fault Refusal :=
  .next (if s.meter.running then
    let m := s.meter.integrate mj
    { s with meter := m.sent, dev := if x.path = .whole then takeRecord m mw.toNat x.shares s.dev else s.dev } else s)

end Sys2Proof.Machine
end

