-- ==== Sys2Proof/Machine/Pins.lean ====
section
/-! DEFINITION. Input power, RESET_N and TEST_EN (R413, R414, R417), and the test access port (R416). -/
namespace Sys2Proof.Machine

-- Input power (R414).

/-- Does VIN_50 let the input stage start? -/
def Device.vinStarts (d : Device) : Bool := within 40000 60000 d.vinMv && !d.lockout
/-- The input stage starts when the voltage lies in range and RESET_N is high. -/
def tryStart (d : Device) : Device := if !d.powered && d.resetN && d.vinStarts then coldStart d else d

/-- VIN_OVER: above 62 V the input stage stops and stays locked out. -/
def vinOver (mv : Nat) (d : Device) : Device :=
  let d : Device := { d with vinMv := mv }
  if mv ≤ 62000 then d else { powerLoss d with lockout := true }
/-- VIN_50 stands at `mv` millivolts: above 62 V the input stage stops, and below 60 V no over-voltage locks it out any more (R414). -/
def vinAt (mv : Nat) (f : Device → Device) (d : Device) : Device :=
  if 62000 < mv then vinOver mv d else f { d with vinMv := mv, lockout := d.lockout && decide (60000 ≤ mv) }
/-- VIN_OVER (R414) -/
def execVinOver (mv : Nat) (s : State) : Host.Outcome State Fault Refusal := onModule (vinOver mv) s

/-- VIN_RISE: VIN_50 has risen to `mv` millivolts. -/
def vinRise (mv : Nat) (d : Device) : Device := vinAt mv tryStart d
/-- VIN_RISE (R414) -/
def execVinRise (mv : Nat) (s : State) : Host.Outcome State Fault Refusal := onModule (vinRise mv) s

/-- VIN_LOW: below 38 V the input stage stops, which is a power loss; down to 38 V it runs on. One that an over-voltage had locked out may
start again below 60 V. -/
def vinLow (mv : Nat) (d : Device) : Device :=
  vinAt mv (fun d => if !d.powered then tryStart d else if 38000 ≤ mv then d else powerLoss d) d
/-- VIN_LOW (R414) -/
def execVinLow (mv : Nat) (s : State) : Host.Outcome State Fault Refusal := onModule (vinLow mv) s

/-- OVER_VOLTAGE_LOCKOUT_END: below 60 V the input stage may start again. -/
def lockoutEnd (mv : Nat) (d : Device) : Device := vinAt mv (fun d => if mv < 60000 then tryStart d else d) d
/-- OVER_VOLTAGE_LOCKOUT_END (R414) -/
def execOverVoltageLockoutEnd (mv : Nat) (s : State) : Host.Outcome State Fault Refusal := onModule (lockoutEnd mv) s

-- RESET_N (R413).

/-- RESET_N_FALL: every domain but D.AON goes OFF, and PWR_OK is driven low. -/
def resetFall (d : Device) : Device := { logicReset d with resetN := false }
/-- RESET_N_FALL (R413) -/
def execResetNFall (s : State) : Host.Outcome State Fault Refusal := onModule resetFall s

/-- RESET_N_RISE: the straps are sampled; step 2 begins, or step 1 where the input stage was off. -/
def resetRise (st : Straps) (d : Device) : Device :=
  if d.resetN then d
  else
    let d := sampleStraps { d with resetN := true } st
    if d.powered then (comeOn { d with pwrOk := true } 79).wr fPhase 2 else tryStart d
/-- RESET_N_RISE (R413) -/
def execResetNRise (st : Straps) (s : State) : Host.Outcome State Fault Refusal := onModule (resetRise st) s

-- TEST_EN and the TAP (R416, R417).

/-- TEST_EN_RISE: in SERVICE an outward passage follows, during an inward passage once that is over (Table 12-10). -/
def testRise (d : Device) : Device :=
  let d := ({ d with testEn := true } : Device).wr fTestEn 1
  if d.rd fMode = 2 then beginPassage d false true 3
  else if d.rd fMode = 1 && d.rd fInward = 1 then { d with thenOut := true }
  else d
/-- TEST_EN_RISE (R417) -/
def execTestEnRise (s : State) : Host.Outcome State Fault Refusal := onDev testRise s

/-- TEST_EN_FALL: the JTAG session ends. -/
def execTestEnFall (s : State) : Host.Outcome State Fault Refusal :=
  .next { s with dev := ({ s.dev with testEn := false } : Device).wr fTestEn 0, tap := s.tap.closed }

/-- The 13 sideband pins, RESET_N in bit 0, in the order of Table 17-3; the straps' levels between samples are open. -/
def Device.pins (d : Device) : BitVec 13 :=
  let b (x : Bool) : Nat := if x then 1 else 0
  BitVec.ofNat 13 (b d.resetN + 2 * b d.pwrOk + 4 * b (d.rd fAlert = 0) + 8 * b (!d.thermTrip) + 16 * ((Config.freeWord d.free).toNat % 512))

/-- A TAP instruction takes effect; the TAP runs on the module's rails. -/
def onTap (f : Device → Tap → Tap) (s : State) : Host.Outcome State Fault Refusal :=
  if s.dev.powered then .next { s with tap := f s.dev s.tap, dev := { s.dev with free := s.dev.free + 1 } } else .next s
/-- The one-bit bypass register is selected. -/
def Tap.bypassed (t : Tap) : Tap := { t with ir := 0xFF#8, driving := false, dr := 0 }

/-- TAP_RESET: Test-Logic-Reset, IDCODE selected. -/
def execTapReset (s : State) : Host.Outcome State Fault Refusal := onTap (fun _ _ => Tap.reset) s
/-- EXTEST: the cells drive the sideband pins, in a session. -/
def execExtest (cells : BitVec 13) (s : State) : Host.Outcome State Fault Refusal :=
  onTap (fun d t => if d.jtagOpen then { ir := 0x00#8, cells := cells, driving := true, dr := d.pins.setWidth 32 } else t.bypassed) s
/-- SAMPLE/PRELOAD: the pins are sampled, the cells preloaded. -/
def execSamplePreload (cells : BitVec 13) (s : State) : Host.Outcome State Fault Refusal :=
  onTap (fun d _ => { ir := 0x01#8, cells := cells, driving := false, dr := d.pins.setWidth 32 }) s
/-- IDCODE -/
def execIdcode (s : State) : Host.Outcome State Fault Refusal :=
  onTap (fun _ t => { t with ir := 0x02#8, driving := false, dr := 0x1A32E36F#32 }) s
/-- USERCODE: the straps as last sampled. -/
def execUsercode (s : State) : Host.Outcome State Fault Refusal :=
  onTap (fun d t =>
    let v := (if d.strapBoard then 256 else 0) + 64 * d.strapPos.toNat + d.strapSlot.toNat
    { t with ir := 0x03#8, driving := false, dr := BitVec.ofNat 32 v }) s
/-- A Tlanea test instruction: scan and debug access, in a session; what the scan registers hold is open. -/
def execTlaneaTest (code : BitVec 8) (s : State) : Host.Outcome State Fault Refusal :=
  onTap (fun d t => 
    let dr : BitVec 32 := (Config.freeWord d.free).setWidth 32
    if d.jtagOpen && 0x10#8 ≤ code && code ≤ 0x7F#8 then { t with ir := code, driving := false, dr := dr } else t.bypassed) s
/-- BYPASS, or any reserved code. -/
def execBypass (_code : BitVec 8) (s : State) : Host.Outcome State Fault Refusal := onTap (fun _ t => t.bypassed) s

end Sys2Proof.Machine
end

