-- ==== Sys2Proof/Machine/Vec.lean ====
section
/-! DEFINITION. The vector unit: VEC (R86, R87, R134) and CVT (R88, R130 to R133). Operands are read at issue; VEC_DONE and
CVT_DONE finish the operation at the head of the unit's queue (R67, R69). -/
namespace Sys2Proof.Machine

-- Lane arithmetic.

/-- Format of a lane: FP32 or BF16. -/
def laneFmt (ty : Nat) : Nat := if ty = 1 then 0x1 else 0x0

/-- Apply an element function to a lane of A, B and C: one 32-bit element, or two BF16 elements (R87). -/
def laneOp (ty : Nat) (f : Nat → Nat → Nat → Nat) (a b c : BitVec 32) : BitVec 32 :=
  if ty = 1 then
    BitVec.ofNat 32 (f (a.toNat % 65536) (b.toNat % 65536) (c.toNat % 65536) % 65536 +
      65536 * (f (a.toNat / 65536) (b.toNat / 65536) (c.toNat / 65536) % 65536))
  else BitVec.ofNat 32 (f a.toNat b.toNat c.toNat)

/-- Elements of a vector register (1,024, or 2,048 for BF16). -/
def laneElems (ty : Nat) (v : List (BitVec 32)) : List Nat :=
  if ty = 1 then v.flatMap (fun x => [x.toNat % 65536, x.toNat / 65536]) else v.map (·.toNat)

/-- All ones of an element. -/
def ones (ty : Nat) : Nat := if ty = 1 then 0xFFFF else 0xFFFFFFFF

/-- Greater value (Table 5-3): NaN if either is, +0 of zeros with different signs. -/
def vmax (a b : Val) : Val :=
  if vIsNan a || vIsNan b then .nan
  else if vIsZero a && vIsZero b then (if vNeg a then b else a)
  else if vlt a b then b else a
/-- Lesser value (Table 5-3). -/
def vmin (a b : Val) : Val :=
  if vIsNan a || vIsNan b then .nan
  else if vIsZero a && vIsZero b then (if vNeg a then a else b)
  else if vlt b a then b else a

/-- A float operation on element codes, rounded once to the lane format. -/
def flt2 (ty : Nat) (f : Val → Val → Val) (a b : Nat) : Nat :=
  enc (laneFmt ty) (f (decodeFmt (laneFmt ty) a) (decodeFmt (laneFmt ty) b))

/-- VEC.ADD on elements. -/
def eAdd (ty a b _c : Nat) : Nat := if ty = 2 then a + b else flt2 ty vaddIeee a b
/-- VEC.SUB on elements. -/
def eSub (ty a b _c : Nat) : Nat := if ty = 2 then a + (2 ^ 32 - b) else flt2 ty (fun x y => vaddIeee x (vneg y)) a b
/-- VEC.MUL on elements. -/
def eMul (ty a b _c : Nat) : Nat := if ty = 2 then a * b else flt2 ty vmul a b
/-- VEC.FMA on elements: rounded once. -/
def eFma (ty a b c : Nat) : Nat :=
  enc (laneFmt ty) (vaddIeee (vmul (decodeFmt (laneFmt ty) a) (decodeFmt (laneFmt ty) b)) (decodeFmt (laneFmt ty) c))
/-- VEC.MAX on elements; INT32 compares two's complement values. -/
def eMax (ty a b _c : Nat) : Nat := if ty = 2 then (if toInt 32 a < toInt 32 b then b else a) else flt2 ty vmax a b
/-- VEC.MIN on elements. -/
def eMin (ty a b _c : Nat) : Nat := if ty = 2 then (if toInt 32 b < toInt 32 a then b else a) else flt2 ty vmin a b
/-- VEC.ABS on elements; the most negative INT32 stays itself, mod 2^32 (R87). -/
def eAbs (ty a _b _c : Nat) : Nat :=
  if ty = 2 then (if toInt 32 a < 0 then 2 ^ 32 - a else a) else flt2 ty (fun x _ => vabs x) a 0
/-- VEC.NEG on elements. -/
def eNeg (ty a _b _c : Nat) : Nat := if ty = 2 then 2 ^ 32 - a else flt2 ty (fun x _ => vneg x) a 0
/-- VEC.EXP on elements. -/
def eExp (_ty a _b _c : Nat) : Nat := encodeFmt 0 (rnExp32 (decodeFmt 0 a))
/-- VEC.RCP on elements. -/
def eRcp (_ty a _b _c : Nat) : Nat := encodeFmt 0 (rnRcp 0 (decodeFmt 0 a))
/-- VEC.RSQ on elements. -/
def eRsq (_ty a _b _c : Nat) : Nat := encodeFmt 0 (rnRsqrt 0 (decodeFmt 0 a))
/-- VEC.SQRT on elements. -/
def eSqrt (_ty a _b _c : Nat) : Nat := encodeFmt 0 (rnSqrt 0 (decodeFmt 0 a))
/-- VEC.CMPLT on elements: all ones where A < B; a NaN compares false. -/
def eCmplt (ty a b _c : Nat) : Nat :=
  if ty = 2 then (if toInt 32 a < toInt 32 b then ones ty else 0)
  else if vlt (decodeFmt (laneFmt ty) a) (decodeFmt (laneFmt ty) b) then ones ty else 0
/-- VEC.SEL on elements: A where the element of C has a nonzero bit, else B. DESIGN CHOICE (log 147): it makes a NaN it passes on canonical
(R134). -/
def eSel (ty a b c : Nat) : Nat :=
  let x := if c ≠ 0 then a else b
  if ty = 2 then x else flt2 ty (fun v _ => v) x 0

/-- VEC.REDSUM: element 0, then the others in ascending index, each addition rounded to binary32. -/
def redSum (ty : Nat) (v : List (BitVec 32)) : Nat :=
  if ty = 2 then (v.map (·.toNat)).sum % 2 ^ 32
  else match laneElems ty v with
    | [] => 0
    | e :: es => enc 0 (es.foldl (fun s x => rn32 (vaddIeee s (decodeFmt (laneFmt ty) x))) (decodeFmt (laneFmt ty) e))
/-- VEC.REDMAX: greatest element. -/
def redMax (ty : Nat) (v : List (BitVec 32)) : Nat :=
  match laneElems ty v with
  | [] => 0
  | e :: es =>
    if ty = 2 then es.foldl (fun s x => eMax 2 s x 0) e
    else enc 0 (es.foldl (fun s x => vmax s (decodeFmt (laneFmt ty) x)) (decodeFmt (laneFmt ty) e))
/-- VEC.NFIN: number of NaN or infinite elements. -/
def nFin (ty : Nat) (v : List (BitVec 32)) : Nat :=
  ((laneElems ty v).filter (fun x => vNonfin (decodeFmt (laneFmt ty) x))).length

-- Fields of a VEC word (Table 3-16).

/-- TYPE -/
def vTy (w : Nat) : Nat := bits w 37 36
/-- A lane of the scalar operand. -/
def scalarLane (ty : Nat) (x : Word) : BitVec 32 :=
  if ty = 1 then BitVec.ofNat 32 (x.toNat % 65536 * 65537) else x.truncate 32
/-- A, B and C as read at issue. -/
def vA (t : LTile) (w : Nat) : List (BitVec 32) := t.vreg (bits w 25 21)
/-- B: register VB, or sSB in every lane. -/
def vB (t : LTile) (w : Nat) : List (BitVec 32) :=
  if bit w 38 then List.replicate 1024 (scalarLane (vTy w) (t.sreg (bits w 44 39))) else t.vreg (bits w 30 26)
/-- C -/
def vC (t : LTile) (w : Nat) : List (BitVec 32) := t.vreg (bits w 35 31)
/-- With BS = 1, VB is 0; with BS = 0, SB is unused. -/
def bsLegal (w : Nat) : Bool := if bit w 38 then decide (bits w 30 26 = 0) else decide (bits w 44 39 = 0)
/-- Registers that B reads. -/
def regsB (w : Nat) : List RegRef := if bit w 38 then [.s (bits w 44 39)] else [.v (bits w 30 26)]

/-- The vector unit's queue is full (Table 3-3). -/
def vecFull (t : LTile) (_ : Nat) : Bool := decide (32 ≤ t.vec.length)
/-- Queue an operation in the vector unit. -/
def vecAct (opc : Nat) (f : LTile → Nat → VecDo) (id p l w : Nat) (d : Device) : Device :=
  d.modLt p l (fun t => { t with vec := t.vec ++ [{ id := id, opc := opc, act := f t w }] })

/-- A VEC opcode with vector operands: `n` of A, B, C are used; `tys` are its types. -/
def opVec (opc n : Nat) (tys : List Nat) (f : Nat → Nat → Nat → Nat → Nat) : Op :=
  { cls := 5, opc := opc,
    used := [(37, 36), (25, 21), (20, 16)] ++ (if 2 ≤ n then [(44, 38), (30, 26)] else []) ++ (if n = 3 then [(35, 31)] else []),
    legal := fun w => tys.contains (vTy w) && (decide (n < 2) || bsLegal w),
    regs := fun w => [.v (bits w 25 21)] ++ (if 2 ≤ n then regsB w else []) ++ (if n = 3 then [.v (bits w 35 31)] else []),
    full := vecFull, skip := skipOne,
    act := unitAct (vecAct opc (fun t w => .reg (bits w 20 16)
      (List.zipWith (fun a bc => laneOp (vTy w) (f (vTy w)) a bc.1 bc.2) (vA t w) ((vB t w).zip (vC t w))))) }

/-- A VEC reduction into sSD (R87): bits [63:32] become 0. -/
def opRed (opc : Nat) (tys : List Nat) (f : Nat → List (BitVec 32) → Nat) : Op :=
  { cls := 5, opc := opc, used := [(54, 49), (37, 36), (25, 21)], legal := fun w => tys.contains (vTy w),
    regs := fun w => [.v (bits w 25 21)], full := vecFull, skip := skipOne,
    act := unitAct (vecAct opc (fun t w => .scal (bits w 54 49) (BitVec.ofNat 64 (f (vTy w) (vA t w) % 2 ^ 32)))) }

/-- Address check of VEC.LD and VEC.ST (R87). -/
def amCheck (d : Device) (p l w : Nat) : Bool :=
  (d.lt p l).isSpad (bits w 48 45) && decide (((d.lt p l).areg (bits w 48 45)).toNat % 64 = 0)
/-- VEC.LD -/
def opVecLd : Op :=
  { cls := 5, opc := 0x00, used := [(48, 45), (37, 36), (20, 16)], legal := fun w => decide (vTy w ≤ 2), full := vecFull,
    check := amCheck, skip := skipOne, act := unitAct (vecAct 0x00 (fun t w => .load (bits w 20 16) (t.areg (bits w 48 45)))) }
/-- VEC.ST -/
def opVecSt : Op :=
  { cls := 5, opc := 0x01, used := [(48, 45), (37, 36), (25, 21)], legal := fun w => decide (vTy w ≤ 2),
    regs := fun w => [.v (bits w 25 21)], full := vecFull, check := amCheck, skip := skipOne,
    act := unitAct (vecAct 0x01 (fun t w => .store (t.areg (bits w 48 45)) (vA t w))) }
/-- VEC.BCAST. DESIGN CHOICE (log 147): it keeps the bits of a NaN, as VEC.LD and VEC.ST do. -/
def opVecBcast : Op :=
  { cls := 5, opc := 0x13, used := [(44, 39), (37, 36), (20, 16)], legal := fun w => decide (vTy w ≤ 2),
    regs := fun w => [.s (bits w 44 39)], full := vecFull, skip := skipOne,
    act := unitAct (vecAct 0x13 (fun t w => .reg (bits w 20 16) (List.replicate 1024 (scalarLane (vTy w) (t.sreg (bits w 44 39)))))) }

/-- VEC.LD loads 4,096 bytes. -/
def execVecLd (p : Fin 8) (l : Fin 32) (w : BitVec 128) (s : State) : Host.Outcome State Fault Refusal :=
  onDev (issue opVecLd p l w) s
/-- VEC.ST stores 4,096 bytes. -/
def execVecSt (p : Fin 8) (l : Fin 32) (w : BitVec 128) (s : State) : Host.Outcome State Fault Refusal :=
  onDev (issue opVecSt p l w) s
/-- VEC.ADD: A + B. -/
def execVecAdd (p : Fin 8) (l : Fin 32) (w : BitVec 128) (s : State) : Host.Outcome State Fault Refusal :=
  onDev (issue (opVec 0x02 2 [0, 1, 2] eAdd) p l w) s
/-- VEC.SUB: A - B. -/
def execVecSub (p : Fin 8) (l : Fin 32) (w : BitVec 128) (s : State) : Host.Outcome State Fault Refusal :=
  onDev (issue (opVec 0x03 2 [0, 1, 2] eSub) p l w) s
/-- VEC.MUL: A * B. -/
def execVecMul (p : Fin 8) (l : Fin 32) (w : BitVec 128) (s : State) : Host.Outcome State Fault Refusal :=
  onDev (issue (opVec 0x04 2 [0, 1, 2] eMul) p l w) s
/-- VEC.FMA: A * B + C, rounded once. -/
def execVecFma (p : Fin 8) (l : Fin 32) (w : BitVec 128) (s : State) : Host.Outcome State Fault Refusal :=
  onDev (issue (opVec 0x05 3 [0, 1] eFma) p l w) s
/-- VEC.MAX: greater of A and B. -/
def execVecMax (p : Fin 8) (l : Fin 32) (w : BitVec 128) (s : State) : Host.Outcome State Fault Refusal :=
  onDev (issue (opVec 0x06 2 [0, 1, 2] eMax) p l w) s
/-- VEC.MIN: lesser of A and B. -/
def execVecMin (p : Fin 8) (l : Fin 32) (w : BitVec 128) (s : State) : Host.Outcome State Fault Refusal :=
  onDev (issue (opVec 0x07 2 [0, 1, 2] eMin) p l w) s
/-- VEC.ABS: abs(A). -/
def execVecAbs (p : Fin 8) (l : Fin 32) (w : BitVec 128) (s : State) : Host.Outcome State Fault Refusal :=
  onDev (issue (opVec 0x08 1 [0, 1, 2] eAbs) p l w) s
/-- VEC.NEG: -A. -/
def execVecNeg (p : Fin 8) (l : Fin 32) (w : BitVec 128) (s : State) : Host.Outcome State Fault Refusal :=
  onDev (issue (opVec 0x09 1 [0, 1, 2] eNeg) p l w) s
/-- VEC.EXP: e^A, correctly rounded. -/
def execVecExp (p : Fin 8) (l : Fin 32) (w : BitVec 128) (s : State) : Host.Outcome State Fault Refusal :=
  onDev (issue (opVec 0x0A 1 [0] eExp) p l w) s
/-- VEC.RCP: 1 / A, correctly rounded. -/
def execVecRcp (p : Fin 8) (l : Fin 32) (w : BitVec 128) (s : State) : Host.Outcome State Fault Refusal :=
  onDev (issue (opVec 0x0B 1 [0] eRcp) p l w) s
/-- VEC.RSQ: 1 / sqrt(A), correctly rounded. -/
def execVecRsq (p : Fin 8) (l : Fin 32) (w : BitVec 128) (s : State) : Host.Outcome State Fault Refusal :=
  onDev (issue (opVec 0x0C 1 [0] eRsq) p l w) s
/-- VEC.SQRT: sqrt(A). -/
def execVecSqrt (p : Fin 8) (l : Fin 32) (w : BitVec 128) (s : State) : Host.Outcome State Fault Refusal :=
  onDev (issue (opVec 0x0D 1 [0] eSqrt) p l w) s
/-- VEC.CMPLT: all ones where A < B. -/
def execVecCmplt (p : Fin 8) (l : Fin 32) (w : BitVec 128) (s : State) : Host.Outcome State Fault Refusal :=
  onDev (issue (opVec 0x0E 2 [0, 1, 2] eCmplt) p l w) s
/-- VEC.SEL: A where C is nonzero, else B. -/
def execVecSel (p : Fin 8) (l : Fin 32) (w : BitVec 128) (s : State) : Host.Outcome State Fault Refusal :=
  onDev (issue (opVec 0x0F 3 [0, 1, 2] eSel) p l w) s
/-- VEC.REDSUM: sSD = sum of the lanes. -/
def execVecRedsum (p : Fin 8) (l : Fin 32) (w : BitVec 128) (s : State) : Host.Outcome State Fault Refusal :=
  onDev (issue (opRed 0x10 [0, 1, 2] redSum) p l w) s
/-- VEC.REDMAX: sSD = greatest lane. -/
def execVecRedmax (p : Fin 8) (l : Fin 32) (w : BitVec 128) (s : State) : Host.Outcome State Fault Refusal :=
  onDev (issue (opRed 0x11 [0, 1, 2] redMax) p l w) s
/-- VEC.NFIN: sSD = number of NaN or infinite lanes. -/
def execVecNfin (p : Fin 8) (l : Fin 32) (w : BitVec 128) (s : State) : Host.Outcome State Fault Refusal :=
  onDev (issue (opRed 0x12 [0, 1] nFin) p l w) s
/-- VEC.BCAST: every lane = sSB. -/
def execVecBcast (p : Fin 8) (l : Fin 32) (w : BitVec 128) (s : State) : Host.Outcome State Fault Refusal :=
  onDev (issue opVecBcast p l w) s

/-- What a finished VEC operation does (R69). -/
def vecFinish (p l : Nat) (o : VecOp) (d : Device) : Device :=
  match o.act with
  | .reg vd ls => endOp (d.modLt p l (fun t => t.setV vd ls)) p l o.id
  | .scal sd v => endOp (d.modLt p l (fun t => t.setS sd v)) p l o.id
  | .load vd am =>
    let x := locOf am
    match d.readFault p x 4096 with
    | some c => tileFault (endOp d p l o.id) p l c
    | none =>
      let d := d.touch p l x 4096
      endOp (d.modLt p l (fun t => t.setV vd ((wordsOf 4 1024 (d.readAt p l x 4096)).map (BitVec.ofNat 32)))) p l o.id
  | .store am ls =>
    let x := locOf am
    match d.writeFault p x 4096 with
    | some c => tileFault (endOp d p l o.id) p l c
    | none => endOp ((d.writeAt p l x (ls.flatMap (fun v => toLe 4 v.toNat))).touch p l x 4096) p l o.id
  | .cvt .. => d

/-- A drop check has the vector unit of the tile that hosts a logical tile, or the whole tile, out of service (Table 15-4). -/
def Device.vectorOut (d : Device) (p l : Nat) : Bool := (d.hostOf p l).any (d.outOfService [2, 3, 4])
/-- The operation at the head of the vector unit's queue ends with what it met: `f`, or nothing more when an error of it cannot be corrected
(R367, R368). DESIGN CHOICE (log 127): such an operation ends as one that faults does, with nothing written and no post. -/
def vecEnd (p : Nat) (x : UnitEnd) (o : VecOp) (os : List VecOp) (f : Device → Device) (d : Device) : Device :=
  let l := x.lt.val
  let d := tileFound (d.modLt p l (fun t => { t with vec := os })) p l o.opc x.found
  if findUe x.found then endOp d p l o.id else f d

/-- VEC_DONE: the operation at the head of the vector unit's queue, when it is a VEC one and the unit is in service. -/
def vecDone (p : Nat) (x : UnitEnd) (d : Device) : Device :=
  match (if d.vectorOut p x.lt then [] else (d.lt p x.lt).vec) with
  | [] => d
  | o :: os =>
    match o.act with
    | .cvt .. => d
    | _ => vecEnd p x o os (vecFinish p x.lt o) d
/-- VEC_DONE -/
def execVecDone (p : Fin 8) (x : UnitEnd) (s : State) : Host.Outcome State Fault Refusal := onDev (vecDone p x) s

-- CVT (Tables 3-17, 3-18).

/-- Format pairs of Table 3-17 by opcode. -/
def cvtPair (opc fs fd : Nat) : Bool :=
  let narrow (x : Nat) : Bool := decide (3 ≤ x) && decide (x ≤ 8)
  match opc with
  | 0 => decide (fs ≤ 2) && narrow fd
  | 1 => (decide (fs = 0) && decide (1 ≤ fd) && decide (fd ≤ 8)) || (decide (fs = 9) && decide (fd = 0))
  | 2 => (decide (1 ≤ fs) && decide (fs ≤ 8) && decide (fd = 0)) || (decide (fs = 0) && decide (fd = 9))
  | _ => (decide (fs = 0) && (decide (fd = 1) || decide (fd = 2))) || (decide (fs = 9) && decide (fd = 0))
/-- Is a narrow format involved? -/
def cvtNarrow (w : Nat) : Bool := scaled (bits w 41 38) || scaled (bits w 45 42)
/-- Element count. -/
def cvtCount (t : LTile) (w : Nat) : Nat := (t.sreg (bits w 37 32)).toNat

/-- Register-value rules of R88. -/
def cvtCheck (d : Device) (p l w : Nat) : Bool :=
  let t := d.lt p l
  let n := cvtCount t w
  let a := (t.areg (bits w 27 24)).toNat
  let b := (t.areg (bits w 31 28)).toNat
  let na := planeBytes (bits w 41 38) (bits w 47 46) 1 n
  let nb := planeBytes (bits w 45 42) (bits w 47 46) 1 n
  t.isSpad (bits w 27 24) && t.isSpad (bits w 31 28) && (!cvtNarrow w || decide (n % blockOf (bits w 47 46) = 0)) &&
  (decide (n = 0) || decide (a + na ≤ b) || decide (b + nb ≤ a)) &&
  (!(d.part p).compat || !cvtNarrow w || decide (bits w 47 46 = 1))

/-- A CVT as read at issue. -/
def cvtOf (opc : Nat) (t : LTile) (w : Nat) : VecDo :=
  .cvt opc (bits w 41 38) (bits w 45 42) (bits w 47 46) (cvtCount t w) (t.areg (bits w 27 24)) (t.areg (bits w 31 28))
    (t.sreg (bits w 53 48)).toNat (t.sreg (bits w 59 54)).toNat (cfOf w)

/-- A CVT opcode. -/
def opCvt (opc : Nat) : Op :=
  { cls := 6, opc := opc, used := [(47, 32), (31, 24), (22, 16)] ++ (if opc = 1 then [(59, 48)] else []),
    legal := fun w => cfLegal w && cvtPair opc (bits w 41 38) (bits w 45 42) && (cvtNarrow w || decide (bits w 47 46 = 0)),
    regs := fun w => [.s (bits w 37 32)] ++ (if opc = 1 then [.s (bits w 53 48), .s (bits w 59 54)] else []),
    full := vecFull, check := cvtCheck, skip := skipOne, act := unitAct (vecAct opc (cvtOf opc)) }

/-- CVT.BS: nearest-even with block scales. -/
def execCvtBs (p : Fin 8) (l : Fin 32) (w : BitVec 128) (s : State) : Host.Outcome State Fault Refusal :=
  onDev (issue (opCvt 0) p l w) s
/-- CVT.SR: stochastic rounding. -/
def execCvtSr (p : Fin 8) (l : Fin 32) (w : BitVec 128) (s : State) : Host.Outcome State Fault Refusal :=
  onDev (issue (opCvt 1) p l w) s
/-- CVT.UP: exact widening. -/
def execCvtUp (p : Fin 8) (l : Fin 32) (w : BitVec 128) (s : State) : Host.Outcome State Fault Refusal :=
  onDev (issue (opCvt 2) p l w) s
/-- CVT.RN: nearest-even narrowing. -/
def execCvtRn (p : Fin 8) (l : Fin 32) (w : BitVec 128) (s : State) : Host.Outcome State Fault Refusal :=
  onDev (issue (opCvt 3) p l w) s

/-- Bytes of n values written in a format with the layout of R132; `rs i` is the rounding of element i. -/
def cvtBytes (fd bsz : Nat) (vs : List Val) (rs : Nat → Rounding) : List Byte :=
  if scaled fd then
    let b := blockOf bsz
    let qs := (List.range (cdiv vs.length b)).map (fun k => quantize ((vs.drop (k * b)).take b) fd (fun i => rs (k * b + i)))
    let data := packElems fd (qs.flatMap (·.2))
    data ++ List.replicate (ceil64 data.length - data.length) 0#8 ++ qs.map (fun q => BitVec.ofNat 8 q.1)
  else packElems fd (vs.zipIdx.map (fun x => encodeFmt fd (vround (rfmt fd) (rs x.2) x.1)))

/-- A conversion writes its destination and posts (R66, R88). -/
def cvtFinish (p l id opc fs fd bsz n : Nat) (as ad : Word) (stid sidx : Nat) (cf : CF) (d : Device) : Device :=
  if n = 0 then complete d p l id cf
  else
    let x := locOf as
    let y := locOf ad
    let na := planeBytes fs bsz 1 n
    let nb := planeBytes fd bsz 1 n
    match d.readFault p x na with
    | some c => tileFault (endOp d p l id) p l c
    | none => match d.writeFault p y nb with
      | some c => tileFault (endOp d p l id) p l c
      | none =>
        let P := d.part p
        let d := d.touch p l x na
        let vs := (List.range n).map (elemAt (d.reader p l x) fs bsz 1 n 0)
        let rs (i : Nat) : Rounding := if opc = 1 then plyRounding P.compat P.seed P.step stid (sidx + i) else .nearest
        complete ((d.writeAt p l y (cvtBytes fd bsz vs rs)).touch p l y nb) p l id cf

/-- CVT_DONE: the operation at the head of the vector unit's queue, when it is a CVT one and the unit is in service. -/
def cvtDone (p : Nat) (x : UnitEnd) (d : Device) : Device :=
  match (if d.vectorOut p x.lt then [] else (d.lt p x.lt).vec) with
  | [] => d
  | o :: os =>
    match o.act with
    | .cvt opc fs fd bsz n as ad stid sidx cf => vecEnd p x o os (cvtFinish p x.lt o.id opc fs fd bsz n as ad stid sidx cf) d
    | _ => d
/-- CVT_DONE -/
def execCvtDone (p : Fin 8) (x : UnitEnd) (s : State) : Host.Outcome State Fault Refusal := onDev (cvtDone p x) s

end Sys2Proof.Machine
end

