-- ==== Sys2Proof/Machine/Dispatch.lean ====
section
/-! DEFINITION. One arm per command of the operation table: a direct call of its meaning. -/
namespace Sys2Proof.Machine

/-- The effect of a command on everything but the queue. -/
def exec (i : Instr) (s : State) : Host.Outcome State Fault Refusal :=
  match i with
  | .launch r => Sys2Proof.Machine.execLaunch r s
  | .abort r => Sys2Proof.Machine.execAbort r s
  | .alloc r => Sys2Proof.Machine.execAlloc r s
  | .free r => Sys2Proof.Machine.execFree r s
  | .put r => Sys2Proof.Machine.execPut r s
  | .get r => Sys2Proof.Machine.execGet r s
  | .query r => Sys2Proof.Machine.execQuery r s
  | .close r => Sys2Proof.Machine.execClose r s
  | .putEventPost p flow => Sys2Proof.Machine.execPutEventPost p flow s
  | .hostNotice p lt => Sys2Proof.Machine.execHostNotice p lt s
  | .workItemStart p => Sys2Proof.Machine.execWorkItemStart p s
  | .tileStop p lt => Sys2Proof.Machine.execTileStop p lt s
  | .ctlNop p lt w => Sys2Proof.Machine.execCtlNop p lt w s
  | .ctlBr p lt w => Sys2Proof.Machine.execCtlBr p lt w s
  | .ctlCall p lt w => Sys2Proof.Machine.execCtlCall p lt w s
  | .ctlRet p lt w => Sys2Proof.Machine.execCtlRet p lt w s
  | .ctlLoop p lt w => Sys2Proof.Machine.execCtlLoop p lt w s
  | .ctlSeam p lt w => Sys2Proof.Machine.execCtlSeam p lt w s
  | .ctlMovi p lt w => Sys2Proof.Machine.execCtlMovi p lt w s
  | .ctlSop p lt w => Sys2Proof.Machine.execCtlSop p lt w s
  | .ctlScmp p lt w => Sys2Proof.Machine.execCtlScmp p lt w s
  | .ctlAopSet p lt w => Sys2Proof.Machine.execCtlAopSet p lt w s
  | .ctlAopAdd p lt w => Sys2Proof.Machine.execCtlAopAdd p lt w s
  | .ctlAopGet p lt w => Sys2Proof.Machine.execCtlAopGet p lt w s
  | .syncPost p lt w => Sys2Proof.Machine.execSyncPost p lt w s
  | .syncWait p lt w => Sys2Proof.Machine.execSyncWait p lt w s
  | .syncRd p lt w => Sys2Proof.Machine.execSyncRd p lt w s
  | .eventPostArrive p lt => Sys2Proof.Machine.execEventPostArrive p lt s
  | .moveLd p lt w => Sys2Proof.Machine.execMoveLd p lt w s
  | .moveSt p lt w => Sys2Proof.Machine.execMoveSt p lt w s
  | .moveGather p lt w => Sys2Proof.Machine.execMoveGather p lt w s
  | .moveScatter p lt w => Sys2Proof.Machine.execMoveScatter p lt w s
  | .moveWin p lt w => Sys2Proof.Machine.execMoveWin p lt w s
  | .moveComplete p lt eng => Sys2Proof.Machine.execMoveComplete p lt eng s
  | .mmaOpen p lt w => Sys2Proof.Machine.execMmaOpen p lt w s
  | .mmaPass p lt w => Sys2Proof.Machine.execMmaPass p lt w s
  | .mmaConv p lt w => Sys2Proof.Machine.execMmaConv p lt w s
  | .mmaClose p lt w => Sys2Proof.Machine.execMmaClose p lt w s
  | .weightFlip p lt => Sys2Proof.Machine.execWeightFlip p lt s
  | .arrayPassDone p lt x => Sys2Proof.Machine.execArrayPassDone p lt x s
  | .mmaCloseDone p lt => Sys2Proof.Machine.execMmaCloseDone p lt s
  | .tensionLevelStep p x => Sys2Proof.Machine.execTensionLevelStep p x s
  | .grpWalk p lt w => Sys2Proof.Machine.execGrpWalk p lt w s
  | .grpUnitDeal p lt => Sys2Proof.Machine.execGrpUnitDeal p lt s
  | .grpWalkDone p lt => Sys2Proof.Machine.execGrpWalkDone p lt s
  | .vecLd p lt w => Sys2Proof.Machine.execVecLd p lt w s
  | .vecSt p lt w => Sys2Proof.Machine.execVecSt p lt w s
  | .vecAdd p lt w => Sys2Proof.Machine.execVecAdd p lt w s
  | .vecSub p lt w => Sys2Proof.Machine.execVecSub p lt w s
  | .vecMul p lt w => Sys2Proof.Machine.execVecMul p lt w s
  | .vecFma p lt w => Sys2Proof.Machine.execVecFma p lt w s
  | .vecMax p lt w => Sys2Proof.Machine.execVecMax p lt w s
  | .vecMin p lt w => Sys2Proof.Machine.execVecMin p lt w s
  | .vecAbs p lt w => Sys2Proof.Machine.execVecAbs p lt w s
  | .vecNeg p lt w => Sys2Proof.Machine.execVecNeg p lt w s
  | .vecExp p lt w => Sys2Proof.Machine.execVecExp p lt w s
  | .vecRcp p lt w => Sys2Proof.Machine.execVecRcp p lt w s
  | .vecRsq p lt w => Sys2Proof.Machine.execVecRsq p lt w s
  | .vecSqrt p lt w => Sys2Proof.Machine.execVecSqrt p lt w s
  | .vecCmplt p lt w => Sys2Proof.Machine.execVecCmplt p lt w s
  | .vecSel p lt w => Sys2Proof.Machine.execVecSel p lt w s
  | .vecRedsum p lt w => Sys2Proof.Machine.execVecRedsum p lt w s
  | .vecRedmax p lt w => Sys2Proof.Machine.execVecRedmax p lt w s
  | .vecNfin p lt w => Sys2Proof.Machine.execVecNfin p lt w s
  | .vecBcast p lt w => Sys2Proof.Machine.execVecBcast p lt w s
  | .cvtBs p lt w => Sys2Proof.Machine.execCvtBs p lt w s
  | .cvtSr p lt w => Sys2Proof.Machine.execCvtSr p lt w s
  | .cvtUp p lt w => Sys2Proof.Machine.execCvtUp p lt w s
  | .cvtRn p lt w => Sys2Proof.Machine.execCvtRn p lt w s
  | .cvtDone p x => Sys2Proof.Machine.execCvtDone p x s
  | .routeTopk p lt w => Sys2Proof.Machine.execRouteTopk p lt w s
  | .routeScan p lt w => Sys2Proof.Machine.execRouteScan p lt w s
  | .routeSort p lt w => Sys2Proof.Machine.execRouteSort p lt w s
  | .routeUnperm p lt w => Sys2Proof.Machine.execRouteUnperm p lt w s
  | .routeDone p x => Sys2Proof.Machine.execRouteDone p x s
  | .xchgSkein p lt w => Sys2Proof.Machine.execXchgSkein p lt w s
  | .xchgCable p lt w => Sys2Proof.Machine.execXchgCable p lt w s
  | .xchgFan p lt w => Sys2Proof.Machine.execXchgFan p lt w s
  | .skeinComplete p lt x => Sys2Proof.Machine.execSkeinComplete p lt x s
  | .cableComplete p lt x => Sys2Proof.Machine.execCableComplete p lt x s
  | .updApply p lt w => Sys2Proof.Machine.execUpdApply p lt w s
  | .updGauge p lt w => Sys2Proof.Machine.execUpdGauge p lt w s
  | .pwrTensionHold p lt w => Sys2Proof.Machine.execPwrTensionHold p lt w s
  | .pwrTensionRamp p lt w => Sys2Proof.Machine.execPwrTensionRamp p lt w s
  | .pwrTensionRelease p lt w => Sys2Proof.Machine.execPwrTensionRelease p lt w s
  | .pwrHint p lt w => Sys2Proof.Machine.execPwrHint p lt w s
  | .timesliceExpiry t => Sys2Proof.Machine.execTimesliceExpiry t s
  | .tileSwitchDone t => Sys2Proof.Machine.execTileSwitchDone t s
  | .slotGrant p => Sys2Proof.Machine.execSlotGrant p s
  | .gaugeContribution x => Sys2Proof.Machine.execGaugeContribution x s
  | .gauge m => Sys2Proof.Machine.execGauge m s
  | .seamRecord p => Sys2Proof.Machine.execSeamRecord p s
  | .seamWorkDone x => Sys2Proof.Machine.execSeamWorkDone x s
  | .ledgerBlockWrite p shard found => Sys2Proof.Machine.execLedgerBlockWrite p shard found s
  | .seg m => Sys2Proof.Machine.execSeg m s
  | .restart m => Sys2Proof.Machine.execRestart m s
  | .finish m => Sys2Proof.Machine.execFinish m s
  | .held m => Sys2Proof.Machine.execHeld m s
  | .head m => Sys2Proof.Machine.execHead m s
  | .rows m => Sys2Proof.Machine.execRows m s
  | .void m => Sys2Proof.Machine.execVoid m s
  | .chindData k => Sys2Proof.Machine.execChindData k s
  | .chindAck k => Sys2Proof.Machine.execChindAck k s
  | .chindProbe k => Sys2Proof.Machine.execChindProbe k s
  | .chindOpen k => Sys2Proof.Machine.execChindOpen k s
  | .chindOpenAck k => Sys2Proof.Machine.execChindOpenAck k s
  | .chindOpenNak k => Sys2Proof.Machine.execChindOpenNak k s
  | .chindClose k => Sys2Proof.Machine.execChindClose k s
  | .chindHello k => Sys2Proof.Machine.execChindHello k s
  | .chindWake k => Sys2Proof.Machine.execChindWake k s
  | .neighborSolicitation port target found => Sys2Proof.Machine.execNeighborSolicitation port target found s
  | .ackDelay flow => Sys2Proof.Machine.execAckDelay flow s
  | .rtoExpiry flow => Sys2Proof.Machine.execRtoExpiry flow s
  | .flowDead flow => Sys2Proof.Machine.execFlowDead flow s
  | .linkUp port => Sys2Proof.Machine.execLinkUp port s
  | .linkDown port => Sys2Proof.Machine.execLinkDown port s
  | .portDrainDone port => Sys2Proof.Machine.execPortDrainDone port s
  | .portFecBurst port => Sys2Proof.Machine.execPortFecBurst port s
  | .swatchCopyDone x => Sys2Proof.Machine.execSwatchCopyDone x s
  | .swatchDataSend x => Sys2Proof.Machine.execSwatchDataSend x s
  | .swatchAck a => Sys2Proof.Machine.execSwatchAck a s
  | .retrainWindow ms => Sys2Proof.Machine.execRetrainWindow ms s
  | .retrainDone stack ch ok => Sys2Proof.Machine.execRetrainDone stack ch ok s
  | .rowRepairDone copy => Sys2Proof.Machine.execRowRepairDone copy s
  | .patrolRead stack found => Sys2Proof.Machine.execPatrolRead stack found s
  | .scrubStart stack => Sys2Proof.Machine.execScrubStart stack s
  | .scrubDone stack => Sys2Proof.Machine.execScrubDone stack s
  | .dropCheckStart => Sys2Proof.Machine.execDropCheckStart s
  | .dropCheckVerdict seq fails => Sys2Proof.Machine.execDropCheckVerdict seq fails s
  | .errorLogCommit => Sys2Proof.Machine.execErrorLogCommit s
  | .fabricRetryExhausted die link => Sys2Proof.Machine.execFabricRetryExhausted die link s
  | .powerEntryRequest d who => Sys2Proof.Machine.execPowerEntryRequest d who s
  | .entryStepDone d => Sys2Proof.Machine.execEntryStepDone d s
  | .wakeSource d code => Sys2Proof.Machine.execWakeSource d code s
  | .exitPhaseDone x => Sys2Proof.Machine.execExitPhaseDone x s
  | .tileIdleTimer t => Sys2Proof.Machine.execTileIdleTimer t s
  | .stackIdleTimer stack => Sys2Proof.Machine.execStackIdleTimer stack s
  | .portIdleTimer port => Sys2Proof.Machine.execPortIdleTimer port s
  | .refusalReevaluate d => Sys2Proof.Machine.execRefusalReevaluate d s
  | .capWindow watts vin iin => Sys2Proof.Machine.execCapWindow watts vin iin s
  | .sensorSample x => Sys2Proof.Machine.execSensorSample x s
  | .meterRecord energy mw x => Sys2Proof.Machine.execMeterRecord energy mw x s
  | .meterPulseEnd => Sys2Proof.Machine.execMeterPulseEnd s
  | .meterCalibration => Sys2Proof.Machine.execMeterCalibration s
  | .meterInputLoss energy => Sys2Proof.Machine.execMeterInputLoss energy s
  | .keyEpochRollover p => Sys2Proof.Machine.execKeyEpochRollover p s
  | .keyDerivationDone die => Sys2Proof.Machine.execKeyDerivationDone die s
  | .passageStepDone => Sys2Proof.Machine.execPassageStepDone s
  | .partitionCleansed p => Sys2Proof.Machine.execPartitionCleansed p s
  | .partitionErased p => Sys2Proof.Machine.execPartitionErased p s
  | .weneusHello m => Sys2Proof.Machine.execWeneusHello m s
  | .weneusResponse m => Sys2Proof.Machine.execWeneusResponse m s
  | .weneusRead m => Sys2Proof.Machine.execWeneusRead m s
  | .weneusWrite m => Sys2Proof.Machine.execWeneusWrite m s
  | .swap via => Sys2Proof.Machine.execSwap via s
  | .cancel via => Sys2Proof.Machine.execCancel via s
  | .revert via => Sys2Proof.Machine.execRevert via s
  | .telemetry m => Sys2Proof.Machine.execTelemetry m s
  | .logRead m => Sys2Proof.Machine.execLogRead m s
  | .logClear m => Sys2Proof.Machine.execLogClear m s
  | .enterService m => Sys2Proof.Machine.execEnterService m s
  | .enterAdmitted m => Sys2Proof.Machine.execEnterAdmitted m s
  | .attest m => Sys2Proof.Machine.execAttest m s
  | .keyInstall m => Sys2Proof.Machine.execKeyInstall m s
  | .setRoleKey m => Sys2Proof.Machine.execSetRoleKey m s
  | .setCak m => Sys2Proof.Machine.execSetCak m s
  | .raiseSvn m => Sys2Proof.Machine.execRaiseSvn m s
  | .getCert m => Sys2Proof.Machine.execGetCert m s
  | .fwBegin m => Sys2Proof.Machine.execFwBegin m s
  | .fwData m => Sys2Proof.Machine.execFwData m s
  | .fwEnd m => Sys2Proof.Machine.execFwEnd m s
  | .test via => Sys2Proof.Machine.execTest via s
  | .selfTestDone => Sys2Proof.Machine.execSelfTestDone s
  | .warmReset m => Sys2Proof.Machine.execWarmReset m s
  | .fullReset m => Sys2Proof.Machine.execFullReset m s
  | .meterRead m => Sys2Proof.Machine.execMeterRead m s
  | .weneusClose m => Sys2Proof.Machine.execWeneusClose m s
  | .sessionTimeout session => Sys2Proof.Machine.execSessionTimeout session s
  | .lockoutExpiry role part => Sys2Proof.Machine.execLockoutExpiry role part s
  | .alertClear => Sys2Proof.Machine.execAlertClear s
  | .shadowWrite addr value => Sys2Proof.Machine.execShadowWrite addr value s
  | .registerWrite addr value => Sys2Proof.Machine.execRegisterWrite addr value s
  | .startupStepDone r => Sys2Proof.Machine.execStartupStepDone r s
  | .vinRise mv => Sys2Proof.Machine.execVinRise mv s
  | .vinLow mv => Sys2Proof.Machine.execVinLow mv s
  | .vinOver mv => Sys2Proof.Machine.execVinOver mv s
  | .resetNFall => Sys2Proof.Machine.execResetNFall s
  | .resetNRise straps => Sys2Proof.Machine.execResetNRise straps s
  | .testEnRise => Sys2Proof.Machine.execTestEnRise s
  | .testEnFall => Sys2Proof.Machine.execTestEnFall s
  | .tapReset => Sys2Proof.Machine.execTapReset s
  | .extest cells => Sys2Proof.Machine.execExtest cells s
  | .samplePreload cells => Sys2Proof.Machine.execSamplePreload cells s
  | .idcode => Sys2Proof.Machine.execIdcode s
  | .usercode => Sys2Proof.Machine.execUsercode s
  | .tlaneaTest code => Sys2Proof.Machine.execTlaneaTest code s
  | .bypass code => Sys2Proof.Machine.execBypass code s
  | .vecDone p x => Sys2Proof.Machine.execVecDone p x s
  | .tensionHoldEnd p lt => Sys2Proof.Machine.execTensionHoldEnd p lt s
  | .overVoltageLockoutEnd mv => Sys2Proof.Machine.execOverVoltageLockoutEnd mv s
  | .meterStart fw fwVer sig => Sys2Proof.Machine.execMeterStart fw fwVer sig s
  | .meterSelfCheck found => Sys2Proof.Machine.execMeterSelfCheck found s
  | .metPulseStart => Sys2Proof.Machine.execMetPulseStart s
  | .mka port icvOk pdu => Sys2Proof.Machine.execMka port icvOk pdu s

end Sys2Proof.Machine
end

