-- ==== Sys2Proof/Safety.lean ====
section
/-! DEFINITION. What claims say of a run: that it goes on, and the canonical form every state keeps its tables in. -/
namespace Sys2Proof.Machine

/-- The step at `s` answers a next state: it neither faults nor refuses. -/
def State.goesOn (s : State) : Prop := ∃ t, step s = .next t

/-- `k` steps from `s` on all answer a next state. -/
def State.runsFor : Nat → State → Prop
  | 0, _ => True
  | k + 1, s => ∃ t, step s = .next t ∧ t.runsFor k

/-- The state with another device. -/
def State.withDev (s : State) (d : Device) : State := { s with dev := d }

/-- The state with a logical tile replaced. -/
def State.withLt (s : State) (p l : Nat) (t : LTile) : State := s.withDev (s.dev.setLt p l t)

/-- A logical tile as an instruction it issues finds it: it holds nothing back. -/
def State.tileAt (s : State) (p l : Nat) : LTile := { s.dev.lt p l with hold := none }

/-- A request reaches the endpoint in SERVICE for a partition with its keys, stands behind no other on its flow, waits for no stack whose
tables its checks read, and passes its checks (R23, R26, R346). -/
def Device.accepts (d : Device) (typ : Nat) (r : Req) : Prop :=
  d.rd fMode = 2 ∧ d.rd (fPartState r.part) = 3 ∧ d.flowWaits r = false ∧ d.launchWaits typ r = false ∧
  firstFail (headChecks typ r ++ stateChecks typ r d) = 0

/-- Memory behind handles and scratchpads stand in their canonical form. -/
def State.canonical (s : State) : Prop := mwf s.dev.mem = true ∧ mwf s.dev.spad = true

/-- A packet with its payload as its flow takes it: in SERVICE as the key in its envelope's slot decrypts it (R320). -/
def Device.inside (d : Device) (k : Packet) : Packet :=
  match (if d.rd fMode = 2 then k.env.bind (d.slotFor (d.flow k.dstFlow.toNat)) else none) with
  | none => k
  | some s => openPacket k (d.slotKeys s)

/-- A packet reaches its flow context: the port hears it, no check of R284 drops it, and in SERVICE its envelope opens with a
derived key (R321). -/
def Device.takes (d : Device) (typ : Nat) (k : Packet) : Prop :=
  let c := d.flow k.dstFlow.toNat
  d.portHears k.port.val = true ∧ (d.port k.port.val).wakeFirst = false ∧ frameOk d k = true ∧ d.rd fMode ≠ 1 ∧ c.st ≠ .free ∧
  (c.st = .listen ∨ k.incarn = c.incarn) ∧
  (d.rd fMode = 2 → ∃ e s, k.env = some e ∧ (d.part c.part).ts ≠ [] ∧ envFields c e = true ∧
    d.slotFor c e = some s ∧ s.ready = true ∧ e.tag = envTag (d.slotKeys s) e (packetHeader typ k) (d.inside k).payload)

/-- The device once MACsec has counted a packet's number, in ADMITTED, or its envelope has been opened, in SERVICE. -/
def Device.unsealed (d : Device) (typ : Nat) (k : Packet) : Device :=
  openEnvelope typ k k.dstFlow.toNat (fun _ e => e) (takePn d k.port.val k.pn.toNat)

/-- A Weneus request of open session `x` passes every check that comes before its own (R396 to R398). -/
def Device.asked (d : Device) (typ : Nat) (roles : List Nat) (adm : Bool) (m : WenMsg) (x : Sess) : Prop :=
  d.session m.session = some x ∧ d.mgtTakes m = true ∧ m.ver = 1 ∧ x.opened = true ∧ m.body.length ≤ 4096 ∧
  m.tag = Config.gcmTag x.kcd (wenNonce x.id.toNat m.seq.toNat) (headerOf typ m) (x.plain m).body ∧ m.seq.toNat = x.seq + 1 ∧
  (x.last.isSome = true ∨ x.seq = 0) ∧ gateCode d m x typ roles adm = 0

/-- The device with the request outstanding (R397). -/
def Device.begun (d : Device) (m : WenMsg) (x : Sess) : Device := modSess d x.id (fun y => { y with seq := m.seq.toNat, last := none })

/-- What holds of the meter whatever it is told: its register fits 64 bits, it has given no pulse the register does not call for
(R361), and what it has committed lies behind it, and at it while the meter does not run (R360). -/
def Meter.sound (m : Meter) : Prop :=
  m.energy < 2 ^ 64 ∧ m.pulses ≤ pulsesAt m.energy ∧ m.nv.energy ≤ m.energy ∧ m.nv.seq ≤ m.seq ∧ m.nv.pulses ≤ m.pulses ∧
  m.nv.pulses ≤ m.nv.energy / 360000 ∧ (m.running = false → m.nv = ⟨m.energy, m.seq, m.pulses⟩)

end Sys2Proof.Machine
end

