-- ==== Sys2Proof/Certificates/Slice0/Obligations.lean ====
section
/-! DEFINITION. Statements about the A32 for the provers. -/
open Sys2Proof Sys2Proof.Machine

/-- A step takes the command at the front of the queue and is `exec` of it on the machine with the queue's rest. -/
def Obligations.StepRunsTheFrontCommand : Prop :=
  ∀ (c : Instr) (s : State), step { s with pending := c :: s.pending } = exec c s

/-- Whatever the command and the state, the machine goes on: no command ends in a fault or a refusal (the model's choice, log entry 4), and
none touches the queue. -/
def Obligations.EveryCommandGoesOn : Prop :=
  ∀ (c : Instr) (s : State), ∃ t, exec c s = .next t ∧ t.pending = s.pending

/-- Instructions that write one register of their logical tile: MOVI, SOP, SCMP, the three AOPs and SYNC.RD (R70, R72, R76).
Nothing else of the machine changes. -/
def Obligations.RegisterInstructionsWriteOneRegister : Prop :=
  ∀ (p : Fin 8) (l : Fin 32) (w : BitVec 128) (s : State),
    let t := s.tileAt p l
    (s.dev.issues opMovi p l w = true → exec (.ctlMovi p l w) s = .next (s.withLt p l
      (t.setS (bits w.toNat 21 16) (BitVec.ofNat 64 (bits w.toNat 87 24))).advance)) ∧
    (s.dev.issues opSop p l w = true → exec (.ctlSop p l w) s = .next (s.withLt p l
      (t.setS (bits w.toNat 21 16) (sop (bits w.toNat 39 36) (t.sreg (bits w.toNat 27 22)) (sopB t w.toNat))).advance)) ∧
    (s.dev.issues opScmp p l w = true → exec (.ctlScmp p l w) s = .next (s.withLt p l
      (t.setS 63 (putPred (t.sreg 63) (bits w.toNat 18 16)
        (scond (bits w.toNat 39 36) (t.sreg (bits w.toNat 27 22)) (sopB t w.toNat)))).advance)) ∧
    (s.dev.issues opAopSet p l w = true → exec (.ctlAopSet p l w) s = .next (s.withLt p l
      (t.setA (bits w.toNat 19 16) (t.sreg (bits w.toNat 29 24))).advance)) ∧
    (s.dev.issues opAopAdd p l w = true → exec (.ctlAopAdd p l w) s = .next (s.withLt p l
      (t.setA (bits w.toNat 19 16) (aopSum (t.areg (bits w.toNat 23 20))
        (if bit w.toNat 30 then bits w.toNat 67 36 else (t.sreg (bits w.toNat 29 24)).toNat % 2 ^ 32))).advance)) ∧
    (s.dev.issues opAopGet p l w = true → exec (.ctlAopGet p l w) s = .next (s.withLt p l
      (t.setS (bits w.toNat 29 24) (t.areg (bits w.toNat 23 20))).advance)) ∧
    (s.dev.issues opRd p l w = true → exec (.syncRd p l w) s = .next (s.withLt p l
      (t.setS (bits w.toNat 27 22) (BitVec.ofNat 64 (tget 0 t.ctr (bits w.toNat 21 16)).toNat)).advance))

/-- The sequencer's flow: NOP goes to the next word, BR to its target, CALL pushes the next word's offset, RET pops one
(R70, R73, R74). Nothing but the logical tile's flow state changes. -/
def Obligations.FlowInstructionsMoveThePc : Prop :=
  ∀ (p : Fin 8) (l : Fin 32) (w : BitVec 128) (s : State),
    let t := s.tileAt p l
    (s.dev.issues opNop p l w = true → exec (.ctlNop p l w) s = .next (s.withLt p l t.advance)) ∧
    (s.dev.issues opBr p l w = true →
      exec (.ctlBr p l w) s = .next (s.withLt p l (t.branch (branchTarget t.pc w.toNat)))) ∧
    (s.dev.issues opCall p l w = true → exec (.ctlCall p l w) s = .next (s.withLt p l
      { t with calls := (t.pc + 16) :: t.calls, pc := branchTarget t.pc w.toNat })) ∧
    (∀ r rs, t.calls = r :: rs → s.dev.issues opRet p l w = true → exec (.ctlRet p l w) s = .next (s.withLt p l
      { t with calls := rs, pc := r, loops := t.loops.filter (fun k => decide (k.level ≠ rs.length + 1)) }))

/-- CTL.LOOP with a count of at least 1 opens a loop over the next BODY words, with count 0 passes over them (R74);
CTL.SEAM holds the logical tile at the seam and, as a SYNC.WAIT that blocks, lets the physical tile switch to its other one when that is
ready (R43, R75), which wakes the stack of its save area (R345); PWR.HINT IDLE marks the tile (R92). -/
def Obligations.LoopSeamAndHint : Prop :=
  ∀ (p : Fin 8) (l : Fin 32) (w : BitVec 128) (s : State),
    let t := s.tileAt p l
    (s.dev.issues opLoop p l w = true → loopCount t w.toNat ≠ 0 → exec (.ctlLoop p l w) s = .next (s.withLt p l
      { t with pc := t.pc + 16, loops := ⟨t.pc + 16, t.pc + 16 * bits w.toNat 79 56, loopCount t w.toNat - 1,
        t.calls.length⟩ :: t.loops })) ∧
    (s.dev.issues opLoop p l w = true → loopCount t w.toNat = 0 →
      exec (.ctlLoop p l w) s = .next (s.withLt p l (t.leave (t.pc + 16 * bits w.toNat 79 56)))) ∧
    (∀ h, s.dev.issues opSeam p l w = true → s.dev.hostOf p l = some h →
      let d := s.dev.setLt p l { t.advance with block := .seam (bits w.toNat 21 16) }
      (s.dev.otherReady p h l = none → exec (.ctlSeam p l w) s = .next (s.withDev d)) ∧
      (s.dev.otherReady p h l ≠ none → exec (.ctlSeam p l w) s = .next (s.withDev (let x := 32 + s.dev.saveStack h
        wakeDom (refuseDom (d.modTile h (fun x => { x with switching := true })) x Refuser.place.num) x 5)))) ∧
    (s.dev.issues opHint p l w = true → exec (.pwrHint p l w) s = .next (s.withLt p l { t.advance with hinted := true }))

/-- What the sequencer does with a word it cannot issue (R63, R64, R69, R73): beyond the program it faults BOUNDS, a word
that fails decoding faults ILLEGAL_INSTR, one whose predicate is false is passed over, one that reads a register still to be
written, or whose unit's queue is full, is held and changes nothing but the mark (the model's reading, log entry 13); one whose unit reads memory
that does not serve is held and wakes it (R346; that a unit reads memory at issue is the model's choice, log entries 16 and 124). -/
def Obligations.WordsThatDoNotIssue : Prop :=
  ∀ (o : Op) (p l : Nat) (w : BitVec 128) (d : Device), d.canIssue p l = true →
    ((d.part p).sizeOf (d.part p).prog ≤ (d.lt p l).pc → issue o p l w d = tileFault d p l .bounds) ∧
    ((d.lt p l).pc < (d.part p).sizeOf (d.part p).prog →
      (o.legalWord w = false → issue o p l w d = tileFault d p l .illegalInstr) ∧
      (o.legalWord w = true → (d.lt p l).pendingRegs = [] →
        ((d.lt p l).takes (o.word w) = false →
          issue o p l w d = d.setLt p l { o.skip (o.word w) (d.lt p l) with hold := none }) ∧
        ((d.lt p l).takes (o.word w) = true → o.full (d.lt p l) (o.word w) = true →
          issue o p l w d = d.setLt p l { d.lt p l with hold := some .queueFull }) ∧
        ((d.lt p l).takes (o.word w) = true → o.full (d.lt p l) (o.word w) = false →
          o.check d p l (o.word w) = false → issue o p l w d = tileFault d p l .illegalInstr) ∧
        ((d.lt p l).takes (o.word w) = true → o.full (d.lt p l) (o.word w) = false → o.check d p l (o.word w) = true →
          o.served d p l (o.word w) = false → issue o p l w d =
            wakeAll (d.setLt p l { d.lt p l with hold := some .memory }) p (o.needs d p l (o.word w)) (if o.cls = 9 then 6 else 4))) ∧
      (o.legalWord w = true → bits (o.word w) 14 12 = 0 → (d.lt p l).takes (o.word w) = true →
        (d.lt p l).waits (o.regs (o.word w)) = true →
          issue o p l w d = d.setLt p l { d.lt p l with hold := some .register }))

/-- SYNC.WAIT goes on when the counter has reached the target and otherwise blocks, on a physical tile whose other logical tile is
ready with a switch to it (R43, R49); SYNC.POST is queued behind the stores issued before it (R48, R77); its increment arrives at a counter
of an ON tile once they are visible. A tile's oldest post arrives once the stores before it are visible,
whatever stands behind it (the model's choice, log entry 113). An increment adds to its counter and frees a SYNC.WAIT whose target it reaches; one that would carry past 0xFFFF_FFFF
leaves the counter as it is and records EVT_OVERFLOW, a fault of the logical tiles whose instructions posted it (R49, R56). No other counter of the logical tile changes. -/
def Obligations.CountersWaitPostAndOverflow : Prop :=
  (∀ (p : Fin 8) (l : Fin 32) (w : BitVec 128) (s : State),
     let t := s.tileAt p l
     (s.dev.issues opWait p l w = true → waitTarget t w.toNat ≤ (tget 0 t.ctr (bits w.toNat 21 16)).toNat →
       exec (.syncWait p l w) s = .next (s.withLt p l t.advance)) ∧
     (∀ h, s.dev.issues opWait p l w = true → (tget 0 t.ctr (bits w.toNat 21 16)).toNat < waitTarget t w.toNat →
       s.dev.hostOf p l = some h →
       let d := s.dev.setLt p l { t.advance with block := .wait (bits w.toNat 21 16) (waitTarget t w.toNat) }
       (s.dev.otherReady p h l = none → exec (.syncWait p l w) s = .next (s.withDev d)) ∧
       (s.dev.otherReady p h l ≠ none → exec (.syncWait p l w) s = .next (s.withDev (let x := 32 + s.dev.saveStack h
         wakeDom (refuseDom (d.modTile h (fun x => { x with switching := true })) x Refuser.place.num) x 5)))) ∧
     (let q : Post :=
       { host := decide (bits w.toNat 23 16 = 0xFF), tgt := bits w.toNat 23 16, ctr := bits w.toNat 29 24,
         inc := bits w.toNat 47 32, value := (t.sreg (bits w.toNat 53 48)).truncate 32, waits := t.stores }
      s.dev.issues opPost p l w = true → exec (.syncPost p l w) s = .next (s.withLt p l
       { t.advance with posts := t.posts ++ [q] })) ∧
     (∀ (q : Post) (qs : List Post) (h : Nat), let u := s.dev.lt p l
       u.posts = q :: qs → q.host = false → q.waits = [] → (s.dev.part p).isRunning = true →
       s.dev.hostOf p q.tgt = some h → s.dev.domOn h = true →
       s.dev.tileOut h = false → exec (.eventPostArrive p l) s = .next (s.withDev
         (bumpCounter (s.dev.setLt p l { u with posts := qs }) [l.val] p q.tgt q.ctr q.inc)))) ∧
  (∀ (d : Device) (src : List Nat) (p l c n : Nat), let v := (tget 0 (d.lt p l).ctr c).toNat
     (v + n ≤ 0xFFFFFFFF →
       (tget 0 ((bumpCounter d src p l c n).lt p l).ctr c).toNat = v + n ∧
       (∀ k, k ≠ c → tget 0 ((bumpCounter d src p l c n).lt p l).ctr k = tget 0 (d.lt p l).ctr k) ∧
       (∀ g, (d.lt p l).block = .wait c g →
         ((bumpCounter d src p l c n).lt p l).block = if g ≤ v + n then .none else .wait c g)) ∧
     (0xFFFFFFFF < v + n → bumpCounter d src p l c n = tilesFault d p src .evtOverflow))

/-- Array current (R92, R110): HOLD sets its cycles, RAMP starts a climb below full, RELEASE begins the ramp-down of a gap at
full level, and otherwise marks the next one; TENSION_HOLD_END ends a HOLD; TENSION_LEVEL_STEP takes one step of Table 4-5, down in a gap
and up while a ready pass waits (R109). Registers and memory stay. -/
def Obligations.TensionCommands : Prop :=
  ∀ (p : Fin 8) (l : Fin 32) (w : BitVec 128) (s : State) (h : Nat), s.dev.hostOf p l = some h →
    let t := s.tileAt p l
    (s.dev.issues opTHold p l w = true → exec (.pwrTensionHold p l w) s = .next (s.withDev
      ((s.dev.setLt p l t.advance).modTile h (fun x => { x with holdCyc := bits w.toNat 39 24 })))) ∧
    (s.dev.issues opTRamp p l w = true → exec (.pwrTensionRamp p l w) s = .next (s.withDev
      ((s.dev.setLt p l t.advance).modTile h (fun x => { x with ramping := decide (x.level < 4) })))) ∧
    (s.dev.issues opTRelease p l w = true →
      (s.dev.arraysBusy p l = false → (s.dev.tile h).level = 4 →
        exec (.pwrTensionRelease p l w) s = .next (s.withDev ((s.dev.setLt p l t.advance).modTile h
          (fun x => { x with level := 3, gap := 64, holdCyc := 0, ramping := false })))) ∧
      ((s.dev.arraysBusy p l = true ∨ (s.dev.tile h).level ≠ 4) →
        exec (.pwrTensionRelease p l w) s = .next (s.withDev ((s.dev.setLt p l t.advance).modTile h
          (fun x => { x with release := true, holdCyc := 0, ramping := false }))))) ∧
    exec (.tensionHoldEnd p l) s = .next (s.withDev (s.dev.modTile h (fun x => { x with holdCyc := 0 }))) ∧
    (let y := s.dev.tile h
     ∀ bad, y.run = l.val → s.dev.domOn h = true → s.dev.arraysOut h = false → s.dev.arraysBusy p l = false →
      (s.dev.passWaits p l = false → y.holdCyc = 0 → y.ramping = false →
        ∃ d, exec (.tensionLevelStep p ⟨l, bad⟩) s = .next (s.withDev d) ∧ (d.tile h).gap = min (y.gap + 64) 256 ∧
          (d.tile h).level = 4 - min (y.gap + 64) 256 / 64 ∧ d.lts = s.dev.lts ∧ d.mem = s.dev.mem) ∧
      (s.dev.passWaits p l = true → y.level < 4 →
        ∃ d, exec (.tensionLevelStep p ⟨l, bad⟩) s = .next (s.withDev d) ∧ (d.tile h).level = y.level + 1 ∧
          d.lts = s.dev.lts ∧ d.mem = s.dev.mem))

/-- Two logical tiles on one physical tile (R43): the end of a time slice starts a switch to a hosted logical tile that
does not wait, which wakes the stack of its save area (R345), and the switch completes once the outgoing one's array operations are done and
that stack serves (R346), and what waited goes on; it is counted. -/
def Obligations.HostedTilesSwitch : Prop :=
  ∀ (t : Fin 32) (s : State) (p a b : Nat), let x := s.dev.tile t
    x.part = some p → x.hosted = [a, b] → a ≠ b → x.run = a →
    ((s.dev.part p).isRunning = true → s.dev.hostOf p a = some t.val → x.switching = false →
      (s.dev.lt p b).block = .none → exec (.timesliceExpiry t) s = .next (s.withDev (let x := 32 + s.dev.saveStack t
        wakeDom (refuseDom (s.dev.modTile t (fun x => { x with switching := true })) x Refuser.place.num) x 5))) ∧
    (x.switching = true → (s.dev.lt p a).arr = [] → s.dev.canSave p t = true → ∃ d, exec (.tileSwitchDone t) s = .next (s.withDev (retryAll d)) ∧
      (d.tile t).run = b ∧ (d.tile t).switching = false ∧
      d.rd (fSwitches t) = min (s.dev.rd (fSwitches t) + 1) 65535 ∧ d.mem = s.dev.mem ∧ d.spad = s.dev.spad) ∧
    (x.switching = true → (s.dev.lt p a).arr = [] → s.dev.canSave p t = false →
      exec (.tileSwitchDone t) s = .next (s.withDev (retryAll (wakeDom s.dev (32 + s.dev.saveStack t) 5))))

/-- A MOVE that issues reads its registers then and joins its engine's queue (R65, R78); an engine whose next operation is
a MOVE.WIN is armed with it (R80). A MOVE at the head of its engine, which no grouped walk uses (R119), on a tile in service (R371), whose stacks serve and are its own partition's and whose source
no update is to be awaited of (R226), moves its rows in ascending order and, when none faults, completes (R78, R79). -/
def Obligations.MovesJoinTheirEngineAndComplete : Prop :=
  (∀ (p : Fin 8) (l : Fin 32) (w : BitVec 128) (s : State),
     let t := s.tileAt p l
     let e := bits w.toNat 26 24
     let queued (kind : Nat) : State := s.withDev (armEngine (s.dev.setLt p l
       (({ t.advance with nextOp := t.nextOp + 1 } : LTile).setQueue e (t.queue e ++ [moveOf kind t.nextOp t w.toNat]))) p l e)
     (s.dev.issues (opMove 0) p l w = true → exec (.moveLd p l w) s = .next (queued 0)) ∧
     (s.dev.issues (opMove 1) p l w = true → exec (.moveSt p l w) s = .next (queued 1)) ∧
     (s.dev.issues (opMove 2) p l w = true → exec (.moveGather p l w) s = .next (queued 2)) ∧
     (s.dev.issues (opMove 3) p l w = true → exec (.moveScatter p l w) s = .next (queued 3)) ∧
     (s.dev.issues (opMove 4) p l w = true → exec (.moveWin p l w) s = .next (queued 4))) ∧
  (∀ (p : Fin 8) (l : Fin 32) (e : Fin 8) (s : State) (m : MoveOp) (q : List MoveOp),
     let t := s.dev.lt p l
     t.queue e = m :: q → m.kind < 4 → m.lease = 0 → 0 < m.len → (s.dev.part p).engineHeld l e = false →
     (s.dev.hostOf p l).any s.dev.tileOut = false →
     (s.dev.part p).updating (locOf m.as).h = false →
     (∀ h ∈ m.handles, s.dev.foreignStack p h = none ∧ (h = 0 ∨ s.dev.reach p h = true)) →
     let d := s.dev.setLt p l (t.setQueue e q)
     (moveRows p l m m.rows 0 d).2 = none →
     exec (.moveComplete p l ⟨e, none, .none⟩) s = .next (s.withDev (armEngine (complete (moveRows p l m m.rows 0 d).1 p l m.id m.cf) p l e)))

/-- Row r of a MOVE stores its LEN source bytes at row r's destination and nowhere else (R78, R79): in the scratchpad (MOVE.LD,
MOVE.GATHER) no byte behind any handle changes, and outside the partial-sum region while it holds groups (R106) the row's bytes stand at the
destination and every other byte of the scratchpads stays; behind a handle (MOVE.ST, MOVE.SCATTER) the row's bytes stand at the destination
and every other byte behind the handles, and all of the scratchpads, stay. -/
def Obligations.MoveRowFrame : Prop :=
  ∀ (p l r : Nat) (m : MoveOp) (d e : Device), m.kind < 4 → moveRow p l m r d = .ok e →
    let x := (locOf m.ai).plus (4 * r)
    let d0 := if m.indexed then d.touch p l x 4 else d
    let idx := if m.indexed then fld (d0.readAt p l x 4) 0 4 else 0
    let d1 := d0.touch p l (m.src r idx) m.len
    let bs := d1.readAt p l (m.src r idx) m.len
    let y := m.dst r idx
    ((locOf m.ad).h = 0 → e.mem = d.mem ∧ (y.pos + m.len ≤ psumBase ∨ d1.psumBusy p l = false →
      e.spRead p l y.pos m.len = bs ∧
      ∀ a, (a < spKey p l y.pos ∨ spKey p l y.pos + m.len ≤ a) → mget e.spad a = mget d1.spad a)) ∧
    ((locOf m.ad).h ≠ 0 → e.hRead p (locOf m.ad).h y.pos m.len = bs ∧ e.spad = d1.spad ∧
      ∀ a, (a < hKey p (locOf m.ad).h y.pos ∨ hKey p (locOf m.ad).h y.pos + m.len ≤ a) → mget e.mem a = mget d.mem a)

/-- MMA.OPEN, PASS, CONV, CLOSE and GRP.WALK of a mask no other walk is matched by join the arrays' queue with the values
read at issue (R81 to R85, R151). -/
def Obligations.ArrayOperationsQueue : Prop :=
  ∀ (p : Fin 8) (l : Fin 32) (w : BitVec 128) (s : State),
    let t := s.tileAt p l
    let u : LTile := { t.advance with nextOp := t.nextOp + 1 }
    let ag := bits w.toNat 27 24
    (s.dev.issues opOpen p l w = true → exec (.mmaOpen p l w) s = .next (s.withDev
      (pushArr p l (.openG t.nextOp ag (bits w.toNat 47 36) (bits w.toNat 28 28) (bit w.toNat 29) (t.areg (bits w.toNat 35 32)))
        (s.dev.setLt p l { u with ags := tset none t.ags ag (some (t.nextOp, bits w.toNat 47 36, bits w.toNat 28 28)) })))) ∧
    (s.dev.issues (opPass false) p l w = true → exec (.mmaPass p l w) s = .next (s.withDev
      (pushArr p l (.pass (passOf false t.nextOp t w.toNat)) (s.dev.setLt p l u)))) ∧
    (s.dev.issues (opPass true) p l w = true → exec (.mmaConv p l w) s = .next (s.withDev
      (pushArr p l (.pass (passOf true t.nextOp t w.toNat)) (s.dev.setLt p l u)))) ∧
    (s.dev.issues opClose p l w = true → exec (.mmaClose p l w) s = .next (s.withDev
      (pushArr p l (.close t.nextOp ag (t.areg (bits w.toNat 31 28)) (cfOf w.toNat))
        (s.dev.setLt p l { u with ags := tset none t.ags ag none })))) ∧
    (let v := walkOf t (s.dev.part p).walkNo l w.toNat
     s.dev.issues opWalk p l w = true → v.cnt ≠ 0 →
      (∀ x ∈ (s.dev.part p).walks, x.mask = v.mask → l.val ∈ x.joined) →
      exec (.grpWalk p l w) s = .next (s.withDev (pushArr p l (.walk t.nextOp v.wid (cfOf w.toNat))
        ((s.dev.setLt p l u).modPart p (fun P => { P with walkNo := P.walkNo + 1, walks := P.walks ++ [v] })))))

/-- WEIGHT_FLIP begins the next pass of the arrays' queue at full array current, in a work item that is not stopped (R101, R105, R108,
R110): it broadcasts with the weights cast on into the shadow set, or cast on now, unspecified ones where they lie in the partial-sum region
with groups open (R106), and all cells flip; opens behind it then execute. The pass record and memory stay. ARRAY_PASS_DONE on the last operation of the queue, its group bound to no cable, its activations below the partial-sum region and
no sum overflowing: the group's sums become those of the pass in the reference order with the weights it began with, but for rows whose
replay failed too, the pass joins the record, and memory stays (R98, R105, R121, R152). -/
def Obligations.PassesBeginAndAdd : Prop :=
  (∀ (p : Fin 8) (l : Fin 32) (s : State) (q : Pass) (h : Nat),
     let t := s.dev.lt p l
     let begins (w : WSet) (e : Device) : Prop :=
       exec (.weightFlip p l) s = .next (s.withDev (drain p l e)) ∧ (e.lt p l).begun = t.begun ++ [⟨{ q with win := none }, w⟩] ∧
       (e.lt p l).wact = some w ∧ (e.lt p l).wsh = none ∧ (e.lt p l).flips = t.flips + 1 ∧ (e.lt p l).passes = t.passes ∧
       e.mem = s.dev.mem
     t.headPass = some q → s.dev.arraysOf p l = some h → (s.dev.tile h).level = 4 → (s.dev.part p).stopping = false →
     s.dev.checkDue h = false → s.dev.passReady p l q = true → q.conv = none →
     (∀ w, t.wsh = some w → w.op = q.id → ∃ e, begins w e ∧ (e.lt p l).groups = t.groups ∧ e.spad = s.dev.spad) ∧
     (t.wsh = none → ∃ e, begins ((s.dev.touch p l (locOf q.ab) (planeBytes q.fb q.bsz 1024 q.k)).castOn p l q) e ∧
       ((locOf q.ab).pos + planeBytes q.fb q.bsz 1024 q.k ≤ psumBase → (e.lt p l).groups = t.groups ∧ e.spad = s.dev.spad))) ∧
  (∀ (p : Fin 8) (l : Fin 32) (s : State) (q : Pass) (w : WSet) (g : Group) (h : Nat) (bad : List RowFind),
     let t := s.dev.lt p l
     let sums := s.dev.passSums p l g q w.reader (rowsLost bad)
     t.arr = [.pass q] → t.begun = [⟨q, w⟩] → s.dev.hostOf p l = some h → s.dev.tileOut h = false → t.group q.ag = some g → q.win = none →
     (∀ v ∈ (s.dev.part p).walks, ∀ u ∈ v.prog, u.lt ≠ l) → rowsFit s.dev h g.m bad = true → s.dev.reachAll p g.initHandles = true →
     s.dev.boundLink p l q.ag = none → s.dev.passFault p l g.m q = none →
     (locOf q.aa).pos + planeBytes q.fa q.bsz g.m q.k ≤ psumBase → sums.2 = false →
     ∃ d, exec (.arrayPassDone p l ⟨bad, .none, none⟩) s = .next (s.withDev d) ∧
       (d.lt p l).group q.ag = some { g with sums := sums.1 } ∧
       (d.lt p l).passes = t.passes ++ [q] ∧ (d.lt p l).arr = [] ∧ (d.lt p l).begun = [] ∧
       d.mem = s.dev.mem ∧ d.spad = s.dev.spad)

/-- MMA_CLOSE_DONE on the last operation of the queue, in a work item that is not stopped, writes the group's values and trailer behind
the handle at AD, frees its record entries and closes it; every other byte of memory stays (R84, R152). -/
def Obligations.CloseWritesTheGroup : Prop :=
  ∀ (p : Fin 8) (l : Fin 32) (s : State) (id ag : Nat) (ad : Word) (cf : CF) (g : Group),
    let t := s.dev.lt p l
    let x := locOf ad
    let bs := g.bytes ++ trailer g.bias g.recomp g.gauge
    t.arr = [.close id ag ad cf] → (s.dev.part p).stopping = false → (s.dev.hostOf p l).any s.dev.tileOut = false → t.group ag = some g → s.dev.boundLink p l ag = none → x.h ≠ 0 →
    s.dev.foreignStack p x.h = none → s.dev.reach p x.h = true → s.dev.writeFault p x (r84Bytes g.acc g.m) = none →
    ∃ d, exec (.mmaCloseDone p l) s = .next (s.withDev d) ∧ d.hRead p x.h x.pos bs.length = bs ∧
      (∀ a, (a < hKey p x.h x.pos ∨ hKey p x.h x.pos + bs.length ≤ a) → mget d.mem a = mget s.dev.mem a) ∧
      d.spad = s.dev.spad ∧ (d.lt p l).group ag = none ∧ (d.lt p l).record ag = []

/-- GRP_UNIT_DEAL gives the next work unit of a walk that runs to the tile, at full array current (R110, R116); GRP_WALK_DONE, with every
unit dealt and written, completes a walk of one tile, posts unless a unit faulted, and frees its engines (R85, R119). Memory stays. -/
def Obligations.WalksDealAndComplete : Prop :=
  ∀ (p : Fin 8) (l : Fin 32) (s : State) (id wid h : Nat) (cf : CF) (k : Walk),
    let t := s.dev.lt p l
    t.arr = [.walk id wid cf] → (s.dev.part p).walk wid = some k → k.started = true → (s.dev.part p).stopping = false →
    s.dev.hostOf p l = some h →
    (∀ u us, s.dev.arraysOf p l = some h → s.dev.checkDue h = false → (s.dev.tile h).level = 4 → k.units = u :: us →
      (k.prog.filter (fun x => decide (x.lt = l.val))).length ≤ 1 →
      ∃ d, exec (.grpUnitDeal p l) s = .next (s.withDev d) ∧
        (d.part p).walk wid = some { k with units := us, prog := k.prog ++ [⟨l.val, u, k.passes u, 0, [], false⟩] } ∧ d.lts = s.dev.lts ∧
        d.mem = s.dev.mem ∧ d.spad = s.dev.spad) ∧
    (k.units = [] → k.prog = [] → maskLts k.mask = [l.val] → s.dev.arraysOut h = false →
      ∃ d, exec (.grpWalkDone p l) s = .next (s.withDev d) ∧ (d.lt p l).arr = [] ∧ (d.part p).walk wid = none ∧ d.mem = s.dev.mem ∧
        ∀ c, cf = some c → k.failed = false → (s.dev.part p).isRunning = true → s.dev.domOn h = true →
          (tget 0 t.ctr c).toNat < 0xFFFFFFFF → (tget 0 (d.lt p l).ctr c).toNat = (tget 0 t.ctr c).toNat + 1)

/-- A VEC instruction that issues reads its operands then and joins the vector unit's queue with its result, a lane result
for every lane (R67, R86, R87, R134); VEC.LD reads and VEC.ST writes the scratchpad at VEC_DONE (the model's reading, log entry 14). Nothing else changes until VEC_DONE. VEC_DONE of a vector unit in service (R371), with no error met, finishes the operation at the head of its queue: a register or scalar result is written, a load
fills its register from 4,096 bytes of the scratchpad, a store writes them; in each case nothing waits for the operation
any longer (R69, R86). -/
def Obligations.VectorOperations : Prop :=
  (∀ (p : Fin 8) (l : Fin 32) (w : BitVec 128) (s : State),
     let t := s.tileAt p l
     let ty := bits w.toNat 37 36
     let queued (opc : Nat) (a : VecDo) : State :=
       s.withLt p l { t.advance with nextOp := t.nextOp + 1, vec := t.vec ++ [{ id := t.nextOp, opc := opc, act := a }] }
     let lanes (f : Nat → Nat → Nat → Nat → Nat) : VecDo := .reg (bits w.toNat 20 16)
       (List.zipWith (fun a bc => laneOp ty (f ty) a bc.1 bc.2) (t.vreg (bits w.toNat 25 21))
         ((vB t w.toNat).zip (t.vreg (bits w.toNat 35 31))))
     let scalar (f : Nat → List (BitVec 32) → Nat) : VecDo :=
       .scal (bits w.toNat 54 49) (BitVec.ofNat 64 (f ty (t.vreg (bits w.toNat 25 21)) % 2 ^ 32))
     (s.dev.issues (opVec 0x02 2 [0, 1, 2] eAdd) p l w = true → exec (.vecAdd p l w) s = .next (queued 0x02 (lanes eAdd))) ∧
     (s.dev.issues (opVec 0x03 2 [0, 1, 2] eSub) p l w = true → exec (.vecSub p l w) s = .next (queued 0x03 (lanes eSub))) ∧
     (s.dev.issues (opVec 0x04 2 [0, 1, 2] eMul) p l w = true → exec (.vecMul p l w) s = .next (queued 0x04 (lanes eMul))) ∧
     (s.dev.issues (opVec 0x05 3 [0, 1] eFma) p l w = true → exec (.vecFma p l w) s = .next (queued 0x05 (lanes eFma))) ∧
     (s.dev.issues (opVec 0x06 2 [0, 1, 2] eMax) p l w = true → exec (.vecMax p l w) s = .next (queued 0x06 (lanes eMax))) ∧
     (s.dev.issues (opVec 0x07 2 [0, 1, 2] eMin) p l w = true → exec (.vecMin p l w) s = .next (queued 0x07 (lanes eMin))) ∧
     (s.dev.issues (opVec 0x08 1 [0, 1, 2] eAbs) p l w = true → exec (.vecAbs p l w) s = .next (queued 0x08 (lanes eAbs))) ∧
     (s.dev.issues (opVec 0x09 1 [0, 1, 2] eNeg) p l w = true → exec (.vecNeg p l w) s = .next (queued 0x09 (lanes eNeg))) ∧
     (s.dev.issues (opVec 0x0A 1 [0] eExp) p l w = true → exec (.vecExp p l w) s = .next (queued 0x0A (lanes eExp))) ∧
     (s.dev.issues (opVec 0x0B 1 [0] eRcp) p l w = true → exec (.vecRcp p l w) s = .next (queued 0x0B (lanes eRcp))) ∧
     (s.dev.issues (opVec 0x0C 1 [0] eRsq) p l w = true → exec (.vecRsq p l w) s = .next (queued 0x0C (lanes eRsq))) ∧
     (s.dev.issues (opVec 0x0D 1 [0] eSqrt) p l w = true → exec (.vecSqrt p l w) s = .next (queued 0x0D (lanes eSqrt))) ∧
     (s.dev.issues (opVec 0x0E 2 [0, 1, 2] eCmplt) p l w = true →
       exec (.vecCmplt p l w) s = .next (queued 0x0E (lanes eCmplt))) ∧
     (s.dev.issues (opVec 0x0F 3 [0, 1, 2] eSel) p l w = true → exec (.vecSel p l w) s = .next (queued 0x0F (lanes eSel))) ∧
     (s.dev.issues (opRed 0x10 [0, 1, 2] redSum) p l w = true →
       exec (.vecRedsum p l w) s = .next (queued 0x10 (scalar redSum))) ∧
     (s.dev.issues (opRed 0x11 [0, 1, 2] redMax) p l w = true →
       exec (.vecRedmax p l w) s = .next (queued 0x11 (scalar redMax))) ∧
     (s.dev.issues (opRed 0x12 [0, 1] nFin) p l w = true → exec (.vecNfin p l w) s = .next (queued 0x12 (scalar nFin))) ∧
     (s.dev.issues opVecLd p l w = true →
       exec (.vecLd p l w) s = .next (queued 0x00 (.load (bits w.toNat 20 16) (t.areg (bits w.toNat 48 45))))) ∧
     (s.dev.issues opVecSt p l w = true → exec (.vecSt p l w) s = .next (queued 0x01
       (.store (t.areg (bits w.toNat 48 45)) (t.vreg (bits w.toNat 25 21))))) ∧
     (s.dev.issues opVecBcast p l w = true → exec (.vecBcast p l w) s = .next (queued 0x13 (.reg (bits w.toNat 20 16)
       (List.replicate 1024 (scalarLane ty (t.sreg (bits w.toNat 44 39)))))))) ∧
  (∀ (p : Fin 8) (l : Fin 32) (s : State) (id : Nat) (opc : Nat) (os : List VecOp), let t := s.dev.lt p l
     s.dev.vectorOut p l = false →
     (∀ vd ls, t.vec = ⟨id, opc, .reg vd ls⟩ :: os →
       exec (.vecDone p ⟨l, .none, none⟩) s = .next (s.withDev (endOp (s.dev.setLt p l (({ t with vec := os } : LTile).setV vd ls)) p l id))) ∧
     (∀ sd v, t.vec = ⟨id, opc, .scal sd v⟩ :: os →
       exec (.vecDone p ⟨l, .none, none⟩) s = .next (s.withDev (endOp (s.dev.setLt p l (({ t with vec := os } : LTile).setS sd v)) p l id))) ∧
     (∀ vd am, t.vec = ⟨id, opc, .load vd am⟩ :: os → (locOf am).h = 0 → (locOf am).bad = false →
       (locOf am).pos + 4096 ≤ psumBase → exec (.vecDone p ⟨l, .none, none⟩) s = .next (s.withDev (endOp (s.dev.setLt p l
         (({ t with vec := os } : LTile).setV vd
           ((wordsOf 4 1024 (s.dev.spRead p l (locOf am).pos 4096)).map (BitVec.ofNat 32)))) p l id))) ∧
     (∀ am ls, t.vec = ⟨id, opc, .store am ls⟩ :: os → (locOf am).h = 0 → (locOf am).bad = false →
       (locOf am).pos + 4096 ≤ psumBase → ls.length = 1024 → exec (.vecDone p ⟨l, .none, none⟩) s = .next (s.withDev (endOp
         ((s.dev.setLt p l { t with vec := os }).spWrite p l (locOf am).pos (ls.flatMap (fun v => toLe 4 v.toNat))) p l id))))

/-- A CVT that issues joins the vector unit's queue with its formats, count and addresses (R88); CVT_DONE writes the
converted elements at AD, in the scratchpad, and completes (R66, R88, R130 to R133). Element functions of VEC on INT32 are two's complement, mod 2^32: add, subtract, multiply, negate; ABS of the most
negative number is itself; CMPLT gives all ones or 0; SEL picks by nonzero (R87, Table 3-15). -/
def Obligations.ConversionsAndIntegerLanes : Prop :=
  (∀ (p : Fin 8) (l : Fin 32) (w : BitVec 128) (s : State),
     let t := s.tileAt p l
     let queued (opc : Nat) : State := s.withLt p l
       { t.advance with nextOp := t.nextOp + 1, vec := t.vec ++ [{ id := t.nextOp, opc := opc, act := cvtOf opc t w.toNat }] }
     (s.dev.issues (opCvt 0) p l w = true → exec (.cvtBs p l w) s = .next (queued 0)) ∧
     (s.dev.issues (opCvt 1) p l w = true → exec (.cvtSr p l w) s = .next (queued 1)) ∧
     (s.dev.issues (opCvt 2) p l w = true → exec (.cvtUp p l w) s = .next (queued 2)) ∧
     (s.dev.issues (opCvt 3) p l w = true → exec (.cvtRn p l w) s = .next (queued 3)) ∧
     (∀ id o opc fs fd bsz n as ad stid sidx cf os, s.dev.vectorOut p l = false → (s.dev.lt p l).vec = ⟨id, o, .cvt opc fs fd bsz n as ad stid sidx cf⟩ :: os →
       let P := s.dev.part p
       let vs := (List.range n).map (elemAt (s.dev.reader p l (locOf as)) fs bsz 1 n 0)
       let rs (i : Nat) : Rounding := if opc = 1 then plyRounding P.compat P.seed P.step stid (sidx + i) else .nearest
       0 < n → (locOf as).h = 0 → (locOf ad).h = 0 → (locOf as).bad = false → (locOf ad).bad = false →
       (locOf as).pos + planeBytes fs bsz 1 n ≤ psumBase → (locOf ad).pos + planeBytes fd bsz 1 n ≤ psumBase →
       exec (.cvtDone p ⟨l, .none, none⟩) s = .next (s.withDev (complete
         ((s.dev.setLt p l { s.dev.lt p l with vec := os }).spWrite p l (locOf ad).pos (cvtBytes fd bsz vs rs)) p l id cf)))) ∧
  (∀ a b c : BitVec 32,
     laneOp 2 (eAdd 2) a b c = a + b ∧ laneOp 2 (eSub 2) a b c = a - b ∧ laneOp 2 (eMul 2) a b c = a * b ∧
     laneOp 2 (eNeg 2) a b c = -a ∧ laneOp 2 (eAbs 2) a b c = (if a.slt 0 then -a else a) ∧
     laneOp 2 (eMax 2) a b c = (if a.slt b then b else a) ∧ laneOp 2 (eMin 2) a b c = (if b.slt a then b else a) ∧
     laneOp 2 (eCmplt 2) a b c = (if a.slt b then BitVec.allOnes 32 else 0) ∧
     laneOp 2 (eSel 2) a b c = (if c ≠ 0 then a else b))

/-- A ROUTE that issues joins the route unit's queue with its register values (R65, R89); ROUTE_DONE runs the operation at
its head, on a tile in service (R371), once what it reads serves and no update of it is to be awaited (R226, R346), and completes it when nothing faults (R66). ROUTE.TOPK's choice for a token: a row with a NaN or infinite score gives VALID 0 in every rank; otherwise rank 0 is the
expert of greatest score, the lowest index among equal ones (R174, R175). -/
def Obligations.RouteChoosesTheGreatest : Prop :=
  (∀ (p : Fin 8) (l : Fin 32) (w : BitVec 128) (s : State),
     let t := s.tileAt p l
     let queued (op : Nat) : State :=
       s.withLt p l { t.advance with nextOp := t.nextOp + 1, rte := t.rte ++ [routeOf op t.nextOp t w.toNat] }
     (s.dev.issues (opRoute 0) p l w = true → exec (.routeTopk p l w) s = .next (queued 0)) ∧
     (s.dev.issues (opRoute 1) p l w = true → exec (.routeScan p l w) s = .next (queued 1)) ∧
     (s.dev.issues (opRoute 2) p l w = true → exec (.routeSort p l w) s = .next (queued 2)) ∧
     (s.dev.issues (opRoute 3) p l w = true → exec (.routeUnperm p l w) s = .next (queued 3)) ∧
     (∀ o os, (s.dev.lt p l).rte = o :: os → (s.dev.hostOf p l).any s.dev.tileOut = false → o.handles.any (s.dev.part p).updating = false → s.dev.reachAll p o.handles = true →
       let r := runRoute p l o (s.dev.setLt p l { s.dev.lt p l with rte := os })
       r.2 = none → exec (.routeDone p ⟨l, .none, none⟩) s = .next (s.withDev (complete r.1 p l o.id o.cf)))) ∧
  (∀ (k : Nat) (ws : List Nat), 0 < k → k ≤ 2 → ws ≠ [] →
     let vs := ws.map (decodeFmt 0)
     (vs.any vNonfin = true → (choose k ws).2 = true ∧
       ∀ c ∈ (choose k ws).1, c.valid = false ∧ c.expert = 0 ∧ c.gate = 0) ∧
     (vs.any vNonfin = false → (choose k ws).2 = false ∧
       ∃ c rest, (choose k ws).1 = c :: rest ∧ c.valid = true ∧ c.expert < ws.length ∧ c.gate = ws.getD c.expert 0 ∧
         (∀ i, i < ws.length → vlt (vs.getD c.expert .nan) (vs.getD i .nan) = false) ∧
         (∀ i, i < c.expert → vlt (vs.getD i .nan) (vs.getD c.expert .nan) = true)))

/-- An XCHG.CABLE or XCHG.FAN with a good descriptor in the scratchpad forms its link, which waits in the exchange queue: here
a relay link whose group, the one open at its issue, the arrays do not hold yet, or an adding link of a cable that awaits the running sum, with no message
waiting for it and no device of it lost or refused (R157 to R162, R425). Memory stays. The link is what the descriptor holds at issue (the
model's choice, log entry 16). XCHG.SKEIN with a good plan and send list, read at issue (the model's choice, log entry 16), in which no device has refused its flow,
starts its exchange, sends its HEADs and ROWS, and takes up what waited for it (R181 to R183); what it reads in the partial-sum region with
groups open is unspecified, and leaves them so (R106). -/
def Obligations.LinksAndExchangesStart : Prop :=
  (∀ (p : Fin 8) (l : Fin 32) (w : BitVec 128) (s : State) (fan : Bool),
     let t := s.tileAt p l
     let x := locOf (t.areg (bits w.toNat 35 32))
     let b := s.dev.spRead p l x.pos 64
     let n := 8 * fld b 6 2
     let es := s.dev.spRead p l (x.pos + 64) n
     let P := s.dev.part p
     let k0 : Link := { linkOf fan t.nextOp t P.step w.toNat b es with lt := l.val }
     let k : Link := { k0 with gid := ((tget none t.ags k0.ag).map (·.1)).getD 0, descH := 0 }
     s.dev.issues (opLink fan) p l w = true → x.h = 0 → x.bad = false → x.pos + 64 + n ≤ psumBase → fld b 6 2 ≤ 4096 →
     linkLegal s.dev p l k b es = true → P.early = [] → P.voids = [] → P.fataled = [] → s.dev.refusedBy p k = [] →
     (∀ y ∈ P.links, ¬ (y.lt = l.val ∧ y.op = t.nextOp)) →
     ((k.relay = true ∧ s.dev.linkGroup p k = none) ∨ (fan = false ∧ k.relay = false ∧ k.this ≠ 0)) →
     ∃ d, exec (if fan then .xchgFan p l w else .xchgCable p l w) s = .next (s.withDev d) ∧
       (d.part p).links = P.links ++ [k] ∧ (d.part p).formed = (fan, k.cable, k.this) :: P.formed ∧
       (d.lt p l).xch = t.xch ++ [{ id := t.nextOp, kind := if fan then 2 else 1, au := 0, cf := cfOf w.toNat }] ∧
       d.mem = s.dev.mem ∧ d.spad = s.dev.spad ∧ d.regs = s.dev.regs) ∧
  (∀ (p : Fin 8) (l : Fin 32) (w : BitVec 128) (s : State) (e0 : Exch) (out : List OutSkein) (fmt bsz db : Nat),
     let t := s.tileAt p l
     let d0 := s.dev.setLt p l { t.advance with nextOp := t.nextOp + 1 }
     let mode := bits w.toNat 49 48
     let exch := (t.sreg (bits w.toNat 47 42)).toNat
     let n := (t.sreg (bits w.toNat 41 36)).toNat
     let x := locOf (t.areg (bits w.toNat 27 24))
     let blank : Exch :=
       { lt := l.val, op := t.nextOp, cf := cfOf w.toNat, mode := mode, exch := exch, step := (s.dev.part p).step, plan := [],
         ents := [], planAt := 0, srcs := [], slist := [], tagsAt := 0, slot := 0, sentTo := [] }
     let xs := skeinSpans d0 p l n blank (t.areg (bits w.toNat 35 32)) x
     let d := d0.touchAll p l xs
     s.dev.issues opSkein p l w = true → readPlan d p l mode (t.areg (bits w.toNat 35 32)) blank = .ok e0 →
     skeinsOf d p l mode exch n x = .ok (out, fmt, bsz, db) → d.refusedOf p (out.map (·.dev) ++ e0.srcs.map (·.dev)) = [] →
     (s.dev.part p).voids = [] → (s.dev.part p).voidSent = false →
     let e := { e0 with sentTo := out.map (·.dev), reads := spanHandles (xs ++ rowSpans fmt bsz db out) }
     let d1 := (d.modPart p (fun P => { P with exchs := P.exchs ++ [e] })).modLt p l
       (fun y => { y with xch := y.xch ++ [{ id := t.nextOp, kind := 0, au := 0, cf := cfOf w.toNat }] })
     let r := sendSkeins p l mode exch fmt bsz db out (d1.touchAll p l (reached d1 p (rowSpans fmt bsz db out)))
     r.2 = none → exec (.xchgSkein p l w) s = .next (s.withDev (takeSkeins p r.1)))

/-- Messages of a cable (R165 to R167, R206): a SEG is held by the relay link it is for; FINISH and HELD let a link complete;
a RESTART above its epoch makes link 0, here a relay link whose group the arrays do not hold, take up the higher epoch. -/
def Obligations.CableMessagesReachTheirLink : Prop :=
  ∀ (m : CableMsg) (s : State) (k : Link), let p := m.part.val
    let P := s.dev.part p
    (m.dest ≠ 0xFFFF#16 → P.linkFor m = some k → k.agrees m = true → k.fits m = true → P.link k.lt k.op = some k → k.fan = false →
      k.relay = true → k.zero = false → k.ready = false → k.halt = false → m.epoch.toNat = k.epoch →
      k.done.contains m.seg.toNat = false → tget [] k.got m.seg.toNat = [] → s.dev.linkGroup p k = none →
      ∃ d k', exec (.seg m) s = .next (s.withDev d) ∧ (d.part p).link k.lt k.op = some k' ∧
        tget [] k'.got m.seg.toNat = m.values ∧ k'.epoch = k.epoch ∧ k'.bias = m.bias.toInt ∧
        k'.void = (k.void || bit m.flags.toNat 3) ∧ d.mem = s.dev.mem ∧ d.spad = s.dev.spad) ∧
    (P.linkFor m = some k → k.agrees m = true → k.this ≠ k.final →
      exec (.finish m) s = .next (s.withDev (setLink s.dev p { k with fin := true, delivered := true, void := k.void || bit m.flags.toNat 3 }))) ∧
    (P.links.find? (fun k => decide (k.cable = m.cableId.toNat) && decide (k.step = m.step.toNat) && decide (k.this = k.final) &&
        decide (k.mode = 1) && k.delivered && (k.fan == bit m.flags.toNat 4)) = some k → k.agrees m = true →
      exec (.held m) s = .next (s.withDev (setLink s.dev p { k with fin := true }))) ∧
    (P.linkFor m = some k → k.agrees m = true → k.fan = false → k.this = 0 → k.relay = true → k.zero = false →
      k.epoch < m.epoch.toNat → s.dev.linkGroup p k = none → P.voids = [] →
      exec (.restart m) s = .next (s.withDev (setLink s.dev p
        ({ k with void := k.void || bit m.flags.toNat 3 }.renew m.epoch.toNat m.bias.toInt))))

/-- Messages of an exchange (R183, R184, R195): a HEAD gives a source's runs, a ROWS that leaves its stream incomplete joins
the source's pieces, a VOID counts the device as stopped. -/
def Obligations.SkeinMessagesReachTheirExchange : Prop :=
  ∀ (m : SkeinMsg) (s : State), let p := m.part.val
    let P := s.dev.part p
    P.job.isSome = true → m.step.toNat = P.step → P.voidSent = false →
    (∀ (x : Exch) (a : SrcIn), P.exchFor m = some x → P.exchs = [x] → x.srcs = [a] → a.dev = m.src.toNat → a.void = false →
      a.runs = none → a.landed = false → a.pieces = [] → x.agrees m = true → x.mode = 1 → x.slist = [] → P.early = [] →
      let runs := (wordsOf 4 (m.payload.length / 4) m.payload).map (fun e => (bits e 11 0, bits e 29 12))
      (runs.map (·.2)).sum = m.rows.toNat → 0 < m.rows.toNat * recBytes x.fmt x.bsz x.db →
      ∃ d, exec (.head m) s = .next (s.withDev d) ∧ (d.part p).exchs = [{ x with srcs := [{ a with runs := some runs }] }] ∧
        d.mem = s.dev.mem ∧ d.spad = s.dev.spad) ∧
    (∀ (x : Exch) (a : SrcIn), P.exchFor m = some x → P.exchs = [x] → x.srcs = [a] → a.dev = m.src.toNat → a.void = false →
      a.landed = false → a.runs.isSome = true → x.agrees m = true → m.rows.toNat = a.total →
      (a.pieces.map (fun y => y.2.length)).sum + m.payload.length < a.total * recBytes x.fmt x.bsz x.db →
      m.offset.toNat + m.payload.length ≤ a.total * recBytes x.fmt x.bsz x.db →
      (m.offset.toNat + m.payload.length < a.total * recBytes x.fmt x.bsz x.db → m.payload.length = 8160) →
      ∃ d, exec (.rows m) s = .next (s.withDev d) ∧
        (d.part p).exchs = [{ x with srcs := [{ a with pieces := a.pieces ++ [(m.offset.toNat, m.payload)] }] }] ∧
        d.mem = s.dev.mem ∧ d.spad = s.dev.spad) ∧
    (P.exchs = [] → P.links = [] → P.early = [] → P.contrib = false → P.voids.contains m.src.toNat = false →
      ∃ d, exec (.void m) s = .next (s.withDev d) ∧ (d.part p).voids = P.voids ++ [m.src.toNat] ∧ d.mem = s.dev.mem)

/-- With no exchange engine under check (R371), CABLE_COMPLETE of a link that may complete counts it on the physical tile, frees it and completes the operation (R165,
R169); SKEIN_COMPLETE of an exchange that has landed and delivered everything writes its landed counts and frees it, and
a dispatch marks the instances with rows as visited (R186). A word that ECC cannot correct in what a link has read faults its tile and makes
its part zero (R168, R267); that it is told with CABLE_COMPLETE is the model's choice (log entry 156). -/
def Obligations.ExchangesComplete : Prop :=
  ∀ (p : Fin 8) (l : Fin 32) (op h : Nat) (s : State), s.dev.hostOf p l = some h → s.dev.exchOut = false →
    (∀ k, (s.dev.part p).link l op = some k → k.over = true → k.zero = false →
      exec (.cableComplete p l ⟨op, none⟩) s = .next (s.withDev (complete
        (((s.dev.inc (fLinksDone h)).modPart p (fun P =>
            { P with links := dropFirst (fun x => decide (x.lt = l.val) && decide (x.op = op)) P.links })).modLt p l
          (fun t => { t with xch := t.xch.filter (fun o => decide (o.id ≠ op)) })) p l op k.cf))) ∧
    (∀ k b, (s.dev.part p).link l op = some k → b.corrected = false → s.dev.canMeet p k.reads (some b) = true →
      exec (.cableComplete p l ⟨op, some b⟩) s = .next (s.withDev (zeroLink p k
        (readUe p b.handle.toNat b.off.toNat (some [l.val]) s.dev)))) ∧
    (∀ x, (s.dev.part p).exchOf l op = some x → x.srcs.all (·.landed) = true → s.dev.delivered p x = true →
      s.dev.readable p [(locOf x.planAt).h, fld x.plan 0x1C 4] = true →
      (writeParts p l (planWrites x s.dev p) s.dev).2 = none →
      ∃ d, exec (.skeinComplete p l ⟨op, none⟩) s = .next (s.withDev (complete d p l op x.cf)) ∧
        d.mem = (writeParts p l (planWrites x s.dev p) s.dev).1.mem ∧
        (d.part p).exchs = dropFirst (fun y => decide (y.lt = l.val) && decide (y.op = op)) (s.dev.part p).exchs ∧
        (x.mode = 0 → ∀ i, i < x.nent → 0 < x.landed i → fld x.ents (32 * i + 2) 2 < 1024 →
          d.rd (fVisited (fld x.ents (32 * i + 2) 2)) = 1))

/-- UPD.GAUGE gives the tile's part and flag and waits for the step's result (R91); UPD.APPLY whose descriptors all pass is
waiting with every descriptor taken, here with no sum waiting in the pool (R205). The descriptors are those that stand in the scratchpad at
issue (the model's choice, log entry 16). -/
def Obligations.UpdateInstructions : Prop :=
  ∀ (p : Fin 8) (l : Fin 32) (w : BitVec 128) (s : State),
    let t := s.tileAt p l
    let u : LTile := { t.advance with nextOp := t.nextOp + 1 }
    (let o : OpenOp := { id := t.nextOp, kind := 1, au := t.areg (bits w.toNat 27 24), cf := cfOf w.toNat }
     s.dev.issues opGauge p l w = true → exec (.updGauge p l w) s = .next (s.withLt p l
      { u with gaugePart := some (t.sreg (bits w.toNat 33 28)), gaugeFlag := decide (t.sreg (bits w.toNat 39 34) ≠ 0),
               upd := t.upd ++ [o] })) ∧
    (let o : OpenOp := { id := t.nextOp, kind := 0, au := 0, cf := cfOf w.toNat }
     let n := (t.sreg (bits w.toNat 33 28)).toNat
     let x := locOf (t.areg (bits w.toNat 27 24))
     let bs := (List.range n).map (fun i => s.dev.spRead p l (x.pos + 64 * i) 64)
     ∀ ts, s.dev.issues opApply p l w = true → 0 < n → x.bad = false → x.pos + 64 * n ≤ psumBase →
      (s.dev.part p).contrib = false → (s.dev.part p).early = [] → takeDescs s.dev p bs (s.dev.part p).descs = .ok ts →
      ∃ d, exec (.updApply p l w) s = .next (s.withDev d) ∧ (d.part p).descs = ts ∧ (d.lt p l).upd = t.upd ++ [o] ∧
        d.mem = s.dev.mem ∧ d.spad = s.dev.spad)

/-- GAUGE_CONTRIBUTION, once everything it waits for is there, marks the contribution and sends every device of the job one message with
the device's norm, flag, cause and limit (R209, R210), here with no sum waiting; before that it changes nothing (the model's choice, log entry
3), and a poisoned gradient faults the work item first. What it waits for is R91's and R209's list as the model reads it (its choices, log
entries 39, 103 and 125). A GAUGE of the open job for the current step or the next, from a device that has sent none for it, is held;
the one that completes the round decides the step, and any other GAUGE changes nothing (log entry 3). The outcome of a gauge round (R211): a cause from any device skips the step as a fault; otherwise a data flag, a norm
that is NaN or infinite, or one above the lowest limit skips it as data; otherwise it commits. -/
def Obligations.GaugeMessagesAndOutcome : Prop :=
  ((∀ (p : Fin 8) (un : List (BitVec 16)) (s : State), let P := s.dev.part p
     let e := withParked s.dev p
     let can := s.dev.canContribute p (un.map (·.toNat))
     (can = false → exec (.gaugeContribution ⟨p, none, un⟩) s = .next s) ∧
     (∀ c, can = true → P.stopping = false → s.dev.reachAll p P.normReads = true → e.gradFault p = some c →
       exec (.gaugeContribution ⟨p, none, un⟩) s = .next (s.withDev (recordFault s.dev p c))) ∧
     (can = true → (P.stopping = true ∨ (s.dev.reachAll p P.normReads = true ∧ e.gradFault p = none)) → P.early = [] →
     ∃ m : GaugeMsg, exec (.gaugeContribution ⟨p, none, un⟩) s = .next (s.withDev ((List.range P.devCount).foldl
         (fun d v => sendPeer d p v (.gauge m)) (s.dev.modPart p (fun P => { P with contrib := true })))) ∧
       m.part = p ∧ m.step = BitVec.ofNat 32 P.step ∧ m.jobId = P.jobId ∧ m.srcDev = BitVec.ofNat 12 P.devId ∧
       m.norm2 = BitVec.ofNat 64 (encodeFmt 9 (deviceNorm e p).1) ∧ bit m.flags.toNat 0 = (deviceNorm e p).2 ∧
       bit m.flags.toNat 1 = decide (P.cause.code ≠ 0) ∧ m.cause = BitVec.ofNat 8 P.cause.code ∧
       m.limit = BitVec.ofNat 64 (s.dev.rd (fLimit p)))) ∧
   (∀ (m : GaugeMsg) (s : State), let P := s.dev.part m.part
     let taken : Prop := P.job.isSome = true ∧ P.jobId = m.jobId ∧ m.srcDev.toNat < P.devCount ∧
       ((m.step.toNat = P.step ∧ P.result = none) ∨ m.step.toNat = P.step + 1) ∧
       ∀ g ∈ P.gauges, ¬ (g.step = m.step ∧ g.srcDev = m.srcDev)
     let Q : Part := { P with gauges := P.gauges ++ [m] }
     let ms := (List.range P.devCount).filterMap Q.gaugeOf
     (¬ taken → exec (.gauge m) s = .next s) ∧
     (taken → (P.contrib = false ∨ ms.length ≠ P.devCount ∨ P.isRunning = false ∨ P.result.isSome = true) →
       exec (.gauge m) s = .next (s.withDev (s.dev.setPart m.part Q))) ∧
     (taken → P.contrib = true → ms.length = P.devCount → P.isRunning = true → P.result = none →
       ∃ d, exec (.gauge m) s = .next (s.withDev d) ∧ (d.part m.part).result = some (gaugeOutcome P.step ms) ∧
         (d.part m.part).gauges = Q.gauges.filter (fun g => decide (P.step < g.step.toNat))))) ∧
  (∀ (step : Nat) (ms : List GaugeMsg),
     let r := gaugeOutcome step ms
     let n2 := ms.foldl (fun a m => rn64 (vadd a (decodeFmt 9 m.norm2.toNat))) vzero
     ((∃ m ∈ ms, m.cause ≠ 0) → r.outcome = .skipFault ∧ ∃ m ∈ ms, m.cause ≠ 0 ∧ r.firstCause = m.cause.toNat) ∧
     ((∀ m ∈ ms, m.cause = 0) → r.firstCause = 0 ∧
       (((∃ m ∈ ms, bit m.flags.toNat 0 = true) ∨ vNonfin n2 = true ∨ ∃ m ∈ ms, vlt (decodeFmt 9 m.limit.toNat) n2 = true) →
         r.outcome = .skipData) ∧
       ((∀ m ∈ ms, bit m.flags.toNat 0 = false) → vNonfin n2 = false → (∀ m ∈ ms, vlt (decodeFmt 9 m.limit.toNat) n2 = false) →
         r.outcome = .commit)))

/-- LEDGER_BLOCK_WRITE of a shard with none of its leases open, its stacks serving, its engine free for it and its next block staged
(R219, R271): the staged writes land, STEP and LEDGER_MARK follow in the header and the block is counted; with more blocks to come the
update goes on with the next. The last one, of a shard of one block too, ends it: GEN rises by 1, STEPS, LAST_STEP and INST are written and
LEDGER_MARK is 0 again, here with no flip of a RES_SEL to commit with it. -/
def Obligations.LedgerBlockAdvances : Prop :=
  ∀ (p : Fin 8) (shard : BitVec 32) (s : State) (u : ShardUpd) (b : Staged), let h := shard.toNat
    let hd := s.dev.shardHdr p h
    let n := hdrElems hd
    let landed := hdrWrite (hdrWrite (b.writes.foldl (fun d x => d.hStore p h x.1 x.2) s.dev) p h 0x4C 4 u.step) p h 0x50 4 (u.block + 1)
    (s.dev.part p).updates = [u] → u.desc.shard = h → s.dev.leased p u = false → s.dev.engineBusy p u = false →
    s.dev.reachAll p [h, u.desc.gH] = true → s.dev.stagedOf p u = some b → u.eng < 32 →
    (u.block + 1 < blockCount u.desc n →
      ∃ d, exec (.ledgerBlockWrite p shard .good) s = .next (s.withDev (retryAll d)) ∧ d.mem = landed.mem ∧
        fld (d.hRead p h 0x50 4) 0 4 = (u.block + 1) % 2 ^ 32 ∧ fld (d.hRead p h 0x4C 4) 0 4 = u.step % 2 ^ 32 ∧
        (d.part p).updates = [{ u with block := u.block + 1 }] ∧
        d.rd (fUpdBlocks u.eng) = min (s.dev.rd (fUpdBlocks u.eng) + 1) (2 ^ 32 - 1) ∧ d.spad = s.dev.spad) ∧
    (u.block + 1 = blockCount u.desc n →
      ∃ d, exec (.ledgerBlockWrite p shard .good) s = .next (s.withDev (retryAll d)) ∧ (d.part p).updates = [] ∧
        d.rd (fPending p) = 0 ∧ d.rd (fUpdBlocks u.eng) = min (s.dev.rd (fUpdBlocks u.eng) + 1) (2 ^ 32 - 1) ∧ d.spad = s.dev.spad ∧
        ((s.dev.part p).resFlips = [] →
          d.mem = (hdrWrite (hdrWrite (hdrWrite (hdrWrite (bumpGen landed p h) p h 0x44 4 (paramsOf u hd).t) p h 0x48 4 u.step)
            p h 0x50 4 0) p h 0x58 2 u.desc.inst).mem ∧
          d.shardGen p h = (landed.shardGen p h + 1) % 2 ^ 32 ∧ fld (d.hRead p h 0x44 4) 0 4 = (paramsOf u hd).t % 2 ^ 32 ∧
          fld (d.hRead p h 0x48 4) 0 4 = u.step % 2 ^ 32 ∧ fld (d.hRead p h 0x50 4) 0 4 = 0 ∧
          fld (d.hRead p h 0x58 2) 0 2 = u.desc.inst % 2 ^ 16))

/-- The seam (R22, R27, R75, R226): SEAM_RECORD of a step that commits, inside its work item and with no swap pending, counts the step,
sends a STATUS where STEP_NOTICE asks for one and begins the seam work; SEAM_WORK_DONE, with no tier move to make, no board to read and no swatch copying,
turns to the next step and lets the logical tiles go on with its number. -/
def Obligations.SeamTurnsTheStep : Prop :=
  ∀ (p : Fin 8) (s : State), let P := s.dev.part p
    (∀ w r, P.running = some w → P.result = some r → s.dev.seamDue p = true → r.outcome = .commit → P.stopping = false →
      let f := (countVisits s.dev P.visitedNow).modPart p (fun P =>
        { P with steps := P.steps + 1, written := [], seam := .held,
                 coldGrads := (P.descs.filter (fun x => !x.isRes)).map (fun x => (x.inst, x.gH)) })
      let e := unleash (f.modPart p (fun P => { P with moving := (f.visitedShards p).map (·, false) })) p
      ∀ v, (e.part p).running = some v → v.cause = .none → P.step < v.finalStep → e.rd fCfgState = 0 →
        exec (.seamRecord p) s = .next (s.withDev (seamWork (if P.stepNotice then sendWiStatus e p v else e) p))) ∧
    (P.seam = .work → s.dev.movesLeft p = [] → P.swDue = false → P.swatch.state ≠ .copying → P.isRunning = true → P.early = [] →
      ∃ d, exec (.seamWorkDone ⟨p, none⟩) s = .next (s.withDev d) ∧ (d.part p).seam = .none ∧ (d.part p).step = P.step + 1 ∧
        (d.part p).result = none ∧ (d.part p).contrib = false ∧
        (∀ l sd, l < P.ltCount → l < 32 → (s.dev.lt p l).block = .seam sd →
          (d.lt p l).block = .none ∧ (d.lt p l).sreg sd = BitVec.ofNat 64 (P.step + 1)))

/-- The slot a grant chooses: under FREE the ready slot that entered the pool first; under FIXED the first slot of the pool
in cyclic order after the slot granted last, once it is ready (R237). SLOT_GRANT with every logical tile asking grants the chosen slot (R236): the grant is counted, LAST names the slot, the
slot leaves the pool, and then SEL and GNT are posted to every logical tile. -/
def Obligations.SlotGrants : Prop :=
  (∀ (d : Device) (p j : Nat), let P := d.part p
     (P.order = 1 → d.chooseSlot p = some j → ∃ pre post, P.pool = pre ++ j :: post ∧ d.slotReady p j = true ∧
       ∀ i ∈ pre, d.slotReady p i = false) ∧
     (P.order = 1 → (d.chooseSlot p = none ↔ ∀ i ∈ P.pool, d.slotReady p i = false)) ∧
     (P.order = 2 → 0 < P.slots → d.chooseSlot p = some j → d.slotReady p j = true ∧ j ∈ P.pool ∧ j < P.slots ∧
       let start := match P.lastGrant with
         | none => 0
         | some k => k + 1
       ∀ i, (start + i) % P.slots = j → ∀ k, k < i → i < P.slots → (start + k) % P.slots ∉ P.pool)) ∧
  (∀ (p : Fin 8) (s : State) (j : Nat), let P := s.dev.part p
     P.order ≠ 0 → P.isRunning = true → P.stopping = false → P.seam = .none → s.dev.allAsk p = true → P.pool ≠ [] →
     s.dev.chooseSlot p = some j → j < 16 →
     ∃ d, exec (.slotGrant p) s = .next (s.withDev
         ((List.range P.ltCount).foldl (fun d l => post d [] p l (P.cbase + 1) 1)
           ((List.range P.ltCount).foldl (fun d l => post d [] p l (P.cbase + 2) (j + 1)) d))) ∧
       d.rd (fGrants p) = min (s.dev.rd (fGrants p) + 1) (2 ^ 32 - 1) ∧ d.rd (fLastSlot p) = j ∧
       (d.part p).lastGrant = some j ∧ (d.part p).pool = P.pool.filter (· ≠ j) ∧ d.mem = s.dev.mem ∧ d.lts = s.dev.lts)

/-- A partition's copy, stream and acknowledgement of a swatch (R246 to R248): the image stands in its buffer and streaming
begins; 8,160 bytes at a time leave on the flow (both here for a swatch whose board is gone); an ACK that matches acknowledges the step,
one that does not fails it. An ACK is judged by SWATCH_ID, count and digest alone (the model's choice, log entry 121). -/
def Obligations.SwatchAdvances : Prop :=
  (∀ (p : Fin 8) (s : State), let w := s.dev.asCommitted p (s.dev.part p).swatch
    w.state = .copying → s.dev.movesLeft p = [] → w.board = 0 →
    (∀ u ∈ (s.dev.part p).updates, u.desc.shard ∉ w.handles) → (∀ x ∈ (s.dev.part p).resFlips, x.2 ∉ w.handles) →
    s.dev.enginesFree p ((w.bufH :: w.handles).flatMap (s.dev.part p).stacksOf) = true →
    (∀ h ∈ w.bufH :: w.handles, h = 0 ∨ s.dev.reach p h = true) → copyFault s.dev p w = none →
    ∃ d, exec (.swatchCopyDone ⟨p, none⟩) s = .next (s.withDev d) ∧ (d.part p).swatch.state = .streaming ∧
      d.hRead p w.bufH 0 (imageOf s.dev p w).length = imageOf s.dev p w ∧
      (∀ a, (a < hKey p w.bufH 0 ∨ hKey p w.bufH 0 + (imageOf s.dev p w).length ≤ a) → mget d.mem a = mget s.dev.mem a)) ∧
  (∀ (p : Fin 8) (s : State), let w := (s.dev.part p).swatch
    let f := s.dev.flow w.destFlow
    w.state = .streaming → f.st = .opened → f.kind = 1 → f.part = p.val → f.dataWaits = false → w.sent < w.bytes → s.dev.reachAll p [w.bufH] = true →
    w.board = 0 →
    ∃ d, exec (.swatchDataSend ⟨p, none⟩) s = .next (s.withDev d) ∧
      (d.part p).swatch.sent = w.sent + min 8160 (w.bytes - w.sent) ∧ d.mem = s.dev.mem) ∧
  (∀ (a : SwatchAck) (s : State), let w := (s.dev.part a.part).swatch
    w.state = .awaitAck → a.swatchId.toNat = w.id →
    (a.result = 0 → a.imageBytes.toNat = w.bytes → a.digest = w.digest → exec (.swatchAck a) s = .next (s.withDev
      (setSwatch s.dev a.part (fun w => { w with state := .acked, ackId := w.id, ackStep := w.step })))) ∧
    (a.result ≠ 0 → exec (.swatchAck a) s = .next (s.withDev (endSwatch s.dev a.part .failed 8))) ∧
    (a.result = 0 → ¬ (a.imageBytes.toNat = w.bytes ∧ a.digest = w.digest) →
      exec (.swatchAck a) s = .next (s.withDev (endSwatch s.dev a.part .failed 7))))

/-- The endpoint is silent outside SERVICE and for a partition without keys: nothing changes (R23). -/
def Obligations.EndpointSilentOutsideService : Prop :=
  ∀ (r : Req) (bad : Option OffFind) (s : State), (s.dev.rd fMode ≠ 2 ∨ s.dev.rd (fPartState r.part) ≠ 3) →
    ∀ c ∈ [Instr.launch r, .abort r, .alloc r, .free r, .put r, .get ⟨r, bad⟩, .query r, .close r], exec c s = .next s

/-- A request that fails a check, on an OPEN LAUNCH flow or not, changes nothing but what the device sends: a STATUS with the code of the
first check that fails, on the request's flow with its JOB_ID and REQ_SEQ (R25, R26). ECHO of a refused ABORT is its REASON (the model's
choice, log entry 48). -/
def Obligations.RefusedRequestsOnlyReply : Prop :=
  ∀ (typ : Nat) (r : Req) (bad : Option OffFind) (d : Device), d.rd fMode = 2 → d.rd (fPartState r.part) = 3 → d.flowWaits r = false →
    d.launchWaits typ r = false → ∀ c, firstFail (headChecks typ r ++ stateChecks typ r d) = c → c ≠ 0 →
    let reply := hostMsg 0x81 r.jobId r.reqSeq (statusBody c 0xFF 0 0 0 (d.part r.part.val).nextStep 0 (echoOf typ r))
    let f := d.flow r.flow.toNat
    request typ r bad d = codeReply d r c (echoOf typ r) ∧
    request typ r bad d = sendHost d r.part.val r.flow reply ∧
    (¬ (f.st = .opened ∧ f.kind = 0 ∧ f.part = r.part.val) → request typ r bad d = d.emit (.host r.part r.flow reply)) ∧
    (f.st = .opened → f.kind = 0 → f.part = r.part.val →
      request typ r bad d = flowSend (d.emit (.host r.part r.flow reply)) r.flow.toNat false (.raw reply))

/-- An accepted LAUNCH queues a work item with the partition's next WI_ID, its START_STEP and STEP_COUNT, and opens the job
when none is open (R29, R51); after a warm reset once the steps before it have committed (R220). -/
def Obligations.LaunchQueuesAWorkItem : Prop :=
  ∀ (r : Req) (s : State), let p := r.part.val
    let P := s.dev.part p
    s.dev.accepts 1 r → P.replays = false → ∃ d w, exec (.launch r) s = .next (s.withDev d) ∧ (d.part p).wis.getLast? = some w ∧
      w.id = P.nextWi ∧ w.startStep = fld r.body 0x10 4 ∧ w.stepCount = fld r.body 0x14 2 ∧ w.state = .queued ∧
      w.cause = .none ∧ w.flow = r.flow ∧ w.reqSeq = r.reqSeq ∧ (d.part p).nextWi = P.nextWi + 1 ∧
      (d.part p).job.isSome = true ∧ (P.job = none → (d.part p).job = some
        { jobId := r.jobId, desc := r.body, nextStep := fld r.body 0x10 4, lastStep := 0 }) ∧ d.mem = s.dev.mem

/-- ABORT (R57): of the running work item it is a fault with cause HOST_ABORT; of a queued one, with none behind it, it takes
the item out; in both cases STATUS answers. QUERY answers with the work item's state and changes nothing else (R25). CLOSE ends the open job (R29). -/
def Obligations.AbortQueryAndClose : Prop :=
  (∀ (r : Req) (s : State) (w : WorkItem), let p := r.part.val
     let id := fld r.body 0 4
     let P := s.dev.part p
     P.findWi id = some w →
     (s.dev.accepts 2 r → id ≠ 0xFFFFFFFF → w.state = .running →
       let d := recordFault s.dev p .hostAbort
       exec (.abort r) s = .next (s.withDev (itemReply d r (fld r.body 4 2) (((d.part p).findWi id).getD w)))) ∧
     (s.dev.accepts 2 r → id ≠ 0xFFFFFFFF → w.state = .queued → (∀ v ∈ P.wis, v.id ≤ id) →
       let v : WorkItem := { w with state := .aborted, cause := .hostAbort }
       exec (.abort r) s = .next (s.withDev (itemReply (s.dev.modPart p (fun P =>
         { P with wis := P.wis.filter (fun v => decide (v.id < id)), ended := P.ended ++ [v] })) r (fld r.body 4 2) v))) ∧
     (s.dev.accepts 7 r → exec (.query r) s = .next (s.withDev (itemReply s.dev r 0 w)))) ∧
  (∀ (r : Req) (s : State), s.dev.accepts 8 r →
     ∃ d, exec (.close r) s = .next (s.withDev d) ∧ (d.part r.part.val).job = none)

/-- ALLOC makes the handle table entry with the fields of its body, granules placed (R35, R36); FREE of a handle no swatch
uses takes the entry out, and its bytes read as 0 from then on (R39). -/
def Obligations.AllocAndFree : Prop :=
  ∀ (r : Req) (s : State), let p := r.part.val
    let f (o n : Nat) := fld r.body o n
    (∀ q, s.dev.accepts 3 r → s.dev.placeHandle p (f 4 1) (f 6 1) (f 8 8) = some q →
      let e : HEntry := { cls := f 4 1, access := f 5 1, localLt := f 6 1, size := f 8 8, place := q }
      exec (.alloc r) s = .next (s.withDev (codeReply
        (refreshMem (s.dev.modPart p (fun P => { P with handles := tput (f 0 4) (some e) P.handles })) p) r 0 0))) ∧
    (let h := f 0 4
     s.dev.accepts 4 r → s.dev.mustWait 4 p h = false → (s.dev.part p).swatch.underWay = false →
      ∃ d, exec (.free r) s = .next (s.withDev (codeReply (refreshMem (settleChans d p) p) r 0 0)) ∧
        (d.part p).entry h = none ∧ (∀ o, o < 2 ^ 38 → mget d.mem (hKey p h o) = 0) ∧
        (∀ a, (a < hKey p h 0 ∨ hKey p h 0 + 2 ^ 38 ≤ a) → mget d.mem a = mget s.dev.mem a) ∧ d.spad = s.dev.spad)

/-- PUT of a handle without ACCESS.PARAM, no event asked for: the data is stored at its offset and STATUS OK answers (R40), where a granule of
the range lies in a FAILED channel too (the model's choice, log entry 130); GET answers with the bytes, a word that ECC corrects recorded
(R367), or POISONED when a granule of the range is poisoned (R60), be it by a word that the read itself finds uncorrectable (R267). -/
def Obligations.PutStoresAndGetReads : Prop :=
  ∀ (r : Req) (s : State), let p := r.part.val
    let h := fld r.body 0 4
    let off := fld r.body 8 8
    (s.dev.accepts 5 r → s.dev.mustWait 5 p h = false → bit ((s.dev.part p).accessOf h) 3 = false → fld r.body 4 1 = 0xFF →
      exec (.put r) s = .next (s.withDev (codeReply (s.dev.hStore p h off (r.body.drop 16)) r 0 0))) ∧
    (s.dev.accepts 6 r → s.dev.mustWait 6 p h = false → (s.dev.part p).poisoned h off (fld r.body 4 4) = false →
      exec (.get ⟨r, none⟩) s = .next (s.withDev (sendHost s.dev p r.flow
        (hostMsg 0x82 r.jobId r.reqSeq (r.body.take 16 ++ s.dev.hRead p h off (fld r.body 4 4)))))) ∧
    (s.dev.accepts 6 r → s.dev.mustWait 6 p h = false → (s.dev.part p).poisoned h off (fld r.body 4 4) = true →
      exec (.get ⟨r, none⟩) s = .next (s.withDev (codeReply s.dev r 0xA 0))) ∧
    (∀ b : OffFind, s.dev.accepts 6 r → s.dev.mustWait 6 p h = false → off ≤ b.off.toNat → b.off.toNat < off + fld r.body 4 4 →
      (let d := readUe p h b.off.toNat none s.dev
       b.corrected = false → (d.part p).poisoned h off (fld r.body 4 4) = true →
        exec (.get ⟨r, some b⟩) s = .next (s.withDev (codeReply d r 0xA 0))) ∧
      (let d := readCe p h b.off.toNat s.dev
       b.corrected = true → (d.part p).poisoned h off (fld r.body 4 4) = false →
        exec (.get ⟨r, some b⟩) s = .next (s.withDev (sendHost d p r.flow
          (hostMsg 0x82 r.jobId r.reqSeq (r.body.take 16 ++ d.hRead p h off (fld r.body 4 4)))))))

/-- A single write lifts the poison of exactly the granules it covers whole, wherever they have a channel; a write that covers
part of a granule stores its bytes and leaves it poisoned (R59). A granule in a FAILED channel stays poisoned (the model's reading, log
entry 59). -/
def Obligations.PoisonIsLiftedByWholeWrites : Prop :=
  ∀ (d : Device) (p h off : Nat) (bs : List Byte) (k : Nat), (∀ e ∈ (d.part p).poison, e.2 = true) →
    let e := d.hStore p h off bs
    mread e.mem (hKey p h off) bs.length = bs ∧
    (tget false (e.part p).poison k = true ↔
      tget false (d.part p).poison k = true ∧ (k ∉ wholeGranules h off bs.length ∨ tget false (d.part p).dead k = true))

/-- A PUT's post increments its counter once the tile is ON and in service, and the PUT is answered then (R40); a NOTICE leaves on the flow of the
work item's LAUNCH once the stores before it are visible (R50), unless that flow is gone (R304). -/
def Obligations.PutPostsAndNotices : Prop :=
  (∀ (p : Fin 8) (flow : BitVec 16) (s : State) (q : PutPost) (qs : List PutPost) (h : Nat), let P := s.dev.part p
    P.putPosts = q :: qs → q.flow = flow → P.runId = q.wi → s.dev.hostOf p q.lt = some h → s.dev.domOn h = true → s.dev.tileOut h = false →
    exec (.putEventPost p flow) s = .next (s.withDev
      (putReply (post (s.dev.modPart p (fun P => { P with putPosts := qs })) [] p q.lt q.ctr 1) p q))) ∧
  (∀ (p : Fin 8) (l : Fin 32) (s : State) (q : Post) (qs : List Post) (w : WorkItem), let t := s.dev.lt p l
    t.posts = q :: qs → q.host = true → q.waits = [] → (s.dev.part p).running = some w →
    (w.mute = true → exec (.hostNotice p l) s = .next (s.withLt p l { t with posts := qs })) ∧
    (w.mute = false → exec (.hostNotice p l) s = .next (s.withDev (sendHost (s.dev.setLt p l { t with posts := qs }) p w.flow
      (hostMsg 0x83 w.jobId w.reqSeq (toLe 4 w.id ++ toLe 1 l.val ++ toLe 1 q.ctr ++ toLe 2 0 ++ toLe 4 q.value.toNat ++ toLe 4 0))))))

/-- WORK_ITEM_START with every tile ON and the program's stacks serving runs the item at the head of the queue (R33, R45): it is RUNNING, every logical tile
starts at its entry offset with its registers of Table 2-11a, and its scratchpad reads 0. -/
def Obligations.WorkItemStarts : Prop :=
  ∀ (p : Fin 8) (s : State) (w : WorkItem) (ws : List WorkItem), let P := s.dev.part p
    P.wis = w :: ws → w.state = .queued → P.seam = .none → s.dev.rd fCfgState ≠ 1 → s.dev.rd fMode = 2 →
    s.dev.canHost p = true → (s.dev.usableTiles p).all s.dev.domOn = true → s.dev.reach p P.prog = true → P.step = w.startStep →
    ∃ d, exec (.workItemStart p) s = .next (s.withDev d) ∧ (d.part p).wis = { w with state := .running } :: ws ∧
      (∀ l, l ∈ P.lts → ∃ Q : Part, d.lt p l = LTile.start Q w l (fld (s.dev.hRead p P.prog (8 * l) 8) 0 8) ∧ Q.desc = P.desc ∧
        ∀ o, o < spadSize → mget d.spad (spKey p l o) = 0) ∧ d.mem = s.dev.mem

/-- TILE_STOP of a logical tile in a stopped step, its stores done, no pass broadcasting and no walk in its queue (R55, R108): it
is stopped, its queue, groups and pass record are gone; here with no link of the partition and its VOID already sent. -/
def Obligations.TileStops : Prop :=
  ∀ (p : Fin 8) (l : Fin 32) (s : State), let P := s.dev.part p
    let t := s.dev.lt p l
    P.isRunning = true → P.seam = .none → P.stopping = true → l.val < P.ltCount → s.dev.ltOn p l = true → t.block ≠ .stopped →
    t.storesDone (P.walking l) = true → t.begun = [] → (∀ o ∈ t.arr, ∀ i w cf, o ≠ .walk i w cf) → P.links = [] →
    P.voidSent = true →
    ∃ d, exec (.tileStop p l) s = .next (s.withDev d) ∧ (d.lt p l).block = .stopped ∧ (d.lt p l).arr = [] ∧
      (d.lt p l).groups = [] ∧ (d.lt p l).passes = [] ∧ d.mem = s.dev.mem ∧ d.spad = s.dev.spad ∧ d.regs = s.dev.regs

/-- A packet that reaches its flow's context (R284, R321) is handled by its type: DATA in its turn is delivered and the next PSN
awaited (R298), ACK takes off what it covers (R299), PROBE is answered (R300), OPEN at a listener opens a context (R293), OPEN_ACK
opens the flow, OPEN_NAK ends it or has it wait, CLOSE closes it (R296). An ACK that covers nothing and answers no PROBE is no progress (R302). -/
def Obligations.PacketsReachTheirFlow : Prop :=
  ∀ (k : Packet) (s : State), let i := k.dstFlow.toNat
    let e (typ : Nat) := s.dev.unsealed typ k
    let f := s.dev.flow i
    let ctrl := bit k.flags.toNat 0
    let q := s.dev.inside k
    (s.dev.takes 1 k → (f.st = .opened ∨ f.st = .closing) →
      exec (.chindData k) s = .next (s.withDev (takeData q i (takeHeader q i (e 1))))) ∧
    (s.dev.takes 1 k → f.st = .opened → s.dev.rd fMode = 2 → f.unacked = [] → f.waiting = [] → f.held = [] → f.closeDue = false → f.closeAt = none →
      k.psn = f.expect ctrl → (ctrl = true ∨ below k.psn f.rxCredit = true) →
      ∃ d, exec (.chindData k) s = .next (s.withDev d) ∧ (d.flow i).expect ctrl = k.psn + 1 ∧ .deliver k.dstFlow ctrl q.payload ∈ d.out) ∧
    (s.dev.takes 2 k → f.st = .opened → f.waiting = [] → f.closeDue = false → f.unacked ≠ [] →
      (∀ u ∈ f.unacked, covers ctrl k.ackPsn k.sack u = true) → ((if ctrl then f.ctlTxNext else f.txNext) - k.ackPsn).toNat < 2 ^ 31 →
      ∃ d, exec (.chindAck k) s = .next (s.withDev d) ∧ (d.flow i).unacked = [] ∧ (d.flow i).retries = 0) ∧
    (s.dev.takes 2 k → f.st = .opened → f.waiting = [] → f.closeDue = false → f.probing = false →
      (∀ u ∈ f.unacked, covers ctrl k.ackPsn k.sack u = false) →
      ∃ d, exec (.chindAck k) s = .next (s.withDev d) ∧ (d.flow i).unacked = f.unacked ∧ (d.flow i).retries = f.retries) ∧
    (s.dev.takes 3 k → (f.st = .opened ∨ f.st = .closing) →
      exec (.chindProbe k) s = .next (s.withDev (probe i (takeHeader q i (e 3))))) ∧
    (let E := e 4
     let kind := fld q.payload 0 1
     ∀ j, s.dev.takes 4 k → f.st = .listen → s.dev.rd fMode = 2 → kind ≤ 1 → openRefused E i q = false →
      (∀ x ∈ E.flows, x.2.st = .opened → x.2.part = i → x.2.kind = kind → x.2.peerFlow = k.srcFlow → x.2.incarn ≠ k.incarn) →
      E.hostFlows i < 256 → E.freeCtx 0 = some j →
      ∃ d, exec (.chindOpen k) s = .next (s.withDev d) ∧ (d.flow j).st = .opened ∧ (d.flow j).kind = kind ∧ (d.flow j).part = i ∧
        (d.flow j).peerFlow = k.srcFlow ∧ (d.flow j).incarn = k.incarn) ∧
    (s.dev.takes 5 k → f.st = .opening → f.closeAt = none → ∃ d, exec (.chindOpenAck k) s = .next (s.withDev d) ∧ (d.flow i).st = .opened ∧
      (d.flow i).peerFlow = k.srcFlow) ∧
    (s.dev.takes 6 k → f.st = .opening → exec (.chindOpenNak k) s = .next (s.withDev
      (if fld q.payload 0 1 = 1 then (e 6).modFlow i (fun f => { f with retries := 0 })
       else if f.waiting = [] ∧ ((e 6).part f.part).meets f.peerDev.toNat = false then freeFlow (e 6) i
       else pumpPeers (losePeer (freeFlow (e 6) i) f.part f.peerDev.toNat) f.part))) ∧
    (s.dev.takes 7 k → f.st = .opened → f.unacked = [] → f.waiting = [] → f.closeDue = false → f.held = [] → f.closeAt = none → k.psn = f.ctlRxNext →
      ∃ d, exec (.chindClose k) s = .next (s.withDev d) ∧ (d.flow i).st = .closing ∧ (d.flow i).ctlRxNext = k.psn + 1)

/-- What ports and their neighbours do: HELLO names the neighbour (R287), WAKE wakes a port in RET and is dropped by one that is ON
(R305), a Neighbor Solicitation for the port's address is answered (R284), a link comes up and goes down (R281, R306), a drained
port is done (R288), a burst of FEC errors is an error of the port (R367), MKA secures it (R322). The model's readings: a frame without SecTAG counts in
ICV_FAIL and in DROPS (log entry 64), a WAKE at a port that is ON is counted nowhere (log entry 74), and the source of a wake at a port in RET is
shown as 1 (log entry 110); its choices: the lane of a port's record is 0xFF (log entry 73), and an agreement under MKA starts both packet numbers at
1 and, where the port was not yet secured, sends HELLO (log entry 138). -/
def Obligations.PortsAndNeighbours : Prop :=
  (∀ (k : Packet) (s : State), let n := k.port.val
    (s.dev.portHears n = true → (s.dev.port n).wakeFirst = false → frameOk s.dev k = true → s.dev.isDirect n = true →
      exec (.chindHello k) s = .next (s.withDev
        (notePorts (((takePn s.dev n k.pn.toNat).modPort n (fun x => { x with neighbour := some k.payload })).wr (fNeighbour n) 1)))) ∧
    (s.dev.rd (fDom (64 + n)) = 1 → s.dev.domOn 79 = true → s.dev.thermTrip = false →
      ∃ d, exec (.chindWake k) s = .next (s.withDev d) ∧ d.rd (fDom (64 + n)) = 3 ∧ d.rd (fDomStep (64 + n)) = 6 ∧
        d.rd (fLastWake (64 + n)) = 9 ∧ d.rd (fWakeSrc n) = 1) ∧
    (s.dev.portHears n = true → (s.dev.port n).wakeFirst = false → frameOk s.dev k = true → exec (.chindWake k) s = .next (s.withDev (takePn s.dev n k.pn.toNat)))) ∧
  (∀ (n : Fin 8) (target : BitVec 128) (ok secTag : Bool) (pn : Word) (s : State), s.dev.portHears n = true → (s.dev.port n).wakeFirst = false →
    (target.toNat = s.dev.rd (fPortIpHi n) * 2 ^ 64 + s.dev.rd (fPortIpLo n) → s.dev.rd fMode ≠ 1 → secOk s.dev n secTag pn.toNat = true →
      ∀ src : BitVec 48, let mac := s.dev.rd (fPortMac n)
      let v := (takePn s.dev n pn.toNat).takeSec n src (BitVec.ofNat 48 mac) (Config.advertBytes mac (s.dev.portIp n))
      exec (.neighborSolicitation n.castSucc target ⟨true, secTag, pn, src⟩) s = .next (s.withDev (v.2.emit (.advert n v.1)))) ∧
    (s.dev.rd fMode ≠ 0 → ok = false ∨ target.toNat ≠ s.dev.rd (fPortIpHi n) * 2 ^ 64 + s.dev.rd (fPortIpLo n) →
      ∀ src, exec (.neighborSolicitation n.castSucc target ⟨ok, secTag, pn, src⟩) s = .next (s.withDev (s.dev.inc (fDrops n)))) ∧
    (s.dev.rd fMode = 0 → ∀ src,
      exec (.neighborSolicitation n.castSucc target ⟨ok, false, pn, src⟩) s = .next (s.withDev ((s.dev.inc (fIcvFail n)).inc (fDrops n))))) ∧
  (∀ (target : BitVec 128) (secTag : Bool) (pn : Word) (src : BitVec 48) (s : State), s.dev.mgtUp = true →
    exec (.neighborSolicitation 8 target ⟨true, secTag, pn, src⟩) s =
      .next (s.withDev (if s.dev.mgtAddr target.toNat then s.dev.emit (.advert 8 none) else s.dev))) ∧
  (∀ (n : Fin 8) (s : State),
    (s.dev.rd (fLink n) ≠ 2 → s.dev.rd (fEnable n) ≠ 0 → (s.dev.port n).failed = false → s.dev.outOfService [9] n = false → s.dev.rd (fDom (64 + n)) ≠ 2 →
      ∃ d, exec (.linkUp n) s = .next (s.withDev d) ∧ d.rd (fLink n) = 2 ∧ d.rd (fFecLock n) = 1 ∧
        d.rd (fAdvertised n) = (if s.dev.domOn (64 + n) && !(s.dev.port n).draining then 1 else 0)) ∧
    (s.dev.rd (fLink n) = 2 → exec (.linkDown n) s = .next (s.withDev (if s.dev.rd (fEnable n) = 1 then
      errorCheck (dropLink s.dev n) { mkRec 0 9 2 (n + 0xFF * 256) with detail := (dropLink s.dev n).rd (fFecUncorr n) } else dropLink s.dev n)) ∧ (dropLink s.dev n).rd (fLink n) = 0) ∧
    ((s.dev.port n).draining = true → (∀ e ∈ s.dev.flows, ∀ u ∈ e.2.unacked, ∀ k ∈ u.tried, pathPort k ≠ n) →
      (s.dev.onlyPath n = false →
        exec (.portDrainDone n) s = .next (s.withDev (s.dev.modPort n (fun x => { x with draining := false })))) ∧
      (s.dev.onlyPath n = true → exec (.portDrainDone n) s = .next (s.withDev (countRefusal s.dev (64 + n) .net)))) ∧
    (s.dev.portHears n = true → s.dev.checks = [] → ∃ d r, exec (.portFecBurst n) s = .next (s.withDev d) ∧
      d.staged = s.dev.staged ++ [r] ∧ r.cls = 0 ∧ r.source = 9 ∧ r.kind = 1 ∧ r.unit = n.val + 0xFF * 256 ∧ r.verdict = 1) ∧
    (s.dev.rd fMode = 0 → s.dev.rd (fLink n) = 2 → s.dev.rd (fMacsec n) ≠ 0 →
      (s.dev.rd fCakSet = 1 → ∀ x : MkaPdu, x.agreed = true → let k := s.dev.newSak n x
        let e := (k.2.modPort n (fun y => { y with rxPn := 1, txPn := 1, sak := k.1 })).wr (fMacsec n) 2
        exec (.mka n true x) s = .next (s.withDev (if s.dev.rd (fMacsec n) = 2 then e else sendHello e n))) ∧
      ∀ a, exec (.mka n false a) s = .next (s.withDev (s.dev.inc (fIcvFail n)))))

/-- The timers of a flow: ACK_DELAY sends the acknowledgement due (R299); at RTO_EXPIRY the oldest packet goes again and RTO
doubles, or a starved flow sends a PROBE (R300, R301); FLOW_DEAD makes a peer UNREACHABLE, and frees other flows (R302). That RTO_EXPIRY resends
the oldest packet, and what each kind of flow becomes at FLOW_DEAD, are the model's readings (log entries 70 and 72). -/
def Obligations.FlowTimers : Prop :=
  ∀ (flow : BitVec 16) (s : State), let i := flow.toNat
    let f := s.dev.flow i
    (f.st = .opened → 0 < f.ackDue → f.ctlAckDue = 0 → s.dev.canSeal f = true → s.dev.paths f ≠ [] →
      ∃ d o, exec (.ackDelay flow) s = .next (s.withDev d) ∧ (d.flow i).ackDue = 0 ∧ d.out = s.dev.out ++ [o]) ∧
    (∀ u us, f.st = .opened → f.unacked = u :: us → ∃ d, exec (.rtoExpiry flow) s = .next (s.withDev d) ∧
      d = probeStarved (retransmit (s.dev.modFlow i (fun f => { f with rto := min 2000000 (2 * f.rto), retries := f.retries + 1 })) i u) i ∧
      (d.flow i).rto = min 2000000 (2 * f.rto) ∧ (d.flow i).retries = f.retries + 1) ∧
    (f.st = .opened → f.unacked = [] → f.starved = true → exec (.rtoExpiry flow) s = .next (s.withDev
      ((sendBare s.dev i 3 false).modFlow i (fun f => { f with probing := true })))) ∧
    (f.st = .closing → exec (.flowDead flow) s = .next (s.withDev (freeFlow s.dev i))) ∧
    (f.st = .opened → f.unacked ≠ [] → f.kind = 2 → (s.dev.part f.part).isRunning = false →
      ∃ d, exec (.flowDead flow) s = .next (s.withDev d) ∧ (d.flow i).st = .unreachable ∧ (d.flow i).unacked = [] ∧
        (d.flow i).waiting = [] ∧ d.rd fUnreach = min (s.dev.rd fUnreach + 1) 0xFFFF)

/-- Maintenance of a stack: a channel below its margin pauses for a retrain and is ACTIVE after it (R263, R264), a row repair ends
(R265) and, with no room left in the repair list, retires its channel (R373), the patrol reads frame after frame and reports what it corrects
(R274), a scrub runs on a stack of no partition (R273). Repair and scrub end while nothing that goes before them has the engine (R271, R372). The patrol's order, channel n mod 32 of row n / 32, and the frame number that stands for
the row of a repair are the model's choices (log entry 61). -/
def Obligations.StackMaintenance : Prop :=
  (∀ (m : Margin) (s : State), s.dev.mayRetrain m = true → ∃ d, exec (.retrainWindow [m]) s = .next (s.withDev d) ∧
    d.ch m.stack m.ch = 1 ∧ d.rd (fMargin m.stack m.ch) = m.margin.toNat) ∧
  (∀ (x c : Fin 32) (s : State), s.dev.ch x c = 1 →
    (∃ d, exec (.retrainDone x c true) s = .next (s.withDev (retryAll d)) ∧ d.ch x c = 0 ∧ tget 0 (d.stack x).retrainFails c = 0 ∧
      d.rd (fRetrains x c) = min (s.dev.rd (fRetrains x c) + 1) 0xFFFF) ∧
    (tget 0 (s.dev.stack x).retrainFails c = 0 → ∃ d, exec (.retrainDone x c false) s = .next (s.withDev (retryAll d)) ∧ d.ch x c = 0 ∧
      tget 0 (d.stack x).retrainFails c = 1)) ∧
  (∀ (x : Fin 32) (bad fixed : List (BitVec 20)) (c row : Nat) (s : State), (s.dev.stack x).repair = some (c, row) →
    s.dev.engineChecked x = false → ∃ d, exec (.rowRepairDone ⟨x, bad, fixed⟩) s = .next (s.withDev (retryAll d)) ∧ (d.stack x).repair = none ∧
      (s.dev.listRoom = true → d.repairs = s.dev.repairs ++ [⟨5, x + 256 * c + 65536 * row, false⟩]) ∧
      (s.dev.listRoom = false → d.repairs = s.dev.repairs ∧ (c < 32 → 2 ≤ d.ch x c))) ∧
  (∀ (x : Fin 32) (s : State), let n := (s.dev.stack x).patrolAt
    s.dev.rd (fPatrolEn x) = 1 → s.dev.domOn (32 + x) = true → s.dev.patrolWaits x = false → s.dev.ch x (n % 32) ≠ 1 →
    (∃ d, exec (.patrolRead x .clean) s = .next (s.withDev (retryAll d)) ∧
      (d.stack x).patrolAt = (n + 1) % patrolFrames) ∧
    (s.dev.ch x (n % 32) ≠ 3 → s.dev.checks = [] → ∃ d r, exec (.patrolRead x .corrected) s = .next (s.withDev (retryAll d)) ∧
      d.staged = s.dev.staged ++ [r] ∧ r.cls = 0 ∧ r.source = 5 ∧ r.unit = x.val + 256 * (n % 32) ∧ r.addr = deviceAddr x (n / 32) (n % 32) 0)) ∧
  (∀ (x : Fin 32) (s : State),
    (s.dev.domOn 72 = true →
      ((s.dev.stackPart x).isSome = true → exec (.scrubStart x) s = .next (s.withDev (s.dev.wr (fScrub x) 3))) ∧
      (s.dev.stackPart x = none → (s.dev.stack x).scrubbing = false → s.dev.domOn (32 + x) = true →
        ∃ d, exec (.scrubStart x) s = .next (s.withDev d) ∧ (d.stack x).scrubbing = true ∧ d.rd (fScrub x) = 1 ∧ d.rd (fDoneMib x) = 0)) ∧
    ((s.dev.stack x).scrubbing = true → s.dev.domOn (32 + x) = true → s.dev.scrubWaits x = false →
      ∃ d, exec (.scrubDone x) s = .next (s.withDev (retryAll d)) ∧
      d.rd (fScrub x) = 2 ∧ d.rd (fDoneMib x) = 49152 ∧ (d.stack x).clean = true))

/-- Drop checks and the log: a waiting check whose unit is free and powered starts (R372), its verdict is TRANSIENT or LASTING and
takes effect (R371, R373), the oldest record reaches the log (R375), an exhausted retry of a mesh or bridge link is FATAL and sets
the hold, one that succeeds is a CE (R367, R374). That a DRAM row found LASTING gets its verdict record only once its remap is committed is the
model's reading (log entry 112). -/
def Obligations.ChecksAndLog : Prop :=
  (∀ (s : State) (c : Check) (cs : List Check), let d := s.dev
    (d.checks.filter (fun c => c.running)).length < 16 → d.checks.filter (fun c => !c.running) = c :: cs → c.req.gone d = false →
    c.req.heldOff d = false → c.req.waits d = false → (∀ x ∈ d.checks, x.running = true → sharesUnit x.req c.req = false) →
    (∀ n, c.req.needs = some n → d.domOn n = true) → exec .dropCheckStart s = .next (s.withDev (beginCheck d c.req))) ∧
  (∀ (seq : BitVec 64) (fails : Bool) (s : State) (c : Check), let d := s.dev
    let n := tget 0 d.transients c.req.key
    let lasting := fails || c.hit || decide (4 ≤ n)
    d.checks.find? (fun c => c.running && decide (c.req.seq = seq.toNat)) = some c → verdictWaits d c.req lasting = false →
    exec (.dropCheckVerdict seq fails) s = .next (s.withDev (retryAll (endCheck
      (if lasting then (if c.req.source = 5 && (lastingAct d c.req).1 = 4 then (lastingAct d c.req).2
         else verdictRec (lastingAct d c.req).2 c.req 3 (lastingAct d c.req).1)
       else verdictRec { d with transients := tset 0 d.transients c.req.key (n + 1) } c.req 2 0) c.req)))) ∧
  (∀ (s : State) (r : ERec) (rs : List ERec), s.dev.staged = r :: rs → s.dev.thermTrip = false →
    exec .errorLogCommit s = .next (tapFollows s { s.dev with log := putLog s.dev.log r, staged := rs })) ∧
  (∀ (die : Fin 6) (link : Fin 16) (attempts : Fin 8) (s : State), s.dev.domOn (if die.val < 4 then 74 + die.val else 68 + die.val) = true →
    (∃ d, exec (.fabricRetryExhausted die ⟨link, attempts, false⟩) s = .next (s.withDev d) ∧ d.rd fHold = 1 ∧ d.rd fAlert = 1) ∧
    (s.dev.checks = [] → ∃ d r, exec (.fabricRetryExhausted die ⟨link, attempts, true⟩) s = .next (s.withDev d) ∧ d.staged = s.dev.staged ++ [r] ∧
      r.cls = 0 ∧ r.source = 8 ∧ r.kind = 1 ∧ r.unit = die.val + 256 * link.val ∧ r.detail = attempts.val + 1 ∧ r.verdict = 1))

/-- Entries and exits of power domains: a request that no refuser turns away starts the entry, a refused one is counted and waits
(R340); the idle timers are such requests (R338); an entry goes step by step and ends in its target state, and a wake at an abort
point abandons it (R341, R342); an exit goes phase by phase and ends ON (R343), an error in a tile's retained SRAM being recorded at memory ready
(R352). -/
def Obligations.PowerEntries : Prop :=
  (∀ (n : Fin 80) (who : Requester) (s : State), let t := entryTarget s.dev who
    asks s.dev n who = true → s.dev.rd (fDom n) = 0 →
    (refuser s.dev n t who = none → exec (.powerEntryRequest n who) s = .next (s.withDev (startEntry s.dev n t))) ∧
    (∀ r, refuser s.dev n t who = some r → ((s.dev.dom n).want.any (fun w => insists w.2) = true → insists who = true) →
      exec (.powerEntryRequest n who) s = .next (s.withDev
      ((countRefusal s.dev n r).modDom n (fun x => { x with want := some (t, who) }))))) ∧
  (∀ (u : Fin 32) (n : Fin 8) (s : State),
    (asks s.dev u .tileIdle = true → s.dev.rd (fDom u) = 0 → refuser s.dev u 1 .tileIdle = none →
      exec (.tileIdleTimer u) s = .next (s.withDev (startEntry s.dev u 1))) ∧
    (asks s.dev (32 + u) .stackIdle = true → s.dev.rd (fDom (32 + u)) = 0 → refuser s.dev (32 + u) 1 .stackIdle = none →
      exec (.stackIdleTimer u) s = .next (s.withDev (startEntry s.dev (32 + u) 1))) ∧
    (asks s.dev (64 + n) .portIdle = true → s.dev.rd (fDom (64 + n)) = 0 → refuser s.dev (64 + n) 1 .portIdle = none →
      exec (.portIdleTimer n) s = .next (s.withDev (startEntry s.dev (64 + n) 1)))) ∧
  (∀ (n : Fin 80) (s : State), let x := s.dev.dom n
    let st := s.dev.rd (fDomStep n)
    let firm := s.dev.rd (fTarget n) = 2 && (asks s.dev n .placementOff || asks s.dev n .security)
    (1 ≤ st → st ≤ 3 → (isPortDom n = true → st = 1 → (s.dev.port (n - 64)).draining = false) →
      (x.wake = none → x.refuse = none → refuser s.dev n (s.dev.rd (fTarget n)) (if firm then .placementOff else .hint) = none →
        exec (.entryStepDone n) s = .next (s.withDev (retryAll (s.dev.wr (fDomStep n) (st + 1))))) ∧
      (x.wake = none → ∀ r, x.refuse = some r → exec (.entryStepDone n) s = .next (s.withDev (retryAll (abandon s.dev n (some (Refuser.ofNum r)))))) ∧
      (∀ c, x.wake = some c → exec (.entryStepDone n) s = .next (s.withDev (retryAll (abandon s.dev n (wakeRefuser c)))))) ∧
    (st = 4 → exec (.entryStepDone n) s = .next (s.withDev (retryAll (s.dev.wr (fDomStep n) 5)))) ∧
    (st = 5 → x.wake = none → x.thenOff = false → x.want = none → ∃ d, exec (.entryStepDone n) s = .next (s.withDev (retryAll d)) ∧
      d.rd (fDom n) = s.dev.rd (fTarget n) ∧ d.rd (fDomStep n) = 0) ∧
    (∀ t who, x.want = some (t, who) → s.dev.rd (fDom n) ≠ 3 →
      exec (.refusalReevaluate n) s = .next (s.withDev (requestEntry n who (s.dev.modDom n (fun x => { x with want := none }))))) ∧
    (∀ failed degraded found, st = 6 → (n.val < 64 → s.dev.fabricExits = false) →
      (s.dev.rd (fDomReady n) < 7 → ∃ d, exec (.exitPhaseDone ⟨n, failed, degraded, found⟩) s = .next (s.withDev (retryAll d)) ∧
        (found = .none → isStackDom n = false ∨ failed = [] ∧ degraded = [] → d.rd (fDomReady n) = 2 * s.dev.rd (fDomReady n) + 1)) ∧
      (s.dev.rd (fDomReady n) = 7 → x.posts = [] → x.want = none →
        ∃ d, exec (.exitPhaseDone ⟨n, failed, degraded, found⟩) s = .next (s.withDev (retryAll d)) ∧
          d.rd (fDom n) = 0 ∧ d.rd (fDomStep n) = 0 ∧ d.rd (fDomReady n) = 15)) ∧
    (∀ part, st = 6 → s.dev.rd (fDomReady n) = 3 → n.val < 32 → s.dev.fabricExits = false → s.dev.checks = [] →
      ∃ d r, exec (.exitPhaseDone ⟨n, [], [], .sram part true⟩) s = .next (s.withDev (retryAll d)) ∧ d.staged = s.dev.staged ++ [r] ∧
        r.cls = 1 ∧ r.source = 4 ∧ r.kind = 2 ∧ r.unit = n.val + 256 * part.val))

/-- R344: a wake that meets an exiting domain changes nothing of it, nor of anything but fabric domains, which wake with a tile or stack (R345);
a domain that is ON is never woken nor the source recorded; and an entry request made during an exit waits until logic ready and is evaluated
then. -/
def Obligations.WakesAndExits : Prop :=
  ∀ (n : Fin 80) (s : State), let d := s.dev
    (∀ code, d.rd (fDom n) = 3 → d.rd (fDomStep n) = 6 → ∃ e, exec (.wakeSource n code) s = .next (s.withDev e) ∧ e.dom n = d.dom n ∧
      e.reg (0x20100 + 8 * n) = d.reg (0x20100 + 8 * n) ∧ (64 ≤ n.val → code ≠ 11 → e = d) ∧
      { e with regs := d.regs, doms := d.doms } = d ∧ (∀ m, ¬(74 ≤ m ∧ m < 78) → e.dom m = d.dom m) ∧
      ∀ a, (∀ k, k < 4 → a ≠ 0x20100 + 8 * (74 + k)) → e.reg a = d.reg a) ∧
    (∀ code, d.rd (fDom n) = 0 → (code ≠ 11 ∨ ∀ k, k < 4 → d.rd (fDom (74 + k)) = 0) → exec (.wakeSource n code) s = .next s) ∧
    (∀ who, d.rd (fDom n) = 3 → d.rd (fDomStep n) = 6 → asks d n who = true →
      ((d.dom n).want.any (fun w => insists w.2) = true → insists who = true) → exec (.powerEntryRequest n who) s = .next (s.withDev
      (d.modDom n (fun x => { x with want := some (entryTarget d who, who) })))) ∧
    (∀ t who failed degraded found, d.rd (fDomStep n) = 6 → d.rd (fDomReady n) = 7 → (n.val < 64 → d.fabricExits = false) →
      (d.dom n).want = some (t, who) →
      ∃ e, exec (.exitPhaseDone ⟨n, failed, degraded, found⟩) s = .next (s.withDev (retryAll (requestEntry n who e))) ∧ e.domOn n = true)

/-- A wake source that meets a domain in RET or OFF starts its exit and is recorded (R343, R345). A wake of a tile or stack wakes the fabric
domains too, and FABRIC_MSG all four at once; from OFF a stack trains (R268), and so does a port's link. -/
def Obligations.WakeStartsAnExit : Prop :=
  ∀ (n : Fin 80) (code : Fin 14) (s : State), s.dev.rd (fDom n) = 1 ∨ s.dev.rd (fDom n) = 2 → sourceFits s.dev n code = true →
    s.dev.domOn 79 = true → s.dev.thermTrip = false →
    let wakes (d : Device) (m c : Nat) : Prop := d.rd (fDom m) = 3 ∧ d.rd (fDomStep m) = 6 ∧ d.rd (fDomReady m) = 0 ∧ d.rd (fLastWake m) = c
    ∃ d, exec (.wakeSource n code) s = .next (s.withDev d) ∧ wakes d n code ∧
      (n.val < 64 ∨ code = 11 → ∀ k, k < 4 → s.dev.rd (fDom (74 + k)) = 1 ∨ s.dev.rd (fDom (74 + k)) = 2 → wakes d (74 + k) 11) ∧
      (s.dev.rd (fDom n) = 2 → (isStackDom n = true → d.rd (fTrain (n - 32)) = 1) ∧
        (64 ≤ n.val → n.val < 72 → d.rd (fLink (n - 64)) = 1))

/-- The throttle level (R350, R403): a window above the cap raises it, the fourth window in a row below 97 % of the cap lowers it,
and a sample with a sensor at its throttle limit raises it; at a trip threshold the device shuts down (R404). No window counts while a reading of the
newest sample lies within 3 degrees of its limit (R403). That the count of low windows starts again at 0 when the level falls, and which sample a
window is held to, are the model's readings (log entry 83). -/
def Obligations.CapAndSensors : Prop :=
  (∀ (w v i : BitVec 16) (s : State), let L := s.dev.rd fLevel
    let cap := s.dev.rd fCapW
    s.dev.domOn 79 = true → ∃ d, exec (.capWindow w v i) s = .next (s.withDev d) ∧ d.rd fPinW = w.toNat ∧
      (cap < w.toNat → d.rd fLevel = min 15 (L + 1) ∧ d.pauseLow = 0) ∧
      (w.toNat ≤ cap → 100 * w.toNat < 97 * cap → s.dev.warm = false → s.dev.pauseLow = 3 → d.rd fLevel = L - 1 ∧ d.pauseLow = 0) ∧
      (w.toNat ≤ cap → 100 * w.toNat < 97 * cap → s.dev.warm = false → s.dev.pauseLow ≠ 3 → d.rd fLevel = L ∧ d.pauseLow = s.dev.pauseLow + 1) ∧
      (w.toNat ≤ cap → 97 * cap ≤ 100 * w.toNat ∨ s.dev.warm = true → d.rd fLevel = L ∧ d.pauseLow = 0)) ∧
  (∀ (ts : List (BitVec 8)) (s : State),
    let anyAt (f : Nat × Nat × Nat → Nat) : Bool := (readings ts).any (fun x => decide (f (s.dev.thresholds x.1) + 40 ≤ x.2))
    s.dev.domOn 79 = true →
    (anyAt (fun t => t.2.2) = false → ∃ d, exec (.sensorSample ⟨ts, []⟩) s = .next (s.withDev d) ∧ d.warm = anyAt (fun t => t.2.1 - 2) ∧
      d.rd fThermWarn = (if anyAt (fun t => t.1) then 1 else 0) ∧
      d.rd fLevel = (if anyAt (fun t => t.2.1) then min 15 (s.dev.rd fLevel + 1) else s.dev.rd fLevel)) ∧
    (anyAt (fun t => t.2.2) = true → ∃ d, exec (.sensorSample ⟨ts, []⟩) s = .next (s.withDev d) ∧ d.thermTrip = true))

/-- The meter's commands (R357, R359 to R363, R365). A METER_RECORD that crosses the isolator also shows the register and SEQ to X0, here with D.X0
ON; one that is torn or lost leaves X0's record (R365). That the register stays at 2^64 - 1 and that a FAULT is latched are the model's choices
(log entry 92). -/
def Obligations.MeterCommands : Prop :=
  ∀ (s : State), let m := s.meter
    (∀ fw ver sig, m.running = false → exec (.meterStart fw ver sig) s = .next (if Config.meterVerify fw sig = true then { s with meter :=
        { m with energy := m.nv.energy, seq := m.nv.seq, pulses := m.nv.pulses, running := true, restart := true, fw := fw, fwSig := sig,
                 fwVer := ver, fwSum := BitVec.ofNat 32 (fld (Config.shake256 fw 256) 0 4) } } else s)) ∧
    (∀ mj mw es, m.running = true → let k := m.integrate mj
      (s.dev.domOn 72 = true → ∃ d, exec (.meterRecord mj mw ⟨es, .whole⟩) s = .next { s with meter := k.sent, dev := d } ∧
        d.rd fMetSeq = m.seq % 2 ^ 64 ∧ d.rd fMetEnergy = k.energy % 2 ^ 64 ∧ d.metRecord = k.record mw.toNat) ∧
      (∀ w, w ≠ .whole → exec (.meterRecord mj mw ⟨es, w⟩) s = .next { s with meter := k.sent }) ∧
      (m.fault ≠ 2 → m.energy + mj < 2 ^ 64 → k.energy = m.energy + mj ∧
        k.pulses = m.pulses + ((m.energy + mj) / 360000 - m.energy / 360000))) ∧
    (m.running = true → m.fault ≠ 2 → m.energy + 360000 < 2 ^ 64 → exec .metPulseStart s = .next { s with meter :=
      { m with energy := 360000 * (m.energy / 360000 + 1), pulse := true, pulses := m.pulses + 1 } }) ∧
    exec .meterPulseEnd s = .next { s with meter := { m with pulse := false } } ∧
    (∀ mj, m.running = true → let k := m.integrate mj
      exec (.meterInputLoss mj) s = .next { s with meter := { k with running := false, nv := ⟨k.energy, k.seq, k.pulses⟩ } }) ∧
    (m.running = true → exec (.meterSelfCheck .pass) s = .next s ∧
      (m.fault ≠ 2 → exec (.meterSelfCheck .selftest) s = .next { s with meter := { m with fault := 1 } }) ∧
      exec (.meterSelfCheck .invalid) s = .next { s with meter := { m with fault := 2 } } ∧ ∀ mj, (m.fault = 2 → m.integrate mj = m))

/-- R358: the audit counter counts accepted changes through the calibration interface and nothing else; it never decreases and
never wraps, and at 0xFFFF_FFFF changes are refused. -/
def Obligations.AuditCounter : Prop :=
  ∀ s : State,
    (s.meter.running = true → s.meter.audit < 0xFFFFFFFF →
      exec .meterCalibration s = .next { s with meter := { s.meter with audit := s.meter.audit + 1 } }) ∧
    (s.meter.audit = 0xFFFFFFFF → exec .meterCalibration s = .next s) ∧
    (∀ c t, exec c s = .next t → s.meter.audit ≤ t.meter.audit ∧ (c ≠ .meterCalibration → t.meter.audit = s.meter.audit) ∧
      (s.meter.audit ≤ 0xFFFFFFFF → t.meter.audit ≤ 0xFFFFFFFF))

/-- Every step keeps the meter sound, and lowers neither its energy register nor its record count nor its pulse count: no command,
no loss of input, no reset (R359, R360, R362). -/
def Obligations.EveryStepKeepsTheMeter : Prop :=
  ∀ s t : State, s.meter.sound → step s = .next t →
    t.meter.sound ∧ s.meter.energy ≤ t.meter.energy ∧ s.meter.seq ≤ t.meter.seq ∧ s.meter.pulses ≤ t.meter.pulses

/-- Keys, partitions and passages: a full COUNTER starts a new epoch or silences the partition (R319), a derivation ends (R321,
R332), a cleansed partition awaits keys, an erased one is ABSENT (R313, R316), a passage goes step by step (R312). That either die's COUNTER ends
the epoch, and both start again at 1, is the model's reading (log entry 75). -/
def Obligations.SecurityEvents : Prop :=
  (∀ (p : Fin 8) (s : State), let P := s.dev.part p
    let e := s.dev.rd (fKeyEpoch p)
    s.dev.rd (fPartState p) = 3 → (2 ^ 40 ≤ P.count0 ∨ 2 ^ 40 ≤ P.count1) →
    (e < 0xFFFE → (∀ f ∈ s.dev.flows, f.2.part ≠ p) → exec (.keyEpochRollover p) s = .next (s.withDev
      ((s.dev.wr (fKeyEpoch p) (e + 1)).modPart p (fun P => { P with count0 := 1, count1 := 1 })))) ∧
    (0xFFFE ≤ e → exec (.keyEpochRollover p) s = .next (s.withDev (s.dev.modPart p (fun P => { P with silent := true }))))) ∧
  (∀ (die : Fin 2) (s : State) (k : KeySlot) (ks : List KeySlot), (s.dev.die die).keys = k :: ks → k.ready = false →
    ∃ d, exec (.keyDerivationDone die) s = .next (s.withDev d) ∧
      (d.die die).keys = if (s.dev.part k.part).ts ≠ [] then
        { k with ready := true, key := (s.dev.store k.part (envKey (s.dev.part k.part).ts k.sender.toNat k.epoch)).1 } :: ks else ks) ∧
  (∀ (p : Fin 8) (s : State),
    (s.dev.cleansed p = true → ∃ d, exec (.partitionCleansed p) s = .next (s.withDev d) ∧ d.rd (fPartState p) = 2 ∧
      (d.flow p).st = .listen ∧ (d.flow p).part = p) ∧
    (s.dev.erased p = true → (s.dev.rd fMode ≠ 2 ∨ s.dev.rd (fValid p) = 0) → ∃ d, exec (.partitionErased p) s = .next (s.withDev d) ∧
      d.rd (fPartState p) = 0 ∧ (d.part p).handles = [] ∧ (d.part p).ts = [])) ∧
  (∀ (s : State), let n := s.dev.rd fPassStep
    s.dev.rd fMode = 1 →
    ((n = 1 ∧ s.dev.passageForce = false) ∨ (n = 3 ∧ s.dev.tilesOff = true) ∨ (n = 4 ∧ s.dev.stacksClean = true) →
      exec .passageStepDone s = .next (s.withDev (s.dev.wr fPassStep (n + 1)))) ∧
    (n = 6 → s.dev.rd fInward = 1 → s.dev.passageVia = none → s.dev.thenOut = false → ∃ d, exec .passageStepDone s = .next (s.withDev d) ∧
      d.rd fMode = 2 ∧ d.rd fPassStep = 0 ∧ d.rd fInward = 0))

/-- Sessions (R395, R397): a HELLO that nothing forbids is answered with CHALLENGE and a new session, the right proof opens it and
a wrong one ends it, CLOSE and the time-out end it, and a lockout expires. -/
def Obligations.SessionsOpenAndEnd : Prop :=
  (∀ (m : WenMsg) (s : State), s.dev.mgtTakes m = true → m.ver = 1 → m.session = 0 → helloCode s.dev m = 0 →
    ∃ d x, exec (.weneusHello m) s = .next (s.withDev d) ∧ d.sess = s.dev.sess ++ [x] ∧ x.role = fld m.body 0 1 ∧ x.part = fld m.body 1 1 ∧
      x.opened = false ∧ x.seq = 0 ∧ x.hello = m.body ∧ d.out = s.dev.out ++ [.weneus (wenHeader 1 2 0 x.id.toNat m.seq.toNat (x.dnonce.length + 8) 0)
        (x.dnonce ++ toLe 8 Config.serial.toNat) none]) ∧
  (∀ (m : WenMsg) (s : State) (x : Sess) (key : List Byte), s.dev.session m.session = some x → s.dev.mgtTakes m = true → m.ver = 1 → x.opened = false →
    s.dev.roleKey (roleSlot x.role x.part) = some key → m.rsvd = 0 → m.code = 0 →
    (m.body = kdf key x.transcript 256 "Weneus client" → ∃ d y, exec (.weneusResponse m) s = .next (s.withDev d) ∧
      d.session m.session = some y ∧ y.opened = true ∧ tget 0 d.fails (roleSlot x.role x.part) = 0) ∧
    (m.body ≠ kdf key x.transcript 256 "Weneus client" → ∃ d, exec (.weneusResponse m) s = .next (s.withDev d) ∧ d.session m.session = none)) ∧
  (∀ (m : WenMsg) (s : State) (x : Sess), s.dev.asked 0x41 [0, 1, 2] false m x → (x.plain m).body = [] →
    ∃ d, exec (.weneusClose m) s = .next (s.withDev d) ∧ d.session m.session = none ∧ d.out.length = s.dev.out.length + 1) ∧
  (∀ (id : BitVec 32) (s : State), ∃ d, exec (.sessionTimeout id) s = .next (s.withDev d) ∧ d.session id = none ∧
    ∀ j, j ≠ id → d.session j = s.dev.session j) ∧
  (∀ (role part : Byte) (s : State), ∃ d, exec (.lockoutExpiry role part) s = .next (s.withDev d) ∧
    tget false d.locked (roleSlot role.toNat part.toNat) = false)

/-- Weneus requests that read: READ, TELEMETRY, LOG_READ, METER_READ, GET_CERT, ATTEST; and WRITE and LOG_CLEAR (R329, R363, R375,
R400, R402). That READ returns consecutive registers, that it counts the ports' codewords first, and how many free values that draws are the model's
readings (log entry 89); that METER_READ with no record taken yet answers OK with an empty body is its choice (log entry 133). -/
def Obligations.ReadRequests : Prop :=
  ∀ (m : WenMsg) (s : State) (x : Sess), let d := s.dev.begun m x
    let answer (e : Device) (typ : Nat) (bs : List Byte) : Host.Outcome State Fault Refusal := .next (s.withDev (replyTo e x.id typ 0 bs))
    let b := (x.plain m).body
    let a := fld b 0 4
    (s.dev.asked 0x10 [0, 1] false m x → b.length = 6 → readCode d x a (fld b 4 2) = 0 → let e := countFec d
      exec (.weneusRead m) s =
        answer { e with free := e.free + 2 ^ 23 } 0x10 ((List.range (fld b 4 2)).flatMap (fun k => toLe 8 (e.readReg (a + 8 * k)).toNat))) ∧
    (s.dev.asked 0x11 [0] false m x → b.length = 16 → zeros b 4 4 = true → a % 8 = 0 → inBlock a = true →
      (rwsMask a = 0 ∨ d.rd fCfgState ≠ 1) → exec (.weneusWrite m) s = answer (writeReg a (BitVec.ofNat 64 (fld b 8 8)) d) 0x11 []) ∧
    (s.dev.asked 0x13 [0] false m x → b = [] →
      exec (.telemetry m) s = answer d 0x13 (telemetryRegs.flatMap (fun a => toLe 8 (d.readReg a).toNat))) ∧
    (s.dev.asked 0x14 [0] false m x → b.length = 9 → 1 ≤ fld b 8 1 → fld b 8 1 ≤ 16 → exec (.logRead m) s =
      answer d 0x14 (((d.log.filter (fun r => decide (fld b 0 8 ≤ r.seq))).take (fld b 8 1)).flatMap ERec.bytes)) ∧
    (s.dev.asked 0x15 [0] true m x → b = [] → exec (.logClear m) s = answer { d with log := [] } 0x15 []) ∧
    (s.dev.asked 0x40 [2] false m x → b = [] → exec (.meterRead m) s = answer d 0x40 d.metRecord) ∧
    (s.dev.asked 0x27 [0, 1, 2] false m x → b = [] → exec (.getCert m) s = answer d 0x27 Config.certificate) ∧
    (s.dev.asked 0x22 [0, 1] false m x → attestCode d x b = 0 →
      let r := d.report (if fld b 0 1 = 1 then some (fld b 1 1) else none) (b.drop 4)
      exec (.attest m) s = answer (d.random.2.inc fAttests) 0x22 (r ++ padTo 1280 (Config.fndsaSign identitySeed d.random.1 r)))

/-- Weneus requests that install keys and firmware: KEY_INSTALL, SET_ROLE_KEY, SET_CAK, RAISE_SVN, FW_BEGIN, FW_DATA, FW_END (R318,
R322, R326, R394, R398, R401). That RAISE_SVN answers one byte is the model's reading (log entry 80). -/
def Obligations.KeyAndFirmwareRequests : Prop :=
  ∀ (m : WenMsg) (s : State) (x : Sess), let d := s.dev.begun m x
    let answer (e : Device) (typ : Nat) (bs : List Byte) : Host.Outcome State Fault Refusal := .next (s.withDev (replyTo e x.id typ 0 bs))
    let b := (x.plain m).body
    (∀ ts, s.dev.asked 0x23 [1] false m x → installCode d x b = 0 → d.unwrap x.part b = some ts →
      exec (.keyInstall m) s = answer (storeSecret d x.part ts) 0x23 []) ∧
    (s.dev.asked 0x24 [0, 1] false m x → b.length = 36 → fld b 0 1 ≤ 2 → zeros b 2 2 = true → (x.role = 1 → fld b 0 1 = 1 ∧ fld b 1 1 = x.part) →
      (fld b 0 1 = 1 → fld b 1 1 ≤ 7 ∧ 2 ≤ d.rd (fPartState (fld b 1 1)) ∧ d.rd (fPartState (fld b 1 1)) ≤ 3) →
      exec (.setRoleKey m) s = answer { d with roleKeys := tput (roleSlot (fld b 0 1) (fld b 1 1)) (b.drop 4) d.roleKeys } 0x24 []) ∧
    (s.dev.asked 0x25 [0] true m x → b.length = 68 → 1 ≤ fld b 0 1 → fld b 0 1 ≤ 32 → zeros b 1 3 = true →
      let t := sealCak (b.drop 36 ++ (b.drop 4).take (fld b 0 1))
      exec (.setCak m) s = answer (({ d with ckn := t.drop 32, cak := t.take 32 } : Device).wr fCakSet 1) 0x25 []) ∧
    (let c := fld b 0 2
     let v := max (d.fusedOf c) (d.comp c).svn
     s.dev.asked 0x26 [0] true m x → b.length = 2 → 1 ≤ c → c ≤ 6 → d.rd (fFwStatus c) = 1 → exec (.raiseSvn m) s =
      answer (({ d with fused := tset none d.fused c (some v) } : Device).wr (fFusedSvn c) v) 0x26 (toLe 1 v)) ∧
    (let t := fld b 0 2
     s.dev.asked 0x30 [0] true m x → b.length = 32 → (1 ≤ t ∧ t ≤ 6 ∨ t = 0x10) → fld b 2 1 ≤ 1 → zeros b 3 5 = true →
      (d.recovery = false ∨ t = 1) → ∃ e l, exec (.fwBegin m) s = answer e 0x30 [] ∧ e.load = some l ∧ l.target = t ∧ l.length = fld b 8 8 ∧
        l.data = [] ∧ (fld b 2 1 = 1 → (e.flow 0).st = .listen)) ∧
    (∀ l, s.dev.asked 0x31 [0] true m x → d.load = some l → 8 ≤ b.length → fld b 0 8 + (b.length - 8) ≤ l.length →
      exec (.fwData m) s = answer { d with load := some { l with data := mwrite l.data (fld b 0 8) (b.drop 8) } } 0x31 []) ∧
    (∀ l, s.dev.asked 0x32 [0] true m x → d.load = some l → b = [] →
      exec (.fwEnd m) s = answer (fwStore (endLoad d) l).2 0x32 (toLe 1 (fwStore (endLoad d) l).1))

/-- Requests that change what the device does: SWAP, CANCEL and REVERT from CFG_CMD and from CONFIG (R389 to R391), ENTER_SERVICE
and ENTER_ADMITTED (R311), the self-test (R378, R381), the resets (R384, R385), and ALERT's clearing (R368). PHASE 3 during a warm reset and the
result of CANCEL are the model's readings (log entries 87 and 88). -/
def Obligations.ControlRequests : Prop :=
  (∀ s : State, s.dev.domOn 72 = true →
    exec (.swap none) s = .next (s.withDev (swapCmd s.dev)) ∧ exec (.cancel none) s = .next (s.withDev (cancelCmd s.dev)) ∧
    exec (.revert none) s = .next (s.withDev (revertCmd s.dev)) ∧
    (s.dev.rd fCfgState = 0 → s.dev.setReason = 0 → (∀ p, p < 8 → (s.dev.part p).isRunning = false) → swapCmd s.dev = applySet s.dev) ∧
    (s.dev.rd fCfgState ≠ 1 → ∀ a, a ∈ rwsRegs → (revertCmd s.dev).shadowOf a = s.dev.active a)) ∧
  (∀ (m : WenMsg) (s : State) (x : Sess), let d := s.dev.begun m x
    let cfg (c : Nat) (e : Device) : Host.Outcome State Fault Refusal :=
      .next (s.withDev (replyTo e x.id 0x12 (if c ≠ 2 ∧ e.rd fCfgResult = 2 then 7 else 0) (toLe 8 (e.reg 0x10000).toNat)))
    (s.dev.asked 0x12 [0] false m x → ((x.plain m).body = toLe 1 1 → exec (.swap (some m)) s = cfg 1 (swapCmd d)) ∧
      ((x.plain m).body = toLe 1 2 → exec (.cancel (some m)) s = cfg 2 (cancelCmd d)) ∧ ((x.plain m).body = toLe 1 3 → exec (.revert (some m)) s = cfg 3 (revertCmd d))) ∧
    (s.dev.asked 0x20 [0] false m x → s.dev.rd fMode = 0 → s.dev.rd fReady = 1 → (x.plain m).body = [] → s.dev.mayServe = true →
      exec (.enterService m) s = .next (s.withDev (beginPassage { d with passageVia := some (x.id, 0x20) } true false 1))) ∧
    (let force := bit (fld (x.plain m).body 0 1) 0
     s.dev.asked 0x21 [0] false m x → s.dev.rd fMode = 2 → (x.plain m).body.length = 1 → fld (x.plain m).body 0 1 ≤ 1 → (s.dev.anyJob = false ∨ force = true) →
      exec (.enterAdmitted m) s = .next (s.withDev (beginPassage { d with passageVia := some (x.id, 0x21) } false force (if force then 2 else 1)))) ∧
    (let k := fld (x.plain m).body 0 1
     let j := fld (x.plain m).body 1 1
     let mode := fld (x.plain m).body 2 1
     s.dev.asked 0x34 [0] false m x → s.dev.rd fMode = 0 → (x.plain m).body.length = 3 → bistTargets k j ≠ [] → 1 ≤ mode → mode ≤ 3 →
      s.dev.rd fTestStatus ≠ 1 → s.dev.tableCovers (bistTargets k j) mode = true →
      ∃ e, exec (.test (.weneus m)) s = .next (s.withDev e) ∧ e.rd fTestStatus = 1 ∧
        e.bist = some { targets := bistTargets k j, mode := mode, failed := false, via := some (x.id, 0x34) }) ∧
    (s.dev.asked 0x35 [0] false m x → (x.plain m).body = toLe 1 0 → ∃ e, exec (.warmReset m) s = .next (s.withDev e) ∧
      e = warmReset (replyTo d x.id 0x35 0 []) ∧ e.rd fPhase = 3 ∧ e.rd fWarm = 1) ∧
    (s.dev.asked 0x35 [0] false m x → (x.plain m).body = toLe 1 1 → ∃ e, exec (.fullReset m) s = .next (tapFollows s e) ∧
      e = fullReset (replyTo d x.id 0x35 0 []) ∧ e.rd fPhase = 2 ∧ e.sess = [] ∧ ∀ n, n < 79 → e.rd (fDom n) = 2)) ∧
  (∀ (w : Word) (s : State), let v := w.toNat
    bit v 0 = true → s.dev.rd fTestStatus ≠ 1 → s.dev.domOn 72 = true → s.dev.rd fMode = 0 →
    s.dev.tableCovers (bistTargets (bits v 31 24) (bits v 23 16)) (bits v 9 8) = true →
    ∃ e b, exec (.test (.reg w)) s = .next (s.withDev e) ∧ e.rd fTestStatus = 1 ∧ e.bist = some b ∧
      b.targets = bistTargets (bits v 31 24) (bits v 23 16) ∧ b.mode = bits v 9 8 ∧ b.via = none) ∧
  (∀ (s : State) (b : Bist), s.dev.bist = some b → b.via = none → (∀ t ∈ b.targets, t.1 = 2) →
    ∃ e, exec .selfTestDone s = .next (s.withDev e) ∧ e.bist = none ∧
      e.rd fTestStatus = if (b.targets.flatMap (testTarget s.dev b.mode)).any (fun r => r.bad) then 3 else 2) ∧
  (∀ s : State, exec .alertClear s = .next (s.withDev (s.dev.wr fAlert 0)))

/-- Access types (R5, R6): a write to a register of RO or MRO fields, or to an address with no register, changes nothing; an RW field keeps what is
written, and reads as that; a W1C bit clears with 1 only; a WO field and a reserved bit read 0. R388: a write to an RWS field changes the shadow set
only, which MRAM holds and a power loss leaves; CFG_SH_DATA reads it back; while a swap is pending it is refused, over Weneus with BUSY, and the
shadow set is unchanged. -/
def Obligations.ShadowWrites : Prop :=
  (∀ (a : BitVec 32) (w : Word) (s : State), let n := a.toNat
    let v := w &&& BitVec.ofNat 64 (rwsMask n)
    s.dev.domOn 72 = true → rwsMask n ≠ 0 →
    (s.dev.rd fCfgState ≠ 1 →
      (∃ d, exec (.shadowWrite a w) s = .next (s.withDev d) ∧ d.shadowOf n = v ∧ (∀ b, b ≠ n → d.shadowOf b = s.dev.shadowOf b) ∧
        (∀ b, d.reg b = s.dev.reg b) ∧ d.mramActive = s.dev.mramActive ∧ (powerLoss d).shadow = d.shadow) ∧
      (∃ d, exec (.registerWrite a w) s = .next (s.withDev d) ∧ d.shadowOf n = v ∧ (∀ b, b ≠ n → d.shadowOf b = s.dev.shadowOf b) ∧
        (∀ b, d.active b = s.dev.active b))) ∧
    (s.dev.rd fCfgState = 1 → exec (.shadowWrite a w) s = .next s ∧ exec (.registerWrite a w) s = .next s ∧
      ∀ m x, s.dev.asked 0x11 [0] false m x → (x.plain m).body.length = 16 → zeros (x.plain m).body 4 4 = true → fld (x.plain m).body 0 4 = n →
        exec (.weneusWrite m) s = .next (s.withDev (replyTo (s.dev.begun m x) x.id 0x11 5 []))) ∧
    s.dev.readReg 0x10108 = s.dev.shadowOf (bits (s.dev.reg 0x10100).toNat 23 0)) ∧
  (∀ (a : BitVec 32) (w : Word) (s : State), let n := a.toNat
    let d := s.dev
    let e := writeReg n w d
    let m := BitVec.ofNat 64 (rwMask n)
    exec (.registerWrite a w) s = .next (s.withDev e) ∧ (∀ b, d.readReg b &&& ~~~(BitVec.ofNat 64 (fieldBits b)) = 0) ∧
    (d.domOn 72 = true → n % 8 = 0 → inBlock n = true →
      (rwMask n = 0 → rwsMask n = 0 → w1cMask n = 0 → n ≠ 0x10008 → n ≠ 0x700000 → scrubAddr n = none → e = d) ∧
      (rwMask n ≠ 0 → (rwsMask n = 0 ∨ d.rd fCfgState ≠ 1) → (n = 0x40480 → d.rd fMode = 0) →
        e.reg n &&& m = w &&& m ∧ e.reg n &&& ~~~m = d.reg n &&& ~~~m ∧ (∀ b, b ≠ n → e.reg b = d.reg b) ∧
        (n < 0x100000 ∨ 0x500000 ≤ n → e.readReg n &&& m = w &&& m)) ∧
      (w1cMask n ≠ 0 → (bit w.toNat 1 = true → e = d.wr fAlert 0) ∧ (bit w.toNat 1 = false → e = d)) ∧
      (n = 0x40480 → d.rd fMode ≠ 0 → e = d)))

/-- Start-up and input power: steps 1 and 2, the ROM's step 3, the sets' step 5 and the last of steps 7 and 8 (R384); VIN_50 and
RESET_N start and stop the module (R413, R414); TEST_EN (R417). That PWR_OK rises at once with RESET_N, and the voltages in millivolts at which the
input stage starts and stops, are the model's readings (log entries 86 and 91). -/
def Obligations.StartAndPins : Prop :=
  (∀ (r : BootReport) (s : State), s.dev.stepDue r.step = true →
    ∃ d, exec (.startupStepDone r) s = .next (s.withDev d) ∧
      (r.step = 1 → d.rd fPhase = 2 ∧ d.pwrOk = true ∧ d.domOn 79 = true ∧ d.strapPos = r.straps.brdPos ∧ d.strapSlot = r.straps.slotId ∧
        d.strapBoard = r.straps.boardMode) ∧
      (r.step = 2 → d.rd fPhase = 3 ∧ d.domOn 72 = true ∧ d.domOn 78 = true) ∧
      (r.step = 3 → d.bootNv = (s.dev.bootNv + 1) % 2 ^ 32 ∧ (d.rd fPhase = 4 ∨ d.recovery = true)) ∧
      (r.step = 5 → r.activeOk = true → r.shadowOk = true → d.rd fPhase = 6 ∧ ∀ a ∈ rwsRegs, d.active a =
        tget 0 s.dev.mramActive a &&& BitVec.ofNat 64 (rwsMask a)) ∧
      (r.step = 8 → s.dev.step7 = true → d.rd fPhase = 9 ∧ d.rd fReady = 1 ∧ d.rd fMode = 0)) ∧
  (∀ (mv : Nat) (s : State),
    (s.dev.powered = false → s.dev.resetN = true → s.dev.lockout = false → 40000 ≤ mv → mv ≤ 60000 →
      ∃ d, exec (.vinRise mv) s = .next { s with dev := d, tap := Tap.reset } ∧ d.powered = true ∧ d.rd fPhase = 1 ∧ d.vinMv = mv) ∧
    (s.dev.powered = true → mv < 38000 → ∃ d, exec (.vinLow mv) s = .next (tapFollows s d) ∧ d.powered = false ∧ d.pwrOk = false ∧
      d.mem = [] ∧ d.log = s.dev.log ∧ d.shadow = s.dev.shadow ∧ d.repairs = s.dev.repairs) ∧
    (62000 < mv → (∃ d, exec (.vinOver mv) s = .next (tapFollows s d) ∧ d.powered = false ∧ d.lockout = true ∧ d.vinMv = mv) ∧
      (∃ d, exec (.vinRise mv) s = .next (tapFollows s d) ∧ d.powered = false ∧ d.lockout = true ∧ d.vinMv = mv)) ∧
    (s.dev.powered = false → s.dev.resetN = true → 40000 ≤ mv → mv < 60000 →
      ∃ d, exec (.overVoltageLockoutEnd mv) s = .next { s with dev := d, tap := Tap.reset } ∧ d.lockout = false ∧ d.powered = true)) ∧
  (∀ s : State, ∃ d, exec .resetNFall s = .next (tapFollows s d) ∧ d.resetN = false ∧ d.pwrOk = false ∧ d.powered = s.dev.powered ∧
    d.log = s.dev.log ∧ d.staged = s.dev.staged ∧ ∀ n, n < 79 → d.rd (fDom n) = 2) ∧
  (∀ (st : Straps) (s : State), s.dev.resetN = false → s.dev.powered = true → ∃ d, exec (.resetNRise st) s = .next (tapFollows s d) ∧
    d.resetN = true ∧ d.pwrOk = true ∧ d.rd fPhase = 2 ∧ d.strapPos = st.brdPos ∧ d.strapSlot = st.slotId) ∧
  (∀ s : State, let d := ({ s.dev with testEn := true } : Device).wr fTestEn 1
    (s.dev.rd fMode = 0 → exec .testEnRise s = .next (s.withDev d)) ∧
    (s.dev.rd fMode = 2 → exec .testEnRise s = .next (s.withDev (beginPassage d false true 3))) ∧
    exec .testEnFall s = .next { s with dev := ({ s.dev with testEn := false } : Device).wr fTestEn 0, tap := s.tap.closed })

/-- The test access port (R416, R417): in a JTAG session EXTEST drives the pins and the Tlanea instructions are taken, without one
they act as BYPASS; IDCODE, USERCODE and SAMPLE/PRELOAD are always taken; and no step leaves the cells driving under another
instruction than EXTEST. That the instruction register holds the instruction in effect, 0xFF for one not allowed, and which pins a cell captures are
the model's choices (log entry 90). -/
def Obligations.TestAccessPort : Prop :=
  (∀ s : State, s.dev.powered = true → let d : Device := { s.dev with free := s.dev.free + 1 }
    exec .tapReset s = .next { s with dev := d, tap := Tap.reset } ∧
    exec .idcode s = .next { s with dev := d, tap := { s.tap with ir := 0x02#8, driving := false, dr := 0x1A32E36F#32 } } ∧
    (∃ v : BitVec 32, exec .usercode s = .next { s with dev := d, tap := { s.tap with ir := 0x03#8, driving := false, dr := v } } ∧
      v.toNat % 64 = s.dev.strapSlot.toNat ∧ v.toNat / 64 % 4 = s.dev.strapPos.toNat ∧ (v.toNat / 256 = if s.dev.strapBoard then 1 else 0)) ∧
    (∀ code, exec (.bypass code) s = .next { s with dev := d, tap := s.tap.bypassed }) ∧
    (∀ cells, ∃ v, exec (.samplePreload cells) s = .next { s with dev := d, tap := ⟨0x01#8, cells, false, v⟩ } ∧
      (v.getLsbD 0 = s.dev.resetN ∧ v.getLsbD 1 = s.dev.pwrOk)) ∧
    (∀ cells, (s.dev.jtagOpen = true → ∃ v, exec (.extest cells) s = .next { s with dev := d, tap := ⟨0x00#8, cells, true, v⟩ }) ∧
      (s.dev.jtagOpen = false → exec (.extest cells) s = .next { s with dev := d, tap := s.tap.bypassed })) ∧
    (∀ code, (s.dev.jtagOpen = true → 0x10#8 ≤ code → code ≤ 0x7F#8 → ∃ v, exec (.tlaneaTest code) s =
        .next { s with dev := d, tap := { s.tap with ir := code, driving := false, dr := v } }) ∧
      (s.dev.jtagOpen = false → exec (.tlaneaTest code) s = .next { s with dev := d, tap := s.tap.bypassed }))) ∧
  (∀ s t : State, (s.tap.driving = true → s.tap.ir = 0x00#8) → step s = .next t → t.tap.driving = true → t.tap.ir = 0x00#8)

/-- The machine at reset: no command waits, the register values the spec gives, every domain but D.AON OFF, the device ADMITTED, every
partition ABSENT, every flow FREE, every channel ACTIVE, SEQ of the meter 1, IDCODE selected; memory is in canonical form and
the meter sound. The state before the first start-up is the model's choice (log entries 5 to 7). -/
def Obligations.ResetState : Prop :=
  let s := State.reset
  s.pending = [] ∧ s.canonical ∧ s.meter.sound ∧ s.meter.seq = 1 ∧ s.tap.dr = 0x1A32E36F#32 ∧
  s.dev.rd fPhase = 1 ∧ s.dev.rd fReady = 0 ∧ s.dev.rd fMode = 0 ∧ s.dev.reg 0x80000 = 0x00140801#64 ∧ s.dev.reg 0x40480 = 0xFF00#64 ∧
  (∀ k, k < 9 → s.dev.reg (0x100 + 8 * k) = BitVec.allOnes 64) ∧ (∀ n, n < 80 → s.dev.rd (fDom n) = if n = 79 then 0 else 2) ∧
  (∀ p, p < 8 → s.dev.rd (fPartState p) = 0 ∧ s.dev.reg (0x500200 + 8 * p) = 0x7FF0000000000000#64) ∧
  (∀ x c, x < 32 → c < 32 → s.dev.ch x c = 0) ∧ (∀ i, (s.dev.flow i).st = .free)

/-- R46: an address register holds a handle and an offset; the offset counts 64-byte units behind a handle, and bytes of the
logical tile's own scratchpad for handle 0, where bits [31:25] must be 0. -/
def Obligations.AddressRegisters : Prop :=
  ∀ (a : Word) (d : Device) (p n : Nat), let h := bits a.toNat 63 32
    let x := locOf a
    (h ≠ 0 → x.h = h ∧ x.pos = bits a.toNat 31 0 * 64 ∧ x.bad = false) ∧
    (h = 0 → x.h = 0 ∧ x.pos = bits a.toNat 24 0 ∧ (x.bad = true ↔ bits a.toNat 31 25 ≠ 0) ∧
      (bits a.toNat 31 25 ≠ 0 → d.readFault p x n = some .bounds ∧ d.writeFault p x n = some .bounds))
end

