-- ==== Sys2Proof/Laws/Bytes.lean ====
section
/-! SUPPORT. Little-endian fields: reading back what was laid out. -/
namespace Sys2Proof.Machine

@[simp] theorem length_toLe (n v : Nat) : (toLe n v).length = n := by
  induction n generalizing v with
  | zero => rfl
  | succ n ih => simp [toLe, ih]

/-- A value laid out in `n` bytes reads back modulo 256^n. -/
@[simp] theorem leNat_toLe (n v : Nat) : leNat (toLe n v) = v % 256 ^ n := by
  induction n generalizing v with
  | zero => simp [toLe, leNat, Nat.mod_one]
  | succ n ih =>
    simp only [toLe, leNat, ih, BitVec.toNat_ofNat]
    rw [show (2 : Nat) ^ 8 = 256 from rfl, Nat.pow_succ', Nat.mod_mul]

/-- A field whose bytes stand in a list at its offset is that list's value. -/
theorem fld_append (pre bs post : List Byte) : fld (pre ++ bs ++ post) pre.length bs.length = leNat bs := by
  unfold fld
  congr 1
  apply List.ext_getElem
  · simp
  · intro i h1 h2
    simp at h1
    simp [List.getD, List.getElem?_append, h1]

/-- A field reads back what was laid out at its offset. -/
theorem fld_toLe (pre post : List Byte) (n v : Nat) : fld (pre ++ toLe n v ++ post) pre.length n = v % 256 ^ n := by
  have h := fld_append pre (toLe n v) post
  rw [length_toLe] at h
  rw [h, leNat_toLe]

end Sys2Proof.Machine
end

