-- ==== Sys2Proof/Laws/Tab.lean ====
section
/-! SUPPORT. Laws of sparse tables and memories: a read after a write gives what was written, a write leaves every other
place alone, and every operation keeps the canonical form. -/
namespace Sys2Proof.Machine

variable {α : Type}

@[simp] theorem tget_tput_same (d : α) (k : Nat) (v : α) (m : Tab α) : tget d (tput k v m) k = v := by
  induction m with
  | nil => simp [tput, tget]
  | cons e t ih =>
    obtain ⟨j, w⟩ := e
    simp only [tput]
    split
    · simp [tget]
    · split
      · simp [tget]
      · rename_i h; simp [tget, Ne.symm h, ih]

theorem tget_tput_other (d : α) {k j : Nat} (v : α) (m : Tab α) (h : j ≠ k) : tget d (tput k v m) j = tget d m j := by
  induction m with
  | nil => simp [tput, tget, Ne.symm h]
  | cons e t ih =>
    obtain ⟨i, w⟩ := e
    simp only [tput]
    split
    · simp [tget, Ne.symm h]
    · split
      · rename_i hk; simp [tget, ← hk, Ne.symm h]
      · simp only [tget, ih]

theorem tget_tput (d : α) (k j : Nat) (v : α) (m : Tab α) :
    tget d (tput k v m) j = if j = k then v else tget d m j := by
  split
  · subst j; simp
  · exact tget_tput_other d v m ‹_›

@[simp] theorem tget_tdel_same (d : α) (k : Nat) (m : Tab α) : tget d (tdel k m) k = d := by
  induction m with
  | nil => rfl
  | cons e t ih =>
    obtain ⟨j, w⟩ := e
    simp only [tdel]
    split
    · exact ih
    · rename_i h; simp [tget, h, ih]

theorem tget_tdel_other (d : α) {k j : Nat} (m : Tab α) (h : j ≠ k) : tget d (tdel k m) j = tget d m j := by
  induction m with
  | nil => rfl
  | cons e t ih =>
    obtain ⟨i, w⟩ := e
    simp only [tdel]
    split
    · rename_i hi; simp [tget, hi, Ne.symm h, ih]
    · simp only [tget, ih]

variable [DecidableEq α]

@[simp] theorem tget_tset_same (d : α) (m : Tab α) (k : Nat) (v : α) : tget d (tset d m k v) k = v := by
  unfold tset
  split
  · rename_i h; subst h; simp
  · simp

theorem tget_tset_other (d d' : α) {k j : Nat} (m : Tab α) (v : α) (h : j ≠ k) :
    tget d (tset d' m k v) j = tget d m j := by
  unfold tset
  split
  · exact tget_tdel_other d m h
  · exact tget_tput_other d v m h

theorem tget_tset (d : α) (m : Tab α) (k j : Nat) (v : α) :
    tget d (tset d m k v) j = if j = k then v else tget d m j := by
  split
  · subst j; simp
  · exact tget_tset_other d d m v ‹_›

-- The canonical form.

theorem twfFrom_mono {d : α} {lo lo' : Nat} {m : Tab α} (h : twfFrom d lo m = true) (hl : lo' ≤ lo) :
    twfFrom d lo' m = true := by
  cases m with
  | nil => rfl
  | cons e t => obtain ⟨k, v⟩ := e; simp_all [twfFrom]; omega

theorem twfFrom_tput {d : α} {lo k : Nat} {v : α} {m : Tab α} (h : twfFrom d lo m = true) (hk : lo ≤ k) (hv : v ≠ d) :
    twfFrom d lo (tput k v m) = true := by
  induction m generalizing lo with
  | nil => simp [tput, twfFrom, hk, hv]
  | cons e t ih =>
    obtain ⟨j, w⟩ := e
    simp only [twfFrom, Bool.and_eq_true, decide_eq_true_eq] at h
    obtain ⟨⟨h1, h2⟩, h3⟩ := h
    simp only [tput]
    split
    · rename_i hlt
      simp [twfFrom, hk, hv, h2, h3]; omega
    · split
      · rename_i heq; subst heq; simp [twfFrom, hk, hv, h3]
      · simp only [twfFrom, Bool.and_eq_true, decide_eq_true_eq]
        exact ⟨⟨h1, h2⟩, ih h3 (by omega)⟩

theorem twfFrom_filter {d : α} {f : Nat × α → Bool} {lo : Nat} {m : Tab α} (h : twfFrom d lo m = true) :
    twfFrom d lo (m.filter f) = true := by
  induction m generalizing lo with
  | nil => rfl
  | cons e t ih =>
    obtain ⟨j, w⟩ := e
    simp only [twfFrom, Bool.and_eq_true, decide_eq_true_eq] at h
    simp only [List.filter_cons]
    split
    · simp only [twfFrom, Bool.and_eq_true, decide_eq_true_eq]; exact ⟨h.1, ih h.2⟩
    · exact twfFrom_mono (ih h.2) (by omega)

omit [DecidableEq α] in
theorem tdel_eq_filter (k : Nat) (m : Tab α) : tdel k m = m.filter (fun e => decide (e.1 ≠ k)) := by
  induction m with
  | nil => rfl
  | cons e t ih =>
    obtain ⟨j, w⟩ := e
    by_cases h : j = k <;> simp [tdel, h, ih]

/-- A write keeps the canonical form. -/
theorem twf_tset {d : α} {m : Tab α} (k : Nat) (v : α) (h : twf d m = true) : twf d (tset d m k v) = true := by
  unfold tset
  split
  · rw [tdel_eq_filter]; exact twfFrom_filter h
  · exact twfFrom_tput h (Nat.zero_le _) ‹_›

/-- Dropping entries keeps the canonical form. -/
theorem twf_tdrop {d : α} {m : Tab α} (f : Nat → Bool) (h : twf d m = true) : twf d (tdrop f m) = true :=
  twfFrom_filter h

-- Memories.

@[simp] theorem mget_mset_same (m : Mem) (a : Nat) (b : Byte) : mget (mset m a b) a = b := tget_tset_same _ _ _ _

theorem mget_mset_other (m : Mem) {a x : Nat} (b : Byte) (h : x ≠ a) : mget (mset m a b) x = mget m x :=
  tget_tset_other _ _ _ _ h

/-- `mwrite` leaves every address outside its bytes alone. -/
theorem mget_mwrite_other (m : Mem) (bs : List Byte) {a x : Nat} (h : x < a ∨ a + bs.length ≤ x) :
    mget (mwrite m a bs) x = mget m x := by
  induction bs generalizing m a with
  | nil => rfl
  | cons b bs ih =>
    simp only [List.length_cons] at h
    rw [mwrite, ih _ (by omega), mget_mset_other _ _ (by omega)]

/-- `mwrite` stores its bytes. -/
theorem mget_mwrite (m : Mem) (bs : List Byte) (a i : Nat) (h : i < bs.length) :
    mget (mwrite m a bs) (a + i) = bs.getD i 0 := by
  induction bs generalizing m a i with
  | nil => simp at h
  | cons b bs ih =>
    rw [mwrite]
    cases i with
    | zero => rw [mget_mwrite_other _ _ (by omega)]; simp
    | succ i =>
      have := ih (mset m a b) (a + 1) i (by simpa using h)
      rw [show a + (i + 1) = a + 1 + i by omega, this]; simp

/-- A read after a write of the same bytes gives what was written. -/
theorem mread_mwrite (m : Mem) (a : Nat) (bs : List Byte) : mread (mwrite m a bs) a bs.length = bs := by
  apply List.ext_getElem
  · simp [mread]
  · intro i h1 h2
    simp only [mread, List.getElem_map, List.getElem_range]
    rw [mget_mwrite _ _ _ _ h2]; simp [List.getD_eq_getElem?_getD, h2]

/-- Every memory operation keeps the canonical form. -/
theorem mwf_mset {m : Mem} (a : Nat) (b : Byte) (h : mwf m = true) : mwf (mset m a b) = true := twf_tset a b h

theorem mwf_mwrite {m : Mem} (a : Nat) (bs : List Byte) (h : mwf m = true) : mwf (mwrite m a bs) = true := by
  induction bs generalizing m a with
  | nil => exact h
  | cons b bs ih => exact ih _ (mwf_mset a b h)

theorem mwf_mclear {m : Mem} (a n : Nat) (h : mwf m = true) : mwf (mclear m a n) = true := twf_tdrop _ h

end Sys2Proof.Machine
end

