-- ==== Sys2Proof/Laws/Regs.lean ====
section
/-! SUPPORT. Laws of registers and their fields: a field reads as written, other fields and other registers keep their
values, and a field write changes nothing but the register space. -/
namespace Sys2Proof.Machine

@[simp] theorem reg_setReg_same (d : Device) (a : Nat) (w : Word) : (d.setReg a w).reg a = w := tget_tset_same _ _ _ _

theorem reg_setReg_other (d : Device) {a b : Nat} (w : Word) (h : b ≠ a) : (d.setReg a w).reg b = d.reg b :=
  tget_tset_other _ _ _ _ h

theorem bits_eq (v hi lo : Nat) : bits v hi lo = v >>> lo % 2 ^ (hi - lo + 1) := by
  simp [bits, Nat.shiftRight_eq_div_pow]

theorem bits_lt (v hi lo : Nat) : bits v hi lo < 2 ^ (hi - lo + 1) := Nat.mod_lt _ (Nat.two_pow_pos _)

theorem testBit_bits (v hi lo i : Nat) : (bits v hi lo).testBit i = (decide (i < hi - lo + 1) && v.testBit (lo + i)) := by
  simp [bits_eq, Nat.testBit_mod_two_pow, Nat.testBit_shiftRight]

theorem testBit_maskOf (hi lo i : Nat) : (maskOf hi lo).testBit i = (decide (lo ≤ i) && decide (i < lo + (hi - lo + 1))) := by
  rw [maskOf, Nat.testBit_mul_two_pow, Nat.testBit_two_pow_sub_one]
  by_cases h : lo ≤ i
  · simp [h]; omega
  · simp [h]

theorem testBit_putBits (w : Word) (hi lo v i : Nat) (hi64 : i < 64) :
    (putBits w hi lo v).toNat.testBit i =
      if lo ≤ i ∧ i < lo + (hi - lo + 1) then v.testBit (i - lo) else w.toNat.testBit i := by
  rw [← BitVec.getLsbD, putBits]
  simp only [BitVec.getLsbD_or, BitVec.getLsbD_and, BitVec.getLsbD_not, BitVec.getLsbD_ofNat, hi64, decide_true,
    Bool.true_and, testBit_maskOf, Nat.testBit_mul_two_pow, Nat.testBit_mod_two_pow]
  by_cases h1 : lo ≤ i <;> by_cases h2 : i < lo + (hi - lo + 1) <;>
    simp [h1, h2, BitVec.getLsbD, show i - lo < hi - lo + 1 ↔ i < lo + (hi - lo + 1) by omega]

/-- A field reads as written. -/
theorem bits_putBits_same (w : Word) {hi lo : Nat} (v : Nat) (h : hi < 64) (hl : lo ≤ hi) :
    bits (putBits w hi lo v).toNat hi lo = v % 2 ^ (hi - lo + 1) := by
  apply Nat.eq_of_testBit_eq
  intro i
  rw [testBit_bits, Nat.testBit_mod_two_pow]
  by_cases hi' : i < hi - lo + 1
  · rw [testBit_putBits _ _ _ _ _ (by omega)]
    simp [hi']
  · simp [hi']

/-- Writing a field leaves a disjoint field of the register alone. -/
theorem bits_putBits_other (w : Word) {hi lo hi' lo' : Nat} (v : Nat) (h' : hi' < 64) (hl : lo ≤ hi)
    (hl' : lo' ≤ hi') (hd : hi < lo' ∨ hi' < lo) : bits (putBits w hi lo v).toNat hi' lo' = bits w.toNat hi' lo' := by
  apply Nat.eq_of_testBit_eq
  intro i
  rw [testBit_bits, testBit_bits]
  by_cases hi : i < hi' - lo' + 1
  · rw [testBit_putBits _ _ _ _ _ (by omega)]
    split
    · omega
    · rfl
  · simp [hi]

/-- A field that lies in its register. -/
def Fld.ok (f : Fld) : Prop := f.lo ≤ f.hi ∧ f.hi < 64
/-- Two fields that share no bit. -/
def Fld.apart (f g : Fld) : Prop := f.addr ≠ g.addr ∨ f.hi < g.lo ∨ g.hi < f.lo

theorem rd_wr_same (d : Device) (f : Fld) (v : Nat) (h : f.ok) : (d.wr f v).rd f = v % 2 ^ (f.hi - f.lo + 1) := by
  simp only [Device.rd, Device.wr, reg_setReg_same]
  exact bits_putBits_same _ _ h.2 h.1

theorem rd_wr_apart (d : Device) (f g : Fld) (v : Nat) (hf : f.ok) (hg : g.ok) (h : f.apart g) :
    (d.wr f v).rd g = d.rd g := by
  simp only [Device.rd, Device.wr]
  by_cases ha : g.addr = f.addr
  · rw [ha, reg_setReg_same]
    exact bits_putBits_other _ _ hg.2 hf.1 hg.1 (by rcases h with h | h; exact absurd ha.symm h; exact h)
  · rw [reg_setReg_other _ _ ha]

theorem rd_lt (d : Device) (f : Fld) : d.rd f < 2 ^ (f.hi - f.lo + 1) := bits_lt _ _ _

/-- A counter field counts up to all ones and stays there. -/
theorem rd_inc (d : Device) (f : Fld) (n : Nat) (h : f.ok) :
    (d.inc f n).rd f = min (d.rd f + n) (2 ^ (f.hi - f.lo + 1) - 1) := by
  have hp := Nat.two_pow_pos (f.hi - f.lo + 1)
  rw [Device.inc, rd_wr_same _ _ _ h]
  unfold satAdd
  split
  · rw [Nat.mod_eq_of_lt (by omega)]; omega
  · rw [Nat.mod_eq_of_lt (by omega)]; omega

theorem rd_inc_apart (d : Device) (f g : Fld) (n : Nat) (hf : f.ok) (hg : g.ok) (h : f.apart g) :
    (d.inc f n).rd g = d.rd g := rd_wr_apart _ _ _ _ hf hg h

end Sys2Proof.Machine
end

