-- ==== Sys2Proof/Laws/State.lean ====
section
/-! SUPPORT. Laws of the state: what each update of a device leaves alone, and what it reads back as. -/
namespace Sys2Proof.Machine

variable (d : Device)

@[simp] theorem setReg_mem (a : Nat) (w : Word) : (d.setReg a w).mem = d.mem := rfl
@[simp] theorem setReg_spad (a : Nat) (w : Word) : (d.setReg a w).spad = d.spad := rfl
@[simp] theorem setReg_parts (a : Nat) (w : Word) : (d.setReg a w).parts = d.parts := rfl
@[simp] theorem setReg_lts (a : Nat) (w : Word) : (d.setReg a w).lts = d.lts := rfl
@[simp] theorem setReg_tiles (a : Nat) (w : Word) : (d.setReg a w).tiles = d.tiles := rfl
@[simp] theorem setReg_stks (a : Nat) (w : Word) : (d.setReg a w).stks = d.stks := rfl
@[simp] theorem setReg_doms (a : Nat) (w : Word) : (d.setReg a w).doms = d.doms := rfl
@[simp] theorem setReg_ports (a : Nat) (w : Word) : (d.setReg a w).ports = d.ports := rfl
@[simp] theorem setReg_flows (a : Nat) (w : Word) : (d.setReg a w).flows = d.flows := rfl
@[simp] theorem setReg_dies (a : Nat) (w : Word) : (d.setReg a w).dies = d.dies := rfl
@[simp] theorem setReg_out (a : Nat) (w : Word) : (d.setReg a w).out = d.out := rfl
@[simp] theorem setReg_log (a : Nat) (w : Word) : (d.setReg a w).log = d.log := rfl
@[simp] theorem setReg_staged (a : Nat) (w : Word) : (d.setReg a w).staged = d.staged := rfl
@[simp] theorem setReg_sess (a : Nat) (w : Word) : (d.setReg a w).sess = d.sess := rfl
@[simp] theorem setReg_checks (a : Nat) (w : Word) : (d.setReg a w).checks = d.checks := rfl
@[simp] theorem setReg_leases (a : Nat) (w : Word) : (d.setReg a w).leases = d.leases := rfl
@[simp] theorem setReg_free (a : Nat) (w : Word) : (d.setReg a w).free = d.free := rfl
@[simp] theorem setReg_thermTrip (a : Nat) (w : Word) : (d.setReg a w).thermTrip = d.thermTrip := rfl
@[simp] theorem wr_mem (f : Fld) (v : Nat) : (d.wr f v).mem = d.mem := rfl
@[simp] theorem wr_spad (f : Fld) (v : Nat) : (d.wr f v).spad = d.spad := rfl
@[simp] theorem wr_parts (f : Fld) (v : Nat) : (d.wr f v).parts = d.parts := rfl
@[simp] theorem wr_lts (f : Fld) (v : Nat) : (d.wr f v).lts = d.lts := rfl
@[simp] theorem wr_tiles (f : Fld) (v : Nat) : (d.wr f v).tiles = d.tiles := rfl
@[simp] theorem wr_stks (f : Fld) (v : Nat) : (d.wr f v).stks = d.stks := rfl
@[simp] theorem wr_doms (f : Fld) (v : Nat) : (d.wr f v).doms = d.doms := rfl
@[simp] theorem wr_ports (f : Fld) (v : Nat) : (d.wr f v).ports = d.ports := rfl
@[simp] theorem wr_flows (f : Fld) (v : Nat) : (d.wr f v).flows = d.flows := rfl
@[simp] theorem wr_dies (f : Fld) (v : Nat) : (d.wr f v).dies = d.dies := rfl
@[simp] theorem wr_out (f : Fld) (v : Nat) : (d.wr f v).out = d.out := rfl
@[simp] theorem wr_log (f : Fld) (v : Nat) : (d.wr f v).log = d.log := rfl
@[simp] theorem wr_staged (f : Fld) (v : Nat) : (d.wr f v).staged = d.staged := rfl
@[simp] theorem wr_sess (f : Fld) (v : Nat) : (d.wr f v).sess = d.sess := rfl
@[simp] theorem wr_checks (f : Fld) (v : Nat) : (d.wr f v).checks = d.checks := rfl
@[simp] theorem wr_leases (f : Fld) (v : Nat) : (d.wr f v).leases = d.leases := rfl
@[simp] theorem wr_free (f : Fld) (v : Nat) : (d.wr f v).free = d.free := rfl
@[simp] theorem wr_thermTrip (f : Fld) (v : Nat) : (d.wr f v).thermTrip = d.thermTrip := rfl
@[simp] theorem inc_mem (f : Fld) (n : Nat) : (d.inc f n).mem = d.mem := rfl
@[simp] theorem inc_spad (f : Fld) (n : Nat) : (d.inc f n).spad = d.spad := rfl
@[simp] theorem inc_parts (f : Fld) (n : Nat) : (d.inc f n).parts = d.parts := rfl
@[simp] theorem inc_lts (f : Fld) (n : Nat) : (d.inc f n).lts = d.lts := rfl
@[simp] theorem inc_tiles (f : Fld) (n : Nat) : (d.inc f n).tiles = d.tiles := rfl
@[simp] theorem inc_stks (f : Fld) (n : Nat) : (d.inc f n).stks = d.stks := rfl
@[simp] theorem inc_doms (f : Fld) (n : Nat) : (d.inc f n).doms = d.doms := rfl
@[simp] theorem inc_ports (f : Fld) (n : Nat) : (d.inc f n).ports = d.ports := rfl
@[simp] theorem inc_flows (f : Fld) (n : Nat) : (d.inc f n).flows = d.flows := rfl
@[simp] theorem inc_dies (f : Fld) (n : Nat) : (d.inc f n).dies = d.dies := rfl
@[simp] theorem inc_out (f : Fld) (n : Nat) : (d.inc f n).out = d.out := rfl
@[simp] theorem inc_log (f : Fld) (n : Nat) : (d.inc f n).log = d.log := rfl
@[simp] theorem inc_staged (f : Fld) (n : Nat) : (d.inc f n).staged = d.staged := rfl
@[simp] theorem inc_sess (f : Fld) (n : Nat) : (d.inc f n).sess = d.sess := rfl
@[simp] theorem inc_checks (f : Fld) (n : Nat) : (d.inc f n).checks = d.checks := rfl
@[simp] theorem inc_leases (f : Fld) (n : Nat) : (d.inc f n).leases = d.leases := rfl
@[simp] theorem inc_free (f : Fld) (n : Nat) : (d.inc f n).free = d.free := rfl
@[simp] theorem inc_thermTrip (f : Fld) (n : Nat) : (d.inc f n).thermTrip = d.thermTrip := rfl
@[simp] theorem setLt_regs (p l : Nat) (v : LTile) : (d.setLt p l v).regs = d.regs := rfl
@[simp] theorem setLt_mem (p l : Nat) (v : LTile) : (d.setLt p l v).mem = d.mem := rfl
@[simp] theorem setLt_spad (p l : Nat) (v : LTile) : (d.setLt p l v).spad = d.spad := rfl
@[simp] theorem setLt_parts (p l : Nat) (v : LTile) : (d.setLt p l v).parts = d.parts := rfl
@[simp] theorem setLt_tiles (p l : Nat) (v : LTile) : (d.setLt p l v).tiles = d.tiles := rfl
@[simp] theorem setLt_stks (p l : Nat) (v : LTile) : (d.setLt p l v).stks = d.stks := rfl
@[simp] theorem setLt_doms (p l : Nat) (v : LTile) : (d.setLt p l v).doms = d.doms := rfl
@[simp] theorem setLt_ports (p l : Nat) (v : LTile) : (d.setLt p l v).ports = d.ports := rfl
@[simp] theorem setLt_flows (p l : Nat) (v : LTile) : (d.setLt p l v).flows = d.flows := rfl
@[simp] theorem setLt_dies (p l : Nat) (v : LTile) : (d.setLt p l v).dies = d.dies := rfl
@[simp] theorem setLt_out (p l : Nat) (v : LTile) : (d.setLt p l v).out = d.out := rfl
@[simp] theorem setLt_log (p l : Nat) (v : LTile) : (d.setLt p l v).log = d.log := rfl
@[simp] theorem setLt_staged (p l : Nat) (v : LTile) : (d.setLt p l v).staged = d.staged := rfl
@[simp] theorem setLt_sess (p l : Nat) (v : LTile) : (d.setLt p l v).sess = d.sess := rfl
@[simp] theorem setLt_checks (p l : Nat) (v : LTile) : (d.setLt p l v).checks = d.checks := rfl
@[simp] theorem setLt_leases (p l : Nat) (v : LTile) : (d.setLt p l v).leases = d.leases := rfl
@[simp] theorem setLt_free (p l : Nat) (v : LTile) : (d.setLt p l v).free = d.free := rfl
@[simp] theorem setLt_thermTrip (p l : Nat) (v : LTile) : (d.setLt p l v).thermTrip = d.thermTrip := rfl
@[simp] theorem modLt_regs (p l : Nat) (f : LTile → LTile) : (d.modLt p l f).regs = d.regs := rfl
@[simp] theorem modLt_mem (p l : Nat) (f : LTile → LTile) : (d.modLt p l f).mem = d.mem := rfl
@[simp] theorem modLt_spad (p l : Nat) (f : LTile → LTile) : (d.modLt p l f).spad = d.spad := rfl
@[simp] theorem modLt_parts (p l : Nat) (f : LTile → LTile) : (d.modLt p l f).parts = d.parts := rfl
@[simp] theorem modLt_tiles (p l : Nat) (f : LTile → LTile) : (d.modLt p l f).tiles = d.tiles := rfl
@[simp] theorem modLt_stks (p l : Nat) (f : LTile → LTile) : (d.modLt p l f).stks = d.stks := rfl
@[simp] theorem modLt_doms (p l : Nat) (f : LTile → LTile) : (d.modLt p l f).doms = d.doms := rfl
@[simp] theorem modLt_ports (p l : Nat) (f : LTile → LTile) : (d.modLt p l f).ports = d.ports := rfl
@[simp] theorem modLt_flows (p l : Nat) (f : LTile → LTile) : (d.modLt p l f).flows = d.flows := rfl
@[simp] theorem modLt_dies (p l : Nat) (f : LTile → LTile) : (d.modLt p l f).dies = d.dies := rfl
@[simp] theorem modLt_out (p l : Nat) (f : LTile → LTile) : (d.modLt p l f).out = d.out := rfl
@[simp] theorem modLt_log (p l : Nat) (f : LTile → LTile) : (d.modLt p l f).log = d.log := rfl
@[simp] theorem modLt_staged (p l : Nat) (f : LTile → LTile) : (d.modLt p l f).staged = d.staged := rfl
@[simp] theorem modLt_sess (p l : Nat) (f : LTile → LTile) : (d.modLt p l f).sess = d.sess := rfl
@[simp] theorem modLt_checks (p l : Nat) (f : LTile → LTile) : (d.modLt p l f).checks = d.checks := rfl
@[simp] theorem modLt_leases (p l : Nat) (f : LTile → LTile) : (d.modLt p l f).leases = d.leases := rfl
@[simp] theorem modLt_free (p l : Nat) (f : LTile → LTile) : (d.modLt p l f).free = d.free := rfl
@[simp] theorem modLt_thermTrip (p l : Nat) (f : LTile → LTile) : (d.modLt p l f).thermTrip = d.thermTrip := rfl
@[simp] theorem setPart_regs (p : Nat) (v : Part) : (d.setPart p v).regs = d.regs := rfl
@[simp] theorem setPart_mem (p : Nat) (v : Part) : (d.setPart p v).mem = d.mem := rfl
@[simp] theorem setPart_spad (p : Nat) (v : Part) : (d.setPart p v).spad = d.spad := rfl
@[simp] theorem setPart_lts (p : Nat) (v : Part) : (d.setPart p v).lts = d.lts := rfl
@[simp] theorem setPart_tiles (p : Nat) (v : Part) : (d.setPart p v).tiles = d.tiles := rfl
@[simp] theorem setPart_stks (p : Nat) (v : Part) : (d.setPart p v).stks = d.stks := rfl
@[simp] theorem setPart_doms (p : Nat) (v : Part) : (d.setPart p v).doms = d.doms := rfl
@[simp] theorem setPart_ports (p : Nat) (v : Part) : (d.setPart p v).ports = d.ports := rfl
@[simp] theorem setPart_flows (p : Nat) (v : Part) : (d.setPart p v).flows = d.flows := rfl
@[simp] theorem setPart_dies (p : Nat) (v : Part) : (d.setPart p v).dies = d.dies := rfl
@[simp] theorem setPart_out (p : Nat) (v : Part) : (d.setPart p v).out = d.out := rfl
@[simp] theorem setPart_log (p : Nat) (v : Part) : (d.setPart p v).log = d.log := rfl
@[simp] theorem setPart_staged (p : Nat) (v : Part) : (d.setPart p v).staged = d.staged := rfl
@[simp] theorem setPart_sess (p : Nat) (v : Part) : (d.setPart p v).sess = d.sess := rfl
@[simp] theorem setPart_checks (p : Nat) (v : Part) : (d.setPart p v).checks = d.checks := rfl
@[simp] theorem setPart_leases (p : Nat) (v : Part) : (d.setPart p v).leases = d.leases := rfl
@[simp] theorem setPart_free (p : Nat) (v : Part) : (d.setPart p v).free = d.free := rfl
@[simp] theorem setPart_thermTrip (p : Nat) (v : Part) : (d.setPart p v).thermTrip = d.thermTrip := rfl
@[simp] theorem modPart_regs (p : Nat) (f : Part → Part) : (d.modPart p f).regs = d.regs := rfl
@[simp] theorem modPart_mem (p : Nat) (f : Part → Part) : (d.modPart p f).mem = d.mem := rfl
@[simp] theorem modPart_spad (p : Nat) (f : Part → Part) : (d.modPart p f).spad = d.spad := rfl
@[simp] theorem modPart_lts (p : Nat) (f : Part → Part) : (d.modPart p f).lts = d.lts := rfl
@[simp] theorem modPart_tiles (p : Nat) (f : Part → Part) : (d.modPart p f).tiles = d.tiles := rfl
@[simp] theorem modPart_stks (p : Nat) (f : Part → Part) : (d.modPart p f).stks = d.stks := rfl
@[simp] theorem modPart_doms (p : Nat) (f : Part → Part) : (d.modPart p f).doms = d.doms := rfl
@[simp] theorem modPart_ports (p : Nat) (f : Part → Part) : (d.modPart p f).ports = d.ports := rfl
@[simp] theorem modPart_flows (p : Nat) (f : Part → Part) : (d.modPart p f).flows = d.flows := rfl
@[simp] theorem modPart_dies (p : Nat) (f : Part → Part) : (d.modPart p f).dies = d.dies := rfl
@[simp] theorem modPart_out (p : Nat) (f : Part → Part) : (d.modPart p f).out = d.out := rfl
@[simp] theorem modPart_log (p : Nat) (f : Part → Part) : (d.modPart p f).log = d.log := rfl
@[simp] theorem modPart_staged (p : Nat) (f : Part → Part) : (d.modPart p f).staged = d.staged := rfl
@[simp] theorem modPart_sess (p : Nat) (f : Part → Part) : (d.modPart p f).sess = d.sess := rfl
@[simp] theorem modPart_checks (p : Nat) (f : Part → Part) : (d.modPart p f).checks = d.checks := rfl
@[simp] theorem modPart_leases (p : Nat) (f : Part → Part) : (d.modPart p f).leases = d.leases := rfl
@[simp] theorem modPart_free (p : Nat) (f : Part → Part) : (d.modPart p f).free = d.free := rfl
@[simp] theorem modPart_thermTrip (p : Nat) (f : Part → Part) : (d.modPart p f).thermTrip = d.thermTrip := rfl
@[simp] theorem modTile_regs (t : Nat) (f : PTile → PTile) : (d.modTile t f).regs = d.regs := rfl
@[simp] theorem modTile_mem (t : Nat) (f : PTile → PTile) : (d.modTile t f).mem = d.mem := rfl
@[simp] theorem modTile_spad (t : Nat) (f : PTile → PTile) : (d.modTile t f).spad = d.spad := rfl
@[simp] theorem modTile_parts (t : Nat) (f : PTile → PTile) : (d.modTile t f).parts = d.parts := rfl
@[simp] theorem modTile_lts (t : Nat) (f : PTile → PTile) : (d.modTile t f).lts = d.lts := rfl
@[simp] theorem modTile_stks (t : Nat) (f : PTile → PTile) : (d.modTile t f).stks = d.stks := rfl
@[simp] theorem modTile_doms (t : Nat) (f : PTile → PTile) : (d.modTile t f).doms = d.doms := rfl
@[simp] theorem modTile_ports (t : Nat) (f : PTile → PTile) : (d.modTile t f).ports = d.ports := rfl
@[simp] theorem modTile_flows (t : Nat) (f : PTile → PTile) : (d.modTile t f).flows = d.flows := rfl
@[simp] theorem modTile_dies (t : Nat) (f : PTile → PTile) : (d.modTile t f).dies = d.dies := rfl
@[simp] theorem modTile_out (t : Nat) (f : PTile → PTile) : (d.modTile t f).out = d.out := rfl
@[simp] theorem modTile_log (t : Nat) (f : PTile → PTile) : (d.modTile t f).log = d.log := rfl
@[simp] theorem modTile_staged (t : Nat) (f : PTile → PTile) : (d.modTile t f).staged = d.staged := rfl
@[simp] theorem modTile_sess (t : Nat) (f : PTile → PTile) : (d.modTile t f).sess = d.sess := rfl
@[simp] theorem modTile_checks (t : Nat) (f : PTile → PTile) : (d.modTile t f).checks = d.checks := rfl
@[simp] theorem modTile_leases (t : Nat) (f : PTile → PTile) : (d.modTile t f).leases = d.leases := rfl
@[simp] theorem modTile_free (t : Nat) (f : PTile → PTile) : (d.modTile t f).free = d.free := rfl
@[simp] theorem modTile_thermTrip (t : Nat) (f : PTile → PTile) : (d.modTile t f).thermTrip = d.thermTrip := rfl
@[simp] theorem modStack_regs (x : Nat) (f : Stack → Stack) : (d.modStack x f).regs = d.regs := rfl
@[simp] theorem modStack_mem (x : Nat) (f : Stack → Stack) : (d.modStack x f).mem = d.mem := rfl
@[simp] theorem modStack_spad (x : Nat) (f : Stack → Stack) : (d.modStack x f).spad = d.spad := rfl
@[simp] theorem modStack_parts (x : Nat) (f : Stack → Stack) : (d.modStack x f).parts = d.parts := rfl
@[simp] theorem modStack_lts (x : Nat) (f : Stack → Stack) : (d.modStack x f).lts = d.lts := rfl
@[simp] theorem modStack_tiles (x : Nat) (f : Stack → Stack) : (d.modStack x f).tiles = d.tiles := rfl
@[simp] theorem modStack_doms (x : Nat) (f : Stack → Stack) : (d.modStack x f).doms = d.doms := rfl
@[simp] theorem modStack_ports (x : Nat) (f : Stack → Stack) : (d.modStack x f).ports = d.ports := rfl
@[simp] theorem modStack_flows (x : Nat) (f : Stack → Stack) : (d.modStack x f).flows = d.flows := rfl
@[simp] theorem modStack_dies (x : Nat) (f : Stack → Stack) : (d.modStack x f).dies = d.dies := rfl
@[simp] theorem modStack_out (x : Nat) (f : Stack → Stack) : (d.modStack x f).out = d.out := rfl
@[simp] theorem modStack_log (x : Nat) (f : Stack → Stack) : (d.modStack x f).log = d.log := rfl
@[simp] theorem modStack_staged (x : Nat) (f : Stack → Stack) : (d.modStack x f).staged = d.staged := rfl
@[simp] theorem modStack_sess (x : Nat) (f : Stack → Stack) : (d.modStack x f).sess = d.sess := rfl
@[simp] theorem modStack_checks (x : Nat) (f : Stack → Stack) : (d.modStack x f).checks = d.checks := rfl
@[simp] theorem modStack_leases (x : Nat) (f : Stack → Stack) : (d.modStack x f).leases = d.leases := rfl
@[simp] theorem modStack_free (x : Nat) (f : Stack → Stack) : (d.modStack x f).free = d.free := rfl
@[simp] theorem modStack_thermTrip (x : Nat) (f : Stack → Stack) : (d.modStack x f).thermTrip = d.thermTrip := rfl
@[simp] theorem modDom_regs (n : Nat) (f : Dom → Dom) : (d.modDom n f).regs = d.regs := rfl
@[simp] theorem modDom_mem (n : Nat) (f : Dom → Dom) : (d.modDom n f).mem = d.mem := rfl
@[simp] theorem modDom_spad (n : Nat) (f : Dom → Dom) : (d.modDom n f).spad = d.spad := rfl
@[simp] theorem modDom_parts (n : Nat) (f : Dom → Dom) : (d.modDom n f).parts = d.parts := rfl
@[simp] theorem modDom_lts (n : Nat) (f : Dom → Dom) : (d.modDom n f).lts = d.lts := rfl
@[simp] theorem modDom_tiles (n : Nat) (f : Dom → Dom) : (d.modDom n f).tiles = d.tiles := rfl
@[simp] theorem modDom_stks (n : Nat) (f : Dom → Dom) : (d.modDom n f).stks = d.stks := rfl
@[simp] theorem modDom_ports (n : Nat) (f : Dom → Dom) : (d.modDom n f).ports = d.ports := rfl
@[simp] theorem modDom_flows (n : Nat) (f : Dom → Dom) : (d.modDom n f).flows = d.flows := rfl
@[simp] theorem modDom_dies (n : Nat) (f : Dom → Dom) : (d.modDom n f).dies = d.dies := rfl
@[simp] theorem modDom_out (n : Nat) (f : Dom → Dom) : (d.modDom n f).out = d.out := rfl
@[simp] theorem modDom_log (n : Nat) (f : Dom → Dom) : (d.modDom n f).log = d.log := rfl
@[simp] theorem modDom_staged (n : Nat) (f : Dom → Dom) : (d.modDom n f).staged = d.staged := rfl
@[simp] theorem modDom_sess (n : Nat) (f : Dom → Dom) : (d.modDom n f).sess = d.sess := rfl
@[simp] theorem modDom_checks (n : Nat) (f : Dom → Dom) : (d.modDom n f).checks = d.checks := rfl
@[simp] theorem modDom_leases (n : Nat) (f : Dom → Dom) : (d.modDom n f).leases = d.leases := rfl
@[simp] theorem modDom_free (n : Nat) (f : Dom → Dom) : (d.modDom n f).free = d.free := rfl
@[simp] theorem modDom_thermTrip (n : Nat) (f : Dom → Dom) : (d.modDom n f).thermTrip = d.thermTrip := rfl
@[simp] theorem modPort_regs (n : Nat) (f : Port → Port) : (d.modPort n f).regs = d.regs := rfl
@[simp] theorem modPort_mem (n : Nat) (f : Port → Port) : (d.modPort n f).mem = d.mem := rfl
@[simp] theorem modPort_spad (n : Nat) (f : Port → Port) : (d.modPort n f).spad = d.spad := rfl
@[simp] theorem modPort_parts (n : Nat) (f : Port → Port) : (d.modPort n f).parts = d.parts := rfl
@[simp] theorem modPort_lts (n : Nat) (f : Port → Port) : (d.modPort n f).lts = d.lts := rfl
@[simp] theorem modPort_tiles (n : Nat) (f : Port → Port) : (d.modPort n f).tiles = d.tiles := rfl
@[simp] theorem modPort_stks (n : Nat) (f : Port → Port) : (d.modPort n f).stks = d.stks := rfl
@[simp] theorem modPort_doms (n : Nat) (f : Port → Port) : (d.modPort n f).doms = d.doms := rfl
@[simp] theorem modPort_flows (n : Nat) (f : Port → Port) : (d.modPort n f).flows = d.flows := rfl
@[simp] theorem modPort_dies (n : Nat) (f : Port → Port) : (d.modPort n f).dies = d.dies := rfl
@[simp] theorem modPort_out (n : Nat) (f : Port → Port) : (d.modPort n f).out = d.out := rfl
@[simp] theorem modPort_log (n : Nat) (f : Port → Port) : (d.modPort n f).log = d.log := rfl
@[simp] theorem modPort_staged (n : Nat) (f : Port → Port) : (d.modPort n f).staged = d.staged := rfl
@[simp] theorem modPort_sess (n : Nat) (f : Port → Port) : (d.modPort n f).sess = d.sess := rfl
@[simp] theorem modPort_checks (n : Nat) (f : Port → Port) : (d.modPort n f).checks = d.checks := rfl
@[simp] theorem modPort_leases (n : Nat) (f : Port → Port) : (d.modPort n f).leases = d.leases := rfl
@[simp] theorem modPort_free (n : Nat) (f : Port → Port) : (d.modPort n f).free = d.free := rfl
@[simp] theorem modPort_thermTrip (n : Nat) (f : Port → Port) : (d.modPort n f).thermTrip = d.thermTrip := rfl
@[simp] theorem setFlow_regs (i : Nat) (v : Flow) : (d.setFlow i v).regs = d.regs := rfl
@[simp] theorem setFlow_mem (i : Nat) (v : Flow) : (d.setFlow i v).mem = d.mem := rfl
@[simp] theorem setFlow_spad (i : Nat) (v : Flow) : (d.setFlow i v).spad = d.spad := rfl
@[simp] theorem setFlow_parts (i : Nat) (v : Flow) : (d.setFlow i v).parts = d.parts := rfl
@[simp] theorem setFlow_lts (i : Nat) (v : Flow) : (d.setFlow i v).lts = d.lts := rfl
@[simp] theorem setFlow_tiles (i : Nat) (v : Flow) : (d.setFlow i v).tiles = d.tiles := rfl
@[simp] theorem setFlow_stks (i : Nat) (v : Flow) : (d.setFlow i v).stks = d.stks := rfl
@[simp] theorem setFlow_doms (i : Nat) (v : Flow) : (d.setFlow i v).doms = d.doms := rfl
@[simp] theorem setFlow_ports (i : Nat) (v : Flow) : (d.setFlow i v).ports = d.ports := rfl
@[simp] theorem setFlow_dies (i : Nat) (v : Flow) : (d.setFlow i v).dies = d.dies := rfl
@[simp] theorem setFlow_out (i : Nat) (v : Flow) : (d.setFlow i v).out = d.out := rfl
@[simp] theorem setFlow_log (i : Nat) (v : Flow) : (d.setFlow i v).log = d.log := rfl
@[simp] theorem setFlow_staged (i : Nat) (v : Flow) : (d.setFlow i v).staged = d.staged := rfl
@[simp] theorem setFlow_sess (i : Nat) (v : Flow) : (d.setFlow i v).sess = d.sess := rfl
@[simp] theorem setFlow_checks (i : Nat) (v : Flow) : (d.setFlow i v).checks = d.checks := rfl
@[simp] theorem setFlow_leases (i : Nat) (v : Flow) : (d.setFlow i v).leases = d.leases := rfl
@[simp] theorem setFlow_free (i : Nat) (v : Flow) : (d.setFlow i v).free = d.free := rfl
@[simp] theorem setFlow_thermTrip (i : Nat) (v : Flow) : (d.setFlow i v).thermTrip = d.thermTrip := rfl
@[simp] theorem modFlow_regs (i : Nat) (f : Flow → Flow) : (d.modFlow i f).regs = d.regs := rfl
@[simp] theorem modFlow_mem (i : Nat) (f : Flow → Flow) : (d.modFlow i f).mem = d.mem := rfl
@[simp] theorem modFlow_spad (i : Nat) (f : Flow → Flow) : (d.modFlow i f).spad = d.spad := rfl
@[simp] theorem modFlow_parts (i : Nat) (f : Flow → Flow) : (d.modFlow i f).parts = d.parts := rfl
@[simp] theorem modFlow_lts (i : Nat) (f : Flow → Flow) : (d.modFlow i f).lts = d.lts := rfl
@[simp] theorem modFlow_tiles (i : Nat) (f : Flow → Flow) : (d.modFlow i f).tiles = d.tiles := rfl
@[simp] theorem modFlow_stks (i : Nat) (f : Flow → Flow) : (d.modFlow i f).stks = d.stks := rfl
@[simp] theorem modFlow_doms (i : Nat) (f : Flow → Flow) : (d.modFlow i f).doms = d.doms := rfl
@[simp] theorem modFlow_ports (i : Nat) (f : Flow → Flow) : (d.modFlow i f).ports = d.ports := rfl
@[simp] theorem modFlow_dies (i : Nat) (f : Flow → Flow) : (d.modFlow i f).dies = d.dies := rfl
@[simp] theorem modFlow_out (i : Nat) (f : Flow → Flow) : (d.modFlow i f).out = d.out := rfl
@[simp] theorem modFlow_log (i : Nat) (f : Flow → Flow) : (d.modFlow i f).log = d.log := rfl
@[simp] theorem modFlow_staged (i : Nat) (f : Flow → Flow) : (d.modFlow i f).staged = d.staged := rfl
@[simp] theorem modFlow_sess (i : Nat) (f : Flow → Flow) : (d.modFlow i f).sess = d.sess := rfl
@[simp] theorem modFlow_checks (i : Nat) (f : Flow → Flow) : (d.modFlow i f).checks = d.checks := rfl
@[simp] theorem modFlow_leases (i : Nat) (f : Flow → Flow) : (d.modFlow i f).leases = d.leases := rfl
@[simp] theorem modFlow_free (i : Nat) (f : Flow → Flow) : (d.modFlow i f).free = d.free := rfl
@[simp] theorem modFlow_thermTrip (i : Nat) (f : Flow → Flow) : (d.modFlow i f).thermTrip = d.thermTrip := rfl
@[simp] theorem modDie_regs (i : Nat) (f : Die → Die) : (d.modDie i f).regs = d.regs := rfl
@[simp] theorem modDie_mem (i : Nat) (f : Die → Die) : (d.modDie i f).mem = d.mem := rfl
@[simp] theorem modDie_spad (i : Nat) (f : Die → Die) : (d.modDie i f).spad = d.spad := rfl
@[simp] theorem modDie_parts (i : Nat) (f : Die → Die) : (d.modDie i f).parts = d.parts := rfl
@[simp] theorem modDie_lts (i : Nat) (f : Die → Die) : (d.modDie i f).lts = d.lts := rfl
@[simp] theorem modDie_tiles (i : Nat) (f : Die → Die) : (d.modDie i f).tiles = d.tiles := rfl
@[simp] theorem modDie_stks (i : Nat) (f : Die → Die) : (d.modDie i f).stks = d.stks := rfl
@[simp] theorem modDie_doms (i : Nat) (f : Die → Die) : (d.modDie i f).doms = d.doms := rfl
@[simp] theorem modDie_ports (i : Nat) (f : Die → Die) : (d.modDie i f).ports = d.ports := rfl
@[simp] theorem modDie_flows (i : Nat) (f : Die → Die) : (d.modDie i f).flows = d.flows := rfl
@[simp] theorem modDie_out (i : Nat) (f : Die → Die) : (d.modDie i f).out = d.out := rfl
@[simp] theorem modDie_log (i : Nat) (f : Die → Die) : (d.modDie i f).log = d.log := rfl
@[simp] theorem modDie_staged (i : Nat) (f : Die → Die) : (d.modDie i f).staged = d.staged := rfl
@[simp] theorem modDie_sess (i : Nat) (f : Die → Die) : (d.modDie i f).sess = d.sess := rfl
@[simp] theorem modDie_checks (i : Nat) (f : Die → Die) : (d.modDie i f).checks = d.checks := rfl
@[simp] theorem modDie_leases (i : Nat) (f : Die → Die) : (d.modDie i f).leases = d.leases := rfl
@[simp] theorem modDie_free (i : Nat) (f : Die → Die) : (d.modDie i f).free = d.free := rfl
@[simp] theorem modDie_thermTrip (i : Nat) (f : Die → Die) : (d.modDie i f).thermTrip = d.thermTrip := rfl
@[simp] theorem emit_regs (o : Out) : (d.emit o).regs = d.regs := rfl
@[simp] theorem emit_mem (o : Out) : (d.emit o).mem = d.mem := rfl
@[simp] theorem emit_spad (o : Out) : (d.emit o).spad = d.spad := rfl
@[simp] theorem emit_parts (o : Out) : (d.emit o).parts = d.parts := rfl
@[simp] theorem emit_lts (o : Out) : (d.emit o).lts = d.lts := rfl
@[simp] theorem emit_tiles (o : Out) : (d.emit o).tiles = d.tiles := rfl
@[simp] theorem emit_stks (o : Out) : (d.emit o).stks = d.stks := rfl
@[simp] theorem emit_doms (o : Out) : (d.emit o).doms = d.doms := rfl
@[simp] theorem emit_ports (o : Out) : (d.emit o).ports = d.ports := rfl
@[simp] theorem emit_flows (o : Out) : (d.emit o).flows = d.flows := rfl
@[simp] theorem emit_dies (o : Out) : (d.emit o).dies = d.dies := rfl
@[simp] theorem emit_log (o : Out) : (d.emit o).log = d.log := rfl
@[simp] theorem emit_staged (o : Out) : (d.emit o).staged = d.staged := rfl
@[simp] theorem emit_sess (o : Out) : (d.emit o).sess = d.sess := rfl
@[simp] theorem emit_checks (o : Out) : (d.emit o).checks = d.checks := rfl
@[simp] theorem emit_leases (o : Out) : (d.emit o).leases = d.leases := rfl
@[simp] theorem emit_free (o : Out) : (d.emit o).free = d.free := rfl
@[simp] theorem emit_thermTrip (o : Out) : (d.emit o).thermTrip = d.thermTrip := rfl

@[simp] theorem lt_setReg (a : Nat) (w : Word) (p' l' : Nat) : (d.setReg a w).lt p' l' = d.lt p' l' := rfl
@[simp] theorem part_setReg (a : Nat) (w : Word) (p' : Nat) : (d.setReg a w).part p' = d.part p' := rfl
@[simp] theorem tile_setReg (a : Nat) (w : Word) (t' : Nat) : (d.setReg a w).tile t' = d.tile t' := rfl
@[simp] theorem stack_setReg (a : Nat) (w : Word) (x' : Nat) : (d.setReg a w).stack x' = d.stack x' := rfl
@[simp] theorem dom_setReg (a : Nat) (w : Word) (n' : Nat) : (d.setReg a w).dom n' = d.dom n' := rfl
@[simp] theorem port_setReg (a : Nat) (w : Word) (n' : Nat) : (d.setReg a w).port n' = d.port n' := rfl
@[simp] theorem flow_setReg (a : Nat) (w : Word) (i' : Nat) : (d.setReg a w).flow i' = d.flow i' := rfl
@[simp] theorem die_setReg (a : Nat) (w : Word) (i' : Nat) : (d.setReg a w).die i' = d.die i' := rfl
@[simp] theorem lt_wr (f : Fld) (v : Nat) (p' l' : Nat) : (d.wr f v).lt p' l' = d.lt p' l' := rfl
@[simp] theorem part_wr (f : Fld) (v : Nat) (p' : Nat) : (d.wr f v).part p' = d.part p' := rfl
@[simp] theorem tile_wr (f : Fld) (v : Nat) (t' : Nat) : (d.wr f v).tile t' = d.tile t' := rfl
@[simp] theorem stack_wr (f : Fld) (v : Nat) (x' : Nat) : (d.wr f v).stack x' = d.stack x' := rfl
@[simp] theorem dom_wr (f : Fld) (v : Nat) (n' : Nat) : (d.wr f v).dom n' = d.dom n' := rfl
@[simp] theorem port_wr (f : Fld) (v : Nat) (n' : Nat) : (d.wr f v).port n' = d.port n' := rfl
@[simp] theorem flow_wr (f : Fld) (v : Nat) (i' : Nat) : (d.wr f v).flow i' = d.flow i' := rfl
@[simp] theorem die_wr (f : Fld) (v : Nat) (i' : Nat) : (d.wr f v).die i' = d.die i' := rfl
@[simp] theorem lt_inc (f : Fld) (n : Nat) (p' l' : Nat) : (d.inc f n).lt p' l' = d.lt p' l' := rfl
@[simp] theorem part_inc (f : Fld) (n : Nat) (p' : Nat) : (d.inc f n).part p' = d.part p' := rfl
@[simp] theorem tile_inc (f : Fld) (n : Nat) (t' : Nat) : (d.inc f n).tile t' = d.tile t' := rfl
@[simp] theorem stack_inc (f : Fld) (n : Nat) (x' : Nat) : (d.inc f n).stack x' = d.stack x' := rfl
@[simp] theorem dom_inc (f : Fld) (n : Nat) (n' : Nat) : (d.inc f n).dom n' = d.dom n' := rfl
@[simp] theorem port_inc (f : Fld) (n : Nat) (n' : Nat) : (d.inc f n).port n' = d.port n' := rfl
@[simp] theorem flow_inc (f : Fld) (n : Nat) (i' : Nat) : (d.inc f n).flow i' = d.flow i' := rfl
@[simp] theorem die_inc (f : Fld) (n : Nat) (i' : Nat) : (d.inc f n).die i' = d.die i' := rfl
@[simp] theorem part_setLt (p l : Nat) (v : LTile) (p' : Nat) : (d.setLt p l v).part p' = d.part p' := rfl
@[simp] theorem tile_setLt (p l : Nat) (v : LTile) (t' : Nat) : (d.setLt p l v).tile t' = d.tile t' := rfl
@[simp] theorem stack_setLt (p l : Nat) (v : LTile) (x' : Nat) : (d.setLt p l v).stack x' = d.stack x' := rfl
@[simp] theorem dom_setLt (p l : Nat) (v : LTile) (n' : Nat) : (d.setLt p l v).dom n' = d.dom n' := rfl
@[simp] theorem port_setLt (p l : Nat) (v : LTile) (n' : Nat) : (d.setLt p l v).port n' = d.port n' := rfl
@[simp] theorem flow_setLt (p l : Nat) (v : LTile) (i' : Nat) : (d.setLt p l v).flow i' = d.flow i' := rfl
@[simp] theorem die_setLt (p l : Nat) (v : LTile) (i' : Nat) : (d.setLt p l v).die i' = d.die i' := rfl
@[simp] theorem reg_setLt (p l : Nat) (v : LTile) (a' : Nat) : (d.setLt p l v).reg a' = d.reg a' := rfl
@[simp] theorem rd_setLt (p l : Nat) (v : LTile) (g' : Fld) : (d.setLt p l v).rd g' = d.rd g' := rfl
@[simp] theorem part_modLt (p l : Nat) (f : LTile → LTile) (p' : Nat) : (d.modLt p l f).part p' = d.part p' := rfl
@[simp] theorem tile_modLt (p l : Nat) (f : LTile → LTile) (t' : Nat) : (d.modLt p l f).tile t' = d.tile t' := rfl
@[simp] theorem stack_modLt (p l : Nat) (f : LTile → LTile) (x' : Nat) : (d.modLt p l f).stack x' = d.stack x' := rfl
@[simp] theorem dom_modLt (p l : Nat) (f : LTile → LTile) (n' : Nat) : (d.modLt p l f).dom n' = d.dom n' := rfl
@[simp] theorem port_modLt (p l : Nat) (f : LTile → LTile) (n' : Nat) : (d.modLt p l f).port n' = d.port n' := rfl
@[simp] theorem flow_modLt (p l : Nat) (f : LTile → LTile) (i' : Nat) : (d.modLt p l f).flow i' = d.flow i' := rfl
@[simp] theorem die_modLt (p l : Nat) (f : LTile → LTile) (i' : Nat) : (d.modLt p l f).die i' = d.die i' := rfl
@[simp] theorem reg_modLt (p l : Nat) (f : LTile → LTile) (a' : Nat) : (d.modLt p l f).reg a' = d.reg a' := rfl
@[simp] theorem rd_modLt (p l : Nat) (f : LTile → LTile) (g' : Fld) : (d.modLt p l f).rd g' = d.rd g' := rfl
@[simp] theorem lt_setPart (p : Nat) (v : Part) (p' l' : Nat) : (d.setPart p v).lt p' l' = d.lt p' l' := rfl
@[simp] theorem tile_setPart (p : Nat) (v : Part) (t' : Nat) : (d.setPart p v).tile t' = d.tile t' := rfl
@[simp] theorem stack_setPart (p : Nat) (v : Part) (x' : Nat) : (d.setPart p v).stack x' = d.stack x' := rfl
@[simp] theorem dom_setPart (p : Nat) (v : Part) (n' : Nat) : (d.setPart p v).dom n' = d.dom n' := rfl
@[simp] theorem port_setPart (p : Nat) (v : Part) (n' : Nat) : (d.setPart p v).port n' = d.port n' := rfl
@[simp] theorem flow_setPart (p : Nat) (v : Part) (i' : Nat) : (d.setPart p v).flow i' = d.flow i' := rfl
@[simp] theorem die_setPart (p : Nat) (v : Part) (i' : Nat) : (d.setPart p v).die i' = d.die i' := rfl
@[simp] theorem reg_setPart (p : Nat) (v : Part) (a' : Nat) : (d.setPart p v).reg a' = d.reg a' := rfl
@[simp] theorem rd_setPart (p : Nat) (v : Part) (g' : Fld) : (d.setPart p v).rd g' = d.rd g' := rfl
@[simp] theorem lt_modPart (p : Nat) (f : Part → Part) (p' l' : Nat) : (d.modPart p f).lt p' l' = d.lt p' l' := rfl
@[simp] theorem tile_modPart (p : Nat) (f : Part → Part) (t' : Nat) : (d.modPart p f).tile t' = d.tile t' := rfl
@[simp] theorem stack_modPart (p : Nat) (f : Part → Part) (x' : Nat) : (d.modPart p f).stack x' = d.stack x' := rfl
@[simp] theorem dom_modPart (p : Nat) (f : Part → Part) (n' : Nat) : (d.modPart p f).dom n' = d.dom n' := rfl
@[simp] theorem port_modPart (p : Nat) (f : Part → Part) (n' : Nat) : (d.modPart p f).port n' = d.port n' := rfl
@[simp] theorem flow_modPart (p : Nat) (f : Part → Part) (i' : Nat) : (d.modPart p f).flow i' = d.flow i' := rfl
@[simp] theorem die_modPart (p : Nat) (f : Part → Part) (i' : Nat) : (d.modPart p f).die i' = d.die i' := rfl
@[simp] theorem reg_modPart (p : Nat) (f : Part → Part) (a' : Nat) : (d.modPart p f).reg a' = d.reg a' := rfl
@[simp] theorem rd_modPart (p : Nat) (f : Part → Part) (g' : Fld) : (d.modPart p f).rd g' = d.rd g' := rfl
@[simp] theorem lt_modTile (t : Nat) (f : PTile → PTile) (p' l' : Nat) : (d.modTile t f).lt p' l' = d.lt p' l' := rfl
@[simp] theorem part_modTile (t : Nat) (f : PTile → PTile) (p' : Nat) : (d.modTile t f).part p' = d.part p' := rfl
@[simp] theorem stack_modTile (t : Nat) (f : PTile → PTile) (x' : Nat) : (d.modTile t f).stack x' = d.stack x' := rfl
@[simp] theorem dom_modTile (t : Nat) (f : PTile → PTile) (n' : Nat) : (d.modTile t f).dom n' = d.dom n' := rfl
@[simp] theorem port_modTile (t : Nat) (f : PTile → PTile) (n' : Nat) : (d.modTile t f).port n' = d.port n' := rfl
@[simp] theorem flow_modTile (t : Nat) (f : PTile → PTile) (i' : Nat) : (d.modTile t f).flow i' = d.flow i' := rfl
@[simp] theorem die_modTile (t : Nat) (f : PTile → PTile) (i' : Nat) : (d.modTile t f).die i' = d.die i' := rfl
@[simp] theorem reg_modTile (t : Nat) (f : PTile → PTile) (a' : Nat) : (d.modTile t f).reg a' = d.reg a' := rfl
@[simp] theorem rd_modTile (t : Nat) (f : PTile → PTile) (g' : Fld) : (d.modTile t f).rd g' = d.rd g' := rfl
@[simp] theorem lt_modStack (x : Nat) (f : Stack → Stack) (p' l' : Nat) : (d.modStack x f).lt p' l' = d.lt p' l' := rfl
@[simp] theorem part_modStack (x : Nat) (f : Stack → Stack) (p' : Nat) : (d.modStack x f).part p' = d.part p' := rfl
@[simp] theorem tile_modStack (x : Nat) (f : Stack → Stack) (t' : Nat) : (d.modStack x f).tile t' = d.tile t' := rfl
@[simp] theorem dom_modStack (x : Nat) (f : Stack → Stack) (n' : Nat) : (d.modStack x f).dom n' = d.dom n' := rfl
@[simp] theorem port_modStack (x : Nat) (f : Stack → Stack) (n' : Nat) : (d.modStack x f).port n' = d.port n' := rfl
@[simp] theorem flow_modStack (x : Nat) (f : Stack → Stack) (i' : Nat) : (d.modStack x f).flow i' = d.flow i' := rfl
@[simp] theorem die_modStack (x : Nat) (f : Stack → Stack) (i' : Nat) : (d.modStack x f).die i' = d.die i' := rfl
@[simp] theorem reg_modStack (x : Nat) (f : Stack → Stack) (a' : Nat) : (d.modStack x f).reg a' = d.reg a' := rfl
@[simp] theorem rd_modStack (x : Nat) (f : Stack → Stack) (g' : Fld) : (d.modStack x f).rd g' = d.rd g' := rfl
@[simp] theorem lt_modDom (n : Nat) (f : Dom → Dom) (p' l' : Nat) : (d.modDom n f).lt p' l' = d.lt p' l' := rfl
@[simp] theorem part_modDom (n : Nat) (f : Dom → Dom) (p' : Nat) : (d.modDom n f).part p' = d.part p' := rfl
@[simp] theorem tile_modDom (n : Nat) (f : Dom → Dom) (t' : Nat) : (d.modDom n f).tile t' = d.tile t' := rfl
@[simp] theorem stack_modDom (n : Nat) (f : Dom → Dom) (x' : Nat) : (d.modDom n f).stack x' = d.stack x' := rfl
@[simp] theorem port_modDom (n : Nat) (f : Dom → Dom) (n' : Nat) : (d.modDom n f).port n' = d.port n' := rfl
@[simp] theorem flow_modDom (n : Nat) (f : Dom → Dom) (i' : Nat) : (d.modDom n f).flow i' = d.flow i' := rfl
@[simp] theorem die_modDom (n : Nat) (f : Dom → Dom) (i' : Nat) : (d.modDom n f).die i' = d.die i' := rfl
@[simp] theorem reg_modDom (n : Nat) (f : Dom → Dom) (a' : Nat) : (d.modDom n f).reg a' = d.reg a' := rfl
@[simp] theorem rd_modDom (n : Nat) (f : Dom → Dom) (g' : Fld) : (d.modDom n f).rd g' = d.rd g' := rfl
@[simp] theorem lt_modPort (n : Nat) (f : Port → Port) (p' l' : Nat) : (d.modPort n f).lt p' l' = d.lt p' l' := rfl
@[simp] theorem part_modPort (n : Nat) (f : Port → Port) (p' : Nat) : (d.modPort n f).part p' = d.part p' := rfl
@[simp] theorem tile_modPort (n : Nat) (f : Port → Port) (t' : Nat) : (d.modPort n f).tile t' = d.tile t' := rfl
@[simp] theorem stack_modPort (n : Nat) (f : Port → Port) (x' : Nat) : (d.modPort n f).stack x' = d.stack x' := rfl
@[simp] theorem dom_modPort (n : Nat) (f : Port → Port) (n' : Nat) : (d.modPort n f).dom n' = d.dom n' := rfl
@[simp] theorem flow_modPort (n : Nat) (f : Port → Port) (i' : Nat) : (d.modPort n f).flow i' = d.flow i' := rfl
@[simp] theorem die_modPort (n : Nat) (f : Port → Port) (i' : Nat) : (d.modPort n f).die i' = d.die i' := rfl
@[simp] theorem reg_modPort (n : Nat) (f : Port → Port) (a' : Nat) : (d.modPort n f).reg a' = d.reg a' := rfl
@[simp] theorem rd_modPort (n : Nat) (f : Port → Port) (g' : Fld) : (d.modPort n f).rd g' = d.rd g' := rfl
@[simp] theorem lt_setFlow (i : Nat) (v : Flow) (p' l' : Nat) : (d.setFlow i v).lt p' l' = d.lt p' l' := rfl
@[simp] theorem part_setFlow (i : Nat) (v : Flow) (p' : Nat) : (d.setFlow i v).part p' = d.part p' := rfl
@[simp] theorem tile_setFlow (i : Nat) (v : Flow) (t' : Nat) : (d.setFlow i v).tile t' = d.tile t' := rfl
@[simp] theorem stack_setFlow (i : Nat) (v : Flow) (x' : Nat) : (d.setFlow i v).stack x' = d.stack x' := rfl
@[simp] theorem dom_setFlow (i : Nat) (v : Flow) (n' : Nat) : (d.setFlow i v).dom n' = d.dom n' := rfl
@[simp] theorem port_setFlow (i : Nat) (v : Flow) (n' : Nat) : (d.setFlow i v).port n' = d.port n' := rfl
@[simp] theorem die_setFlow (i : Nat) (v : Flow) (i' : Nat) : (d.setFlow i v).die i' = d.die i' := rfl
@[simp] theorem reg_setFlow (i : Nat) (v : Flow) (a' : Nat) : (d.setFlow i v).reg a' = d.reg a' := rfl
@[simp] theorem rd_setFlow (i : Nat) (v : Flow) (g' : Fld) : (d.setFlow i v).rd g' = d.rd g' := rfl
@[simp] theorem lt_modFlow (i : Nat) (f : Flow → Flow) (p' l' : Nat) : (d.modFlow i f).lt p' l' = d.lt p' l' := rfl
@[simp] theorem part_modFlow (i : Nat) (f : Flow → Flow) (p' : Nat) : (d.modFlow i f).part p' = d.part p' := rfl
@[simp] theorem tile_modFlow (i : Nat) (f : Flow → Flow) (t' : Nat) : (d.modFlow i f).tile t' = d.tile t' := rfl
@[simp] theorem stack_modFlow (i : Nat) (f : Flow → Flow) (x' : Nat) : (d.modFlow i f).stack x' = d.stack x' := rfl
@[simp] theorem dom_modFlow (i : Nat) (f : Flow → Flow) (n' : Nat) : (d.modFlow i f).dom n' = d.dom n' := rfl
@[simp] theorem port_modFlow (i : Nat) (f : Flow → Flow) (n' : Nat) : (d.modFlow i f).port n' = d.port n' := rfl
@[simp] theorem die_modFlow (i : Nat) (f : Flow → Flow) (i' : Nat) : (d.modFlow i f).die i' = d.die i' := rfl
@[simp] theorem reg_modFlow (i : Nat) (f : Flow → Flow) (a' : Nat) : (d.modFlow i f).reg a' = d.reg a' := rfl
@[simp] theorem rd_modFlow (i : Nat) (f : Flow → Flow) (g' : Fld) : (d.modFlow i f).rd g' = d.rd g' := rfl
@[simp] theorem lt_modDie (i : Nat) (f : Die → Die) (p' l' : Nat) : (d.modDie i f).lt p' l' = d.lt p' l' := rfl
@[simp] theorem part_modDie (i : Nat) (f : Die → Die) (p' : Nat) : (d.modDie i f).part p' = d.part p' := rfl
@[simp] theorem tile_modDie (i : Nat) (f : Die → Die) (t' : Nat) : (d.modDie i f).tile t' = d.tile t' := rfl
@[simp] theorem stack_modDie (i : Nat) (f : Die → Die) (x' : Nat) : (d.modDie i f).stack x' = d.stack x' := rfl
@[simp] theorem dom_modDie (i : Nat) (f : Die → Die) (n' : Nat) : (d.modDie i f).dom n' = d.dom n' := rfl
@[simp] theorem port_modDie (i : Nat) (f : Die → Die) (n' : Nat) : (d.modDie i f).port n' = d.port n' := rfl
@[simp] theorem flow_modDie (i : Nat) (f : Die → Die) (i' : Nat) : (d.modDie i f).flow i' = d.flow i' := rfl
@[simp] theorem reg_modDie (i : Nat) (f : Die → Die) (a' : Nat) : (d.modDie i f).reg a' = d.reg a' := rfl
@[simp] theorem rd_modDie (i : Nat) (f : Die → Die) (g' : Fld) : (d.modDie i f).rd g' = d.rd g' := rfl
@[simp] theorem lt_emit (o : Out) (p' l' : Nat) : (d.emit o).lt p' l' = d.lt p' l' := rfl
@[simp] theorem part_emit (o : Out) (p' : Nat) : (d.emit o).part p' = d.part p' := rfl
@[simp] theorem tile_emit (o : Out) (t' : Nat) : (d.emit o).tile t' = d.tile t' := rfl
@[simp] theorem stack_emit (o : Out) (x' : Nat) : (d.emit o).stack x' = d.stack x' := rfl
@[simp] theorem dom_emit (o : Out) (n' : Nat) : (d.emit o).dom n' = d.dom n' := rfl
@[simp] theorem port_emit (o : Out) (n' : Nat) : (d.emit o).port n' = d.port n' := rfl
@[simp] theorem flow_emit (o : Out) (i' : Nat) : (d.emit o).flow i' = d.flow i' := rfl
@[simp] theorem die_emit (o : Out) (i' : Nat) : (d.emit o).die i' = d.die i' := rfl
@[simp] theorem reg_emit (o : Out) (a' : Nat) : (d.emit o).reg a' = d.reg a' := rfl
@[simp] theorem rd_emit (o : Out) (g' : Fld) : (d.emit o).rd g' = d.rd g' := rfl

@[simp] theorem lt_setLt_same (p l : Nat) (v : LTile) : (d.setLt p l v).lt p l = v := tget_tput_same _ _ _ _
@[simp] theorem lt_modLt_same (p l : Nat) (f : LTile → LTile) : (d.modLt p l f).lt p l = f (d.lt p l) :=
  tget_tput_same _ _ _ _
theorem lt_setLt_other {p l p' l' : Nat} (v : LTile) (h : ltKey p' l' ≠ ltKey p l) :
    (d.setLt p l v).lt p' l' = d.lt p' l' := tget_tput_other _ _ _ h
@[simp] theorem part_setPart_same (p : Nat) (v : Part) : (d.setPart p v).part p = v := tget_tput_same _ _ _ _
@[simp] theorem part_modPart_same (p : Nat) (f : Part → Part) : (d.modPart p f).part p = f (d.part p) :=
  tget_tput_same _ _ _ _
theorem part_setPart_other {p p' : Nat} (v : Part) (h : p' ≠ p) : (d.setPart p v).part p' = d.part p' :=
  tget_tput_other _ _ _ h
theorem part_modPart_other {p p' : Nat} (f : Part → Part) (h : p' ≠ p) : (d.modPart p f).part p' = d.part p' :=
  tget_tput_other _ _ _ h
@[simp] theorem tile_modTile_same (t : Nat) (f : PTile → PTile) : (d.modTile t f).tile t = f (d.tile t) :=
  tget_tput_same _ _ _ _
theorem tile_modTile_other {t t' : Nat} (f : PTile → PTile) (h : t' ≠ t) : (d.modTile t f).tile t' = d.tile t' :=
  tget_tput_other _ _ _ h
@[simp] theorem dom_modDom_same (n : Nat) (f : Dom → Dom) : (d.modDom n f).dom n = f (d.dom n) := tget_tput_same _ _ _ _
@[simp] theorem stack_modStack_same (x : Nat) (f : Stack → Stack) : (d.modStack x f).stack x = f (d.stack x) :=
  tget_tput_same _ _ _ _
@[simp] theorem port_modPort_same (n : Nat) (f : Port → Port) : (d.modPort n f).port n = f (d.port n) :=
  tget_tput_same _ _ _ _
@[simp] theorem flow_setFlow_same (i : Nat) (v : Flow) : (d.setFlow i v).flow i = v := tget_tput_same _ _ _ _
@[simp] theorem flow_modFlow_same (i : Nat) (f : Flow → Flow) : (d.modFlow i f).flow i = f (d.flow i) :=
  tget_tput_same _ _ _ _
@[simp] theorem die_modDie_same (i : Nat) (f : Die → Die) : (d.modDie i f).die i = f (d.die i) := tget_tput_same _ _ _ _
@[simp] theorem emit_out (o : Out) : (d.emit o).out = d.out ++ [o] := rfl

/-- Logical tiles of two partitions share no key. -/
theorem ltKey_inj {p l p' l' : Nat} (hl : l < 32) (hl' : l' < 32) : ltKey p l = ltKey p' l' ↔ p = p' ∧ l = l' := by
  unfold ltKey; omega

-- Registers of a logical tile.

/-- The only outcome of a command that acts on the device alone is a next state; queue, meter and access port stay. -/
theorem onDev_next (f : Device → Device) (s : State) : onDev f s = .next { s with dev := f s.dev } := rfl

end Sys2Proof.Machine
end

