-- ==== Sys2Proof/Laws/Ops.lean ====
section
/-! SUPPORT. What the shared operations leave alone: waking, recording a fault or an error and posting touch no byte of
memory; and the stores keep both memories in canonical form. -/
namespace Sys2Proof.Machine

/-- A fold of operations that each keep a projection keeps it. -/
theorem foldl_keeps {α β γ : Type} (π : α → γ) (f : α → β → α) (h : ∀ a b, π (f a b) = π a) (l : List β) (a : α) :
    π (l.foldl f a) = π a := by
  induction l generalizing a with
  | nil => rfl
  | cons b l ih => rw [List.foldl_cons, ih, h]

/-- Both memories of a device. -/
def Device.mems (d : Device) : Mem × Mem := (d.mem, d.spad)

section
variable (d : Device)

@[simp] theorem mems_setReg (a : Nat) (w : Word) : (d.setReg a w).mems = d.mems := rfl
@[simp] theorem mems_wr (f : Fld) (v : Nat) : (d.wr f v).mems = d.mems := rfl
@[simp] theorem mems_inc (f : Fld) (n : Nat) : (d.inc f n).mems = d.mems := rfl
@[simp] theorem mems_setLt (p l : Nat) (v : LTile) : (d.setLt p l v).mems = d.mems := rfl
@[simp] theorem mems_modLt (p l : Nat) (f : LTile → LTile) : (d.modLt p l f).mems = d.mems := rfl
@[simp] theorem mems_setPart (p : Nat) (v : Part) : (d.setPart p v).mems = d.mems := rfl
@[simp] theorem mems_modPart (p : Nat) (f : Part → Part) : (d.modPart p f).mems = d.mems := rfl
@[simp] theorem mems_modTile (t : Nat) (f : PTile → PTile) : (d.modTile t f).mems = d.mems := rfl
@[simp] theorem mems_modDom (n : Nat) (f : Dom → Dom) : (d.modDom n f).mems = d.mems := rfl
@[simp] theorem mems_modPort (n : Nat) (f : Port → Port) : (d.modPort n f).mems = d.mems := rfl
@[simp] theorem mems_modStack (n : Nat) (f : Stack → Stack) : (d.modStack n f).mems = d.mems := rfl
@[simp] theorem mems_emit (o : Out) : (d.emit o).mems = d.mems := rfl

@[simp] theorem mems_startExit (n c : Nat) : (startExit d n c).mems = d.mems := by
  unfold startExit; dsimp only; split
  · rw [mems_modPort]; (repeat' split) <;> rfl
  · split <;> rfl

@[simp] theorem mems_wakeOne (n c : Nat) : (wakeOne d n c).mems = d.mems := by
  unfold wakeOne; dsimp only
  (repeat' split) <;> first | rfl | simp

@[simp] theorem mems_wakeDom (n c : Nat) : (wakeDom d n c).mems = d.mems := by
  unfold wakeDom; dsimp only
  rw [mems_wakeOne]
  split
  · exact foldl_keeps Device.mems _ (fun a b => mems_wakeOne a _ _) _ _
  · rfl

@[simp] theorem mems_wakeTiles (p c : Nat) : (wakeTiles d p c).mems = d.mems :=
  foldl_keeps Device.mems _ (fun a _ => mems_wakeDom a _ _) _ _

@[simp] theorem mems_recordFault (p : Nat) (c : Cause) : (recordFault d p c).mems = d.mems := by
  unfold recordFault; dsimp only; split
  · rfl
  · split
    · rfl
    · simp

@[simp] theorem mems_tilesFault (p : Nat) (ls : List Nat) (c : Cause) : (tilesFault d p ls c).mems = d.mems := by
  unfold tilesFault; dsimp only; split
  · rw [foldl_keeps Device.mems _ (fun a b => mems_modLt a _ _ _), mems_recordFault]
  · exact mems_recordFault d p c

@[simp] theorem mems_tileFault (p l : Nat) (c : Cause) : (tileFault d p l c).mems = d.mems := mems_tilesFault d p [l] c

@[simp] theorem mems_refuseDom (n r : Nat) : (refuseDom d n r).mems = d.mems := by
  unfold refuseDom; split <;> rfl

@[simp] theorem mems_addRecord (r : ERec) : (addRecord d r).mems = d.mems := by
  unfold addRecord; dsimp only; (repeat' split) <;> first | rfl | (simp only [mems_inc, mems_wr, mems_refuseDom]; rfl)

@[simp] theorem mems_verdictRec (r : ERec) (v a : Nat) : (verdictRec d r v a).mems = d.mems := mems_addRecord _ _

@[simp] theorem mems_setChecks (cs : List Check) : (setChecks d cs).mems = d.mems := rfl

@[simp] theorem mems_requestCheck (r : ERec) : (requestCheck d r).mems = d.mems := by
  unfold requestCheck; split
  · rfl
  · split
    · rw [mems_inc, mems_verdictRec]
    · rfl

@[simp] theorem mems_errorCheck (r : ERec) : (errorCheck d r).mems = d.mems := by
  unfold errorCheck; dsimp only; rw [mems_requestCheck, mems_addRecord]

-- An error record that asks for a drop check leaves every partition alone.

@[simp] theorem parts_refuseDom (n r : Nat) : (refuseDom d n r).parts = d.parts := by
  unfold refuseDom; split <;> rfl
@[simp] theorem parts_addRecord (r : ERec) : (addRecord d r).parts = d.parts := by
  unfold addRecord; dsimp only; (repeat' split) <;> first | rfl | (simp only [inc_parts, wr_parts, parts_refuseDom])
@[simp] theorem parts_verdictRec (r : ERec) (v a : Nat) : (verdictRec d r v a).parts = d.parts := parts_addRecord _ _
@[simp] theorem parts_requestCheck (r : ERec) : (requestCheck d r).parts = d.parts := by
  unfold requestCheck; split
  · rfl
  · split
    · rw [inc_parts, parts_verdictRec]
    · rfl
@[simp] theorem parts_errorCheck (r : ERec) : (errorCheck d r).parts = d.parts := by
  unfold errorCheck; dsimp only; rw [parts_requestCheck, parts_addRecord]

@[simp] theorem mems_fatalHold (r : ERec) : (fatalHold d r).mems = d.mems := by
  unfold fatalHold; dsimp only; rw [mems_wr]
  rw [foldl_keeps Device.mems _ (fun a b => mems_recordFault a _ _)]; simp

@[simp] theorem mems_ueFault (p : Nat) (ls : List Nat) (r : ERec) : (ueFault d p ls r).mems = d.mems := by
  unfold ueFault; simp

@[simp] theorem mems_setPool (p : Nat) (js : List Nat) : (setPool d p js).mems = d.mems := rfl

@[simp] theorem mems_slotTrack (p : Nat) : (slotTrack d p).mems = d.mems := by
  unfold slotTrack; dsimp only; (repeat' split) <;> rfl

@[simp] theorem mems_bumpCounter (src : List Nat) (p l c n : Nat) : (bumpCounter d src p l c n).mems = d.mems := by
  unfold bumpCounter; dsimp only; split <;> simp

@[simp] theorem mems_post (src : List Nat) (p l c n : Nat) : (post d src p l c n).mems = d.mems := by
  unfold post; (repeat' split) <;> simp

/-- A completion touches no byte of memory. -/
@[simp] theorem mems_complete (p l id : Nat) (cf : CF) : (complete d p l id cf).mems = d.mems := by
  unfold complete; dsimp only; split <;> simp

-- Stores.

/-- Both memories stand in canonical form. -/
def Device.wf (d : Device) : Prop := mwf d.mem = true ∧ mwf d.spad = true

theorem wf_of_mems {d e : Device} (h : e.mems = d.mems) (w : d.wf) : e.wf := by
  simp only [Device.mems, Prod.mk.injEq] at h
  exact ⟨h.1 ▸ w.1, h.2 ▸ w.2⟩

theorem hStore_mem (p h off : Nat) (bs : List Byte) :
    (d.hStore p h off bs).mem = mwrite d.mem (hKey p h off) bs := by
  unfold Device.hStore; dsimp only; split <;> rfl
theorem hStore_spad (p h off : Nat) (bs : List Byte) : (d.hStore p h off bs).spad = d.spad := by
  unfold Device.hStore; dsimp only; split <;> rfl
theorem hWrite_mem (p h off : Nat) (bs : List Byte) :
    (d.hWrite p h off bs).mem = mwrite d.mem (hKey p h off) bs := hStore_mem d p h off bs
theorem hWrite_spad (p h off : Nat) (bs : List Byte) : (d.hWrite p h off bs).spad = d.spad := hStore_spad d p h off bs

variable {d}

/-- A store behind a handle keeps the canonical form. -/
theorem wf_hStore (p h off : Nat) (bs : List Byte) (w : d.wf) : (d.hStore p h off bs).wf :=
  ⟨by rw [hStore_mem]; exact mwf_mwrite _ _ w.1, by rw [hStore_spad]; exact w.2⟩
theorem wf_hWrite (p h off : Nat) (bs : List Byte) (w : d.wf) : (d.hWrite p h off bs).wf :=
  ⟨by rw [hWrite_mem]; exact mwf_mwrite _ _ w.1, by rw [hWrite_spad]; exact w.2⟩
/-- A store into a scratchpad keeps the canonical form. -/
theorem wf_spWrite (p l off : Nat) (bs : List Byte) (w : d.wf) : (d.spWrite p l off bs).wf :=
  ⟨w.1, mwf_mwrite _ _ w.2⟩
theorem wf_openRegion (p l : Nat) (w : d.wf) : (d.openRegion p l).wf := ⟨w.1, mwf_mclear _ _ w.2⟩
theorem wf_scramble (p l off n : Nat) (w : d.wf) : (d.scramble p l off n).wf := by
  unfold Device.scramble; split
  · exact w
  · exact wf_openRegion p l w
theorem wf_writeAt (p l : Nat) (x : Loc) (bs : List Byte) (w : d.wf) : (d.writeAt p l x bs).wf := by
  unfold Device.writeAt; split
  · exact wf_spWrite _ _ _ _ w
  · exact wf_hWrite _ _ _ _ w
theorem wf_touch (p l : Nat) (x : Loc) (n : Nat) (w : d.wf) : (d.touch p l x n).wf := by
  unfold Device.touch; split
  · exact wf_scramble _ _ _ _ w
  · exact w

/-- A store behind a handle leaves every byte outside it alone. -/
theorem hStore_frame (d : Device) (p h off : Nat) (bs : List Byte) {a : Nat}
    (ha : a < hKey p h off ∨ hKey p h off + bs.length ≤ a) : mget (d.hStore p h off bs).mem a = mget d.mem a := by
  rw [hStore_mem]; exact mget_mwrite_other _ _ ha

/-- What was stored behind a handle is read back. -/
theorem hRead_hStore (d : Device) (p h off : Nat) (bs : List Byte) :
    (d.hStore p h off bs).hRead p h off bs.length = bs := by
  unfold Device.hRead; rw [hStore_mem]; exact mread_mwrite _ _ _

end

end Sys2Proof.Machine
end

