-- ==== Sys2Proof/Laws/Finds.lean ====
section
/-! SUPPORT. What a word that ECC corrects or cannot correct changes, said once: no byte of memory, and no partition where it is corrected. -/
namespace Sys2Proof.Machine

@[simp] theorem canMeet_none (d : Device) (p : Nat) (hs : List Nat) : d.canMeet p hs none = false := rfl
@[simp] theorem findBad_none (hs : List Nat) : findBad hs none = false := rfl
@[simp] theorem metBy_none (p : Nat) (who : Option (List Nat)) (hs : List Nat) (d : Device) : metBy p who hs none d = d := rfl

section
variable (d : Device)

@[simp] theorem mems_free (n : Nat) : ({ d with free := n } : Device).mems = d.mems := rfl

@[simp] theorem mems_wordCe (x c f : Nat) : (wordCe d x c f).mems = d.mems := by
  unfold wordCe; split <;> simp
@[simp] theorem parts_wordCe (x c f : Nat) : (wordCe d x c f).parts = d.parts := by
  unfold wordCe; split
  · rfl
  · rw [parts_errorCheck]; rfl
@[simp] theorem mems_readCe (p h off : Nat) : (readCe p h off d).mems = d.mems := by
  unfold readCe; split <;> simp
@[simp] theorem parts_readCe (p h off : Nat) : (readCe p h off d).parts = d.parts := by
  unfold readCe; split <;> simp

end

end Sys2Proof.Machine
end

