-- ==== Sys2Proof/Laws/Issue.lean ====
section
/-! SUPPORT. What the sequencer can do with a word: the shared issue rule of every instruction command, said once. -/
namespace Sys2Proof.Machine

theorem tput_tput {α : Type} (k : Nat) (u v : α) (m : Tab α) : tput k v (tput k u m) = tput k v m := by
  induction m with
  | nil => simp [tput]
  | cons e t ih =>
    obtain ⟨j, w⟩ := e
    simp only [tput]
    split
    · simp [tput]
    · split
      · simp [tput]
      · rename_i h1 h2; simp [tput, h1, h2, ih]

@[simp] theorem setLt_setLt (d : Device) (p l : Nat) (u v : LTile) : (d.setLt p l u).setLt p l v = d.setLt p l v := by
  simp [Device.setLt, tput_tput]

@[simp] theorem modLt_setLt (d : Device) (p l : Nat) (u : LTile) (f : LTile → LTile) :
    (d.setLt p l u).modLt p l f = d.setLt p l (f u) := by simp [Device.modLt]

/-- A word nothing stands in the way of has the opcode's effect. -/
theorem issue_of_issues {o : Op} {p l : Nat} {w : BitVec 128} {d : Device} (h : d.issues o p l w = true) :
    issue o p l w d = o.act p l (o.word w) (d.setLt p l { d.lt p l with hold := none }) := by
  simp only [Device.issues, Bool.and_eq_true, decide_eq_true_eq, Bool.not_eq_true'] at h
  obtain ⟨⟨⟨⟨⟨⟨⟨⟨h1, h2⟩, h3⟩, h4⟩, h5⟩, h6⟩, h7⟩, h8⟩, h9⟩ := h
  simp only [issue, h1, h3, h4, h5, h6, h7, h8, h9, Nat.not_le.mpr h2, Bool.not_true, Bool.false_eq_true, if_false]

/-- Everything the sequencer can do with a word: nothing, a fault, a hold, a hold for memory whose stacks it wakes, the next word, or
the opcode's effect. -/
theorem issue_cases (o : Op) (p l : Nat) (w : BitVec 128) (d : Device) :
    (d.canIssue p l = false ∧ issue o p l w d = d) ∨
    (∃ c, (c = .bounds ∨ c = .illegalInstr) ∧ issue o p l w d = tileFault d p l c) ∨
    (∃ h, issue o p l w d = d.setLt p l { d.lt p l with hold := some h }) ∨
    (∃ hs c, issue o p l w d = wakeAll (d.setLt p l { d.lt p l with hold := some .memory }) p hs c) ∨
    issue o p l w d = d.setLt p l { o.skip (o.word w) (d.lt p l) with hold := none } ∨
    (d.issues o p l w = true ∧
      issue o p l w d = o.act p l (o.word w) (d.setLt p l { d.lt p l with hold := none })) := by
  by_cases h1 : d.canIssue p l = true
  case neg => exact .inl ⟨by simpa using h1, by unfold issue; rw [if_pos (by simpa using h1)]⟩
  have g1 : ¬ (!d.canIssue p l) = true := by simp [h1]
  by_cases h2 : (d.part p).sizeOf (d.part p).prog ≤ (d.lt p l).pc
  · exact .inr (.inl ⟨_, .inl rfl, by unfold issue; rw [if_neg g1, if_pos h2]⟩)
  by_cases h3 : (!o.legalWord w) = true
  · exact .inr (.inl ⟨_, .inr rfl, by unfold issue; rw [if_neg g1, if_neg h2, if_pos h3]⟩)
  by_cases h4 : (decide (bits (o.word w) 14 12 ≠ 0) && (d.lt p l).waits [.s 63]) = true
  · exact .inr (.inr (.inl ⟨_, by unfold issue; rw [if_neg g1, if_neg h2, if_neg h3, if_pos h4]⟩))
  by_cases h5 : (!(d.lt p l).takes (o.word w)) = true
  · exact .inr (.inr (.inr (.inr (.inl (by unfold issue; rw [if_neg g1, if_neg h2, if_neg h3, if_neg h4, if_pos h5])))))
  by_cases h6 : (d.lt p l).waits (o.regs (o.word w)) = true
  · exact .inr (.inr (.inl ⟨_, by
      unfold issue; rw [if_neg g1, if_neg h2, if_neg h3, if_neg h4, if_neg h5, if_pos h6]⟩))
  by_cases h7 : o.full (d.lt p l) (o.word w) = true
  · exact .inr (.inr (.inl ⟨_, by
      unfold issue; rw [if_neg g1, if_neg h2, if_neg h3, if_neg h4, if_neg h5, if_neg h6, if_pos h7]⟩))
  by_cases h8 : (!o.check d p l (o.word w)) = true
  · exact .inr (.inl ⟨_, .inr rfl, by
      unfold issue
      rw [if_neg g1, if_neg h2, if_neg h3, if_neg h4, if_neg h5, if_neg h6, if_neg h7, if_pos h8]⟩)
  by_cases h9 : (!o.served d p l (o.word w)) = true
  · exact .inr (.inr (.inr (.inl ⟨_, _, by
      unfold issue
      rw [if_neg g1, if_neg h2, if_neg h3, if_neg h4, if_neg h5, if_neg h6, if_neg h7, if_neg h8, if_pos h9]⟩)))
  have h : d.issues o p l w = true := by
    simp only [Bool.not_eq_true, Bool.not_eq_false'] at h3 h4 h5 h6 h7 h8 h9
    simp only [Device.issues, h1, h3, h4, h5, h6, h7, h8, h9, Nat.not_le.mp h2, decide_true, Bool.not_false, Bool.and_self]
  exact .inr (.inr (.inr (.inr (.inr ⟨h, issue_of_issues h⟩))))

end Sys2Proof.Machine
end

