-- ==== Sys2Proof/Laws/Seal.lean ====
section
/-! SUPPORT. Sealing: encryption under an envelope or a key is undone by the same function, and keeps the length (R317, R318, R320). -/
namespace Sys2Proof.Machine

@[simp] theorem length_xorStream (f : Nat → Byte) (i : Nat) (bs : List Byte) : (Config.xorStream f i bs).length = bs.length := by
  induction bs generalizing i with
  | nil => rfl
  | cons b bs ih => simp [Config.xorStream, ih]

@[simp] theorem xorStream_xorStream (f : Nat → Byte) (i : Nat) (bs : List Byte) :
    Config.xorStream f i (Config.xorStream f i bs) = bs := by
  induction bs generalizing i with
  | nil => rfl
  | cons b bs ih => simp [Config.xorStream, ih]

/-- Decryption is encryption. -/
@[simp] theorem gcmCrypt_gcmCrypt (k n t : List Byte) : Config.gcmCrypt k n (Config.gcmCrypt k n t) = t := xorStream_xorStream _ _ _
/-- What is sealed under an envelope opens under it. -/
@[simp] theorem envCrypt_envCrypt (k : List Byte × List Byte) (e : Envelope) (t : List Byte) : envCrypt k e (envCrypt k e t) = t :=
  gcmCrypt_gcmCrypt _ _ _

/-- What an I/O die holds is read back as it was written, under the same buffer key (R317). -/
@[simp] theorem dieCrypt_dieCrypt (k : List Byte) (c : Nat) (bs : List Byte) : dieCrypt k c (dieCrypt k c bs) = bs := by
  unfold dieCrypt; split
  · rfl
  · exact xorStream_xorStream _ _ _

end Sys2Proof.Machine
end

