-- ==== Sys2Proof/WellFormed.lean ====
section
/-! DEFINITION. Well-formed commands: an operand that no row of the table can carry is ill-formed. `exec` gives every
command its effect all the same; what a command does with an operand that is only wrong (a reserved field, a length) is
the rules' own answer and no matter of form. -/
namespace Sys2Proof

open Sys2Proof.Machine

/-- The word has the CLASS and OPCODE of its row (R61, Tables 3-1 to 3-24). -/
def rowWord (cls opc : Nat) (w : BitVec 128) : Bool :=
  decide (bits w.toNat 3 0 = cls) && decide (bits w.toNat 11 4 = opc)

/-- A frame of a channel lies below 786,432 (R254). -/
def frameNo (f : BitVec 20) : Bool := decide (f.toNat < 786432)

/-- A pass reports each of its rows once, by the array that computes it (R95). -/
def rowsOnce (bad : List RowFind) : Bool :=
  decide (bad.map (·.row)).Nodup && bad.all (fun b => decide (b.row.toNat % 4 = b.array.val))

/-- A retrain window reports a channel once (R263). -/
def marginsOnce (ms : List Margin) : Bool := decide (ms.map (fun m => (m.stack, m.ch))).Nodup

/-- Instruction codes of Tlanea's tests (Table 17-3). -/
def isTestCode (code : BitVec 8) : Bool := decide (0x10 ≤ code.toNat) && decide (code.toNat ≤ 0x7F)
/-- Codes that select BYPASS: 0xFF and the reserved ones (Table 17-3). -/
def isBypassCode (code : BitVec 8) : Bool := decide (4 ≤ code.toNat) && !isTestCode code

/-- A configuration command or reset of Weneus has a body of one byte (R389, Table 16-6); what stands in it is seen once it is decrypted. -/
def oneByte (m : WenMsg) : Bool := decide (m.body.length = 1)

/-- Is the command well formed? -/
def Instr.wf : Instr → Bool
  | .launch _ => true
  | .abort _ => true
  | .alloc _ => true
  | .free _ => true
  | .put _ => true
  | .get _ => true
  | .query _ => true
  | .close _ => true
  | .putEventPost _ _ => true
  | .hostNotice _ _ => true
  | .workItemStart _ => true
  | .tileStop _ _ => true
  | .ctlNop _ _ w => rowWord 0 0 w
  | .ctlBr _ _ w => rowWord 0 1 w
  | .ctlCall _ _ w => rowWord 0 2 w
  | .ctlRet _ _ w => rowWord 0 3 w
  | .ctlLoop _ _ w => rowWord 0 4 w
  | .ctlSeam _ _ w => rowWord 0 5 w
  | .ctlMovi _ _ w => rowWord 0 8 w
  | .ctlSop _ _ w => rowWord 0 9 w
  | .ctlScmp _ _ w => rowWord 0 10 w
  | .ctlAopSet _ _ w => rowWord 0 11 w && decide (bits w.toNat 33 32 = 0)
  | .ctlAopAdd _ _ w => rowWord 0 11 w && decide (bits w.toNat 33 32 = 1)
  | .ctlAopGet _ _ w => rowWord 0 11 w && decide (bits w.toNat 33 32 = 2)
  | .syncPost _ _ w => rowWord 1 0 w
  | .syncWait _ _ w => rowWord 1 1 w
  | .syncRd _ _ w => rowWord 1 2 w
  | .eventPostArrive _ _ => true
  | .moveLd _ _ w => rowWord 2 0 w
  | .moveSt _ _ w => rowWord 2 1 w
  | .moveGather _ _ w => rowWord 2 2 w
  | .moveScatter _ _ w => rowWord 2 3 w
  | .moveWin _ _ w => rowWord 2 4 w
  | .moveComplete _ _ _ => true
  | .mmaOpen _ _ w => rowWord 3 0 w
  | .mmaPass _ _ w => rowWord 3 1 w
  | .mmaConv _ _ w => rowWord 3 2 w
  | .mmaClose _ _ w => rowWord 3 3 w
  | .weightFlip _ _ => true
  | .arrayPassDone _ _ x => rowsOnce x.rows
  | .mmaCloseDone _ _ => true
  | .tensionLevelStep _ _ => true
  | .grpWalk _ _ w => rowWord 4 0 w
  | .grpUnitDeal _ _ => true
  | .grpWalkDone _ _ => true
  | .vecLd _ _ w => rowWord 5 0 w
  | .vecSt _ _ w => rowWord 5 1 w
  | .vecAdd _ _ w => rowWord 5 2 w
  | .vecSub _ _ w => rowWord 5 3 w
  | .vecMul _ _ w => rowWord 5 4 w
  | .vecFma _ _ w => rowWord 5 5 w
  | .vecMax _ _ w => rowWord 5 6 w
  | .vecMin _ _ w => rowWord 5 7 w
  | .vecAbs _ _ w => rowWord 5 8 w
  | .vecNeg _ _ w => rowWord 5 9 w
  | .vecExp _ _ w => rowWord 5 10 w
  | .vecRcp _ _ w => rowWord 5 11 w
  | .vecRsq _ _ w => rowWord 5 12 w
  | .vecSqrt _ _ w => rowWord 5 13 w
  | .vecCmplt _ _ w => rowWord 5 14 w
  | .vecSel _ _ w => rowWord 5 15 w
  | .vecRedsum _ _ w => rowWord 5 16 w
  | .vecRedmax _ _ w => rowWord 5 17 w
  | .vecNfin _ _ w => rowWord 5 18 w
  | .vecBcast _ _ w => rowWord 5 19 w
  | .cvtBs _ _ w => rowWord 6 0 w
  | .cvtSr _ _ w => rowWord 6 1 w
  | .cvtUp _ _ w => rowWord 6 2 w
  | .cvtRn _ _ w => rowWord 6 3 w
  | .cvtDone _ _ => true
  | .routeTopk _ _ w => rowWord 7 0 w
  | .routeScan _ _ w => rowWord 7 1 w
  | .routeSort _ _ w => rowWord 7 2 w
  | .routeUnperm _ _ w => rowWord 7 3 w
  | .routeDone _ _ => true
  | .xchgSkein _ _ w => rowWord 8 0 w
  | .xchgCable _ _ w => rowWord 8 1 w
  | .xchgFan _ _ w => rowWord 8 2 w
  | .skeinComplete _ _ _ => true
  | .cableComplete _ _ _ => true
  | .updApply _ _ w => rowWord 9 0 w
  | .updGauge _ _ w => rowWord 9 1 w
  | .pwrTensionHold _ _ w => rowWord 10 0 w && decide (bits w.toNat 19 16 = 0)
  | .pwrTensionRamp _ _ w => rowWord 10 0 w && decide (bits w.toNat 19 16 = 1)
  | .pwrTensionRelease _ _ w => rowWord 10 0 w && decide (bits w.toNat 19 16 = 2)
  | .pwrHint _ _ w => rowWord 10 1 w && decide (bits w.toNat 19 16 = 0)
  | .timesliceExpiry _ => true
  | .tileSwitchDone _ => true
  | .slotGrant _ => true
  | .gaugeContribution _ => true
  | .gauge _ => true
  | .seamRecord _ => true
  | .seamWorkDone _ => true
  | .ledgerBlockWrite _ _ _ => true
  | .seg _ => true
  | .restart _ => true
  | .finish _ => true
  | .held _ => true
  | .head _ => true
  | .rows _ => true
  | .void _ => true
  | .chindData _ => true
  | .chindAck _ => true
  | .chindProbe _ => true
  | .chindOpen _ => true
  | .chindOpenAck _ => true
  | .chindOpenNak _ => true
  | .chindClose _ => true
  | .chindHello _ => true
  | .chindWake _ => true
  | .neighborSolicitation _ _ _ => true
  | .ackDelay _ => true
  | .rtoExpiry _ => true
  | .flowDead _ => true
  | .linkUp _ => true
  | .linkDown _ => true
  | .portDrainDone _ => true
  | .portFecBurst _ => true
  | .swatchCopyDone _ => true
  | .swatchDataSend _ => true
  | .swatchAck a => decide (a.digest.length = 64)
  | .retrainWindow ms => marginsOnce ms
  | .retrainDone _ _ _ => true
  | .rowRepairDone x => x.bad.all frameNo && x.fixed.all frameNo
  | .patrolRead _ _ => true
  | .scrubStart _ => true
  | .scrubDone _ => true
  | .dropCheckStart => true
  | .dropCheckVerdict _ _ => true
  | .errorLogCommit => true
  | .fabricRetryExhausted _ _ => true
  | .powerEntryRequest _ _ => true
  | .entryStepDone _ => true
  | .wakeSource _ _ => true
  | .exitPhaseDone _ => true
  | .tileIdleTimer _ => true
  | .stackIdleTimer _ => true
  | .portIdleTimer _ => true
  | .refusalReevaluate _ => true
  | .capWindow _ _ _ => true
  | .sensorSample x => decide (x.temps.length = 66)
  | .meterRecord _ _ x => decide (x.shares.length = 64)
  | .meterPulseEnd => true
  | .meterCalibration => true
  | .meterInputLoss _ => true
  | .keyEpochRollover _ => true
  | .keyDerivationDone _ => true
  | .passageStepDone => true
  | .partitionCleansed _ => true
  | .partitionErased _ => true
  | .weneusHello _ => true
  | .weneusResponse _ => true
  | .weneusRead _ => true
  | .weneusWrite _ => true
  | .swap via => via.all oneByte
  | .cancel via => via.all oneByte
  | .revert via => via.all oneByte
  | .telemetry _ => true
  | .logRead _ => true
  | .logClear _ => true
  | .enterService _ => true
  | .enterAdmitted _ => true
  | .attest _ => true
  | .keyInstall _ => true
  | .setRoleKey _ => true
  | .setCak _ => true
  | .raiseSvn _ => true
  | .getCert _ => true
  | .fwBegin _ => true
  | .fwData _ => true
  | .fwEnd _ => true
  | .test _ => true
  | .selfTestDone => true
  | .warmReset m => oneByte m
  | .fullReset m => oneByte m
  | .meterRead _ => true
  | .weneusClose _ => true
  | .sessionTimeout _ => true
  | .lockoutExpiry _ _ => true
  | .alertClear => true
  | .shadowWrite _ _ => true
  | .registerWrite _ _ => true
  | .startupStepDone r => decide r.failed.Nodup && decide r.degraded.Nodup
  | .vinRise mv => decide (mv < 65536)
  | .vinLow mv => decide (mv < 65536)
  | .vinOver mv => decide (mv < 65536)
  | .resetNFall => true
  | .resetNRise _ => true
  | .testEnRise => true
  | .testEnFall => true
  | .tapReset => true
  | .extest _ => true
  | .samplePreload _ => true
  | .idcode => true
  | .usercode => true
  | .tlaneaTest code => isTestCode code
  | .bypass code => isBypassCode code
  | .vecDone _ _ => true
  | .tensionHoldEnd _ _ => true
  | .overVoltageLockoutEnd mv => decide (mv < 65536)
  | .meterStart _ _ _ => true
  | .meterSelfCheck _ => true
  | .metPulseStart => true
  | .mka _ _ _ => true

end Sys2Proof
end

