-- ==== Sys2Proof/Tests/Slice0.lean ====
section
/-! SUPPORT. Tests: terms that are not well formed are refused, the hypotheses of the statements are met by small states (one
theorem per statement, each clause at once), and single steps with results worked out by hand from the spec. -/
namespace Sys2Proof.Tests
open Sys2Proof.Machine
set_option Elab.async false

-- Small states.

/-- Fields written one after another. -/
def regs (fs : List (Fld × Nat)) (d : Device) : Device := fs.foldl (fun d f => d.wr f.1 f.2) d
/-- A word with bit fields: low bit and value. -/
def wd (fs : List (Nat × Nat)) : BitVec 128 := BitVec.ofNat 128 ((fs.map (fun f => f.2 * 2 ^ f.1)).sum)
/-- A job descriptor: 4 logical tiles, one device, 2 slots, program handle 7, 4 micro-batches. -/
def desc : List Byte := toLe 8 0 ++ toLe 8 0 ++ toLe 8 0 ++ toLe 2 0 ++ toLe 2 1 ++ toLe 1 4 ++ toLe 1 2 ++ toLe 2 4 ++ toLe 4 7 ++ toLe 4 0 ++ List.replicate 88 0#8
/-- A work item of steps 0 to 9. -/
def item : WorkItem := { id := 1, reqSeq := 5, jobId := 9, flow := 20#16, startStep := 0, stepCount := 10, state := .running, cause := .none, lastStep := 0, poisoned := 0, later := 0, mute := false }
/-- A handle of 64 KiB on stack 0, readable and writable. -/
def handle (access : Nat) : HEntry := { cls := 1, access := access, localLt := 0, size := 65536, place := { spread := false, stack := 0, list := [0, 1], segs := [(0, 32)] } }
/-- Partition 0 on column 0, a work item running. -/
def part0 : Part :=
  { Part.reset with
    cols := 1, ts := [1#8], handles := [(7, some (handle 0)), (8, some (handle 1))],
    job := some { jobId := 9, desc := desc, nextStep := 0, lastStep := 0 }, wis := [item], nextWi := 2 }
/-- In SERVICE, partition 0 KEYED on column 0, its tiles and stacks ON, CFG_MGT_IP 1. -/
def dev0 : Device :=
  Device.setReg (regs ([(fMode, 2), (fPartState 0, 3), (fValid 0, 1), (fColumns 0, 1), (fDom 72, 0), (fPhase, 9)] ++
      [0, 1, 2, 3, 32, 33, 34, 35, 64, 74, 75, 76, 77].map (fun n => (fDom n, 0)) ++ [0, 1, 2, 3].map (fun x => (fSAssigned x, 1)))
    { Device.reset with
      parts := [(0, part0)], powered := true, pwrOk := true
      tiles := [0, 1, 2, 3].map (fun t => (t, { PTile.reset with part := some 0, hosted := [t], run := t, level := 4 })) }) 0x10038 1
/-- The same with the logical tile 0 as given. -/
def devT (t : LTile) : Device := dev0.setLt 0 0 t
/-- Partition 0 as given. -/
def devP (P : Part) : Device := dev0.setPart 0 P
/-- The same with a physical tile that hosts two logical tiles. -/
def dev2 : Device := dev0.modTile 0 (fun x => { x with hosted := [0, 1] })
/-- State of a device. -/
def st (d : Device) : State := { State.reset with dev := d }

-- Hypotheses of the statements on instructions.

theorem test_hyp_registerInstructions : let d := dev0
    (d.issues opMovi 0 0 (wd [(16, 5), (24, 77)]) && d.issues opSop 0 0 0 && d.issues opScmp 0 0 (wd [(16, 1)]) &&
     d.issues opAopSet 0 0 0 && d.issues opAopAdd 0 0 0 && d.issues opAopGet 0 0 0 && d.issues opRd 0 0 0) = true := by decide +kernel

theorem test_hyp_flowInstructions :
    (dev0.issues opNop 0 0 0 && dev0.issues opBr 0 0 0 && dev0.issues opCall 0 0 0 &&
     (devT { LTile.reset with calls := [32] }).issues opRet 0 0 0 && decide (((st (devT { LTile.reset with calls := [32] })).tileAt 0 0).calls = [32])) = true := by
  decide +kernel

theorem test_hyp_loopSeamAndHint :
    (dev0.issues opLoop 0 0 (wd [(56, 1), (22, 1), (24, 3)]) && decide (loopCount ((st dev0).tileAt 0 0) (wd [(56, 1), (22, 1), (24, 3)]).toNat = 3) &&
     dev0.issues opLoop 0 0 (wd [(56, 1)]) && decide (loopCount ((st dev0).tileAt 0 0) (wd [(56, 1)]).toNat = 0) &&
     dev0.issues opSeam 0 0 0 && decide (dev0.hostOf 0 0 = some 0) && decide (dev0.otherReady 0 0 0 = none) &&
     dev2.issues opSeam 0 0 0 && decide (dev2.hostOf 0 0 = some 0) && decide (dev2.otherReady 0 0 0 ≠ none) && dev0.issues opHint 0 0 (wd [(24, 1)])) = true := by decide +kernel

/-- A logical tile with group 0 open for issue, one row of FP32. -/
def openT : LTile := { LTile.reset with ags := [(0, some (1, 1, 0))] }
/-- XCHG.CABLE with S1 in s1, the cable number in s2, the descriptor at a3. -/
def linkW : BitVec 128 := wd [(36, 1), (42, 2), (32, 3)]
theorem test_hyp_wordsThatDoNotIssue : let d := dev0
    let far := devT { LTile.reset with pc := 65536 }
    let busy := devT { LTile.reset with vec := List.replicate 32 ⟨0, 1, .store 0 []⟩ }
    let writes := devT { LTile.reset with vec := [⟨0, 0x10, .scal 0 0⟩] }
    let x := opSop.word 0
    let cold := (devT { openT with s := [(2, 6)], a := [(3, BitVec.ofNat 64 (8 * 2 ^ 32))] }).wr (fDom 32) 1
    let y := (opLink false).word linkW
    (cold.canIssue 0 0 && (opLink false).legalWord linkW && decide ((cold.lt 0 0).pendingRegs = []) && (cold.lt 0 0).takes y &&
     !(opLink false).full (cold.lt 0 0) y && (opLink false).check cold 0 0 y && !(opLink false).served cold 0 0 y &&
     decide ((cold.lt 0 0).pc < (cold.part 0).sizeOf (cold.part 0).prog) &&
     far.canIssue 0 0 && decide ((far.part 0).sizeOf (far.part 0).prog ≤ (far.lt 0 0).pc) &&
     d.canIssue 0 0 && decide ((d.lt 0 0).pc < (d.part 0).sizeOf (d.part 0).prog) && !opMovi.legalWord (wd [(100, 1)]) &&
     opSop.legalWord (wd [(12, 1)]) && decide ((d.lt 0 0).pendingRegs = []) && !(d.lt 0 0).takes (opSop.word (wd [(12, 1)])) &&
     busy.canIssue 0 0 && (busy.lt 0 0).takes (opVecSt.word 0) && opVecSt.full (busy.lt 0 0) (opVecSt.word 0) && decide ((busy.lt 0 0).pendingRegs = []) &&
     (d.lt 0 0).takes (opRet.word 0) && !opRet.full (d.lt 0 0) (opRet.word 0) && !opRet.check d 0 0 (opRet.word 0) && opRet.legalWord 0 &&
     writes.canIssue 0 0 && opSop.legalWord 0 && decide (bits x 14 12 = 0) && (writes.lt 0 0).takes x && (writes.lt 0 0).waits (opSop.regs x)) = true := by
  decide +kernel

/-- A post of an increment. -/
def post1 : Post := { host := false, tgt := 1, ctr := 3, inc := 2, value := 0, waits := [] }

theorem test_hyp_counters : let t := (st dev0).tileAt 0 0
    let w := wd [(22, 1), (32, 4), (16, 3)]
    let u := devT { LTile.reset with ctr := [(3, 9)] }
    let q := devT { LTile.reset with posts := [post1] }
    (u.issues opWait 0 0 w && decide (waitTarget ((st u).tileAt 0 0) w.toNat ≤ (tget 0 (u.lt 0 0).ctr 3).toNat) &&
     dev0.issues opWait 0 0 w && decide ((tget 0 t.ctr 3).toNat < waitTarget t w.toNat) && decide (dev0.hostOf 0 0 = some 0) &&
     decide (dev0.otherReady 0 0 0 = none) &&
     dev2.issues opWait 0 0 w && decide (dev2.otherReady 0 0 0 ≠ none) && dev0.issues opPost 0 0 (wd [(16, 1), (32, 2)]) && decide ((q.lt 0 0).posts = [post1]) &&
     (q.part 0).isRunning && decide (q.hostOf 0 1 = some 1) && q.domOn 1 && !q.tileOut 1) = true := by decide +kernel

theorem test_hyp_hostedTiles : let d := dev0.modTile 0 (fun x => { x with hosted := [0, 1] })
    let e := dev0.modTile 0 (fun x => { x with hosted := [0, 1], switching := true })
    (decide ((d.tile 0).part = some 0) && decide ((d.tile 0).hosted = [0, 1]) && decide ((d.tile 0).run = 0) && (d.part 0).isRunning &&
     decide (d.hostOf 0 0 = some 0) && !(d.tile 0).switching && decide ((d.lt 0 1).block = .none) && (e.tile 0).switching &&
     decide ((e.lt 0 0).arr = []) && decide ((e.tile 0).hosted = [0, 1]) && e.canSave 0 0 &&
     (let f := e.wr (fDom (32 + e.saveStack 0)) 1
      !f.canSave 0 0 && (f.tile 0).switching && decide ((f.lt 0 0).arr = []) && decide ((f.tile 0).run = 0))) = true := by decide +kernel

theorem test_hyp_movesJoin :
    (dev0.issues (opMove 0) 0 0 0 && dev0.issues (opMove 1) 0 0 0 && dev0.issues (opMove 2) 0 0 0 && dev0.issues (opMove 3) 0 0 0 &&
     dev0.issues (opMove 4) 0 0 0) = true := by decide +kernel

/-- A MOVE.ST of one row of 64 bytes to handle 8. -/
def move1 : MoveOp := { id := 0, kind := 1, lease := 0, as := 0, ad := BitVec.ofNat 64 (8 * 2 ^ 32), ai := 0, len := 64, rows := 1, sstr := 0, dstr := 0, cf := none }

theorem test_hyp_moveCompletes : let d := devT { LTile.reset with moves := [(2, [move1])] }
    let e := d.setLt 0 0 ((d.lt 0 0).setQueue 2 [])
    (decide ((d.lt 0 0).queue 2 = [move1]) && !(d.part 0).engineHeld 0 2 && !(d.hostOf 0 0).any d.tileOut && !(d.part 0).updating (locOf move1.as).h &&
     move1.handles.all (fun h => decide (d.foreignStack 0 h = none) && (decide (h = 0) || d.reach 0 h)) &&
     decide ((moveRows 0 0 move1 move1.rows 0 e).2 = none)) = true := by decide +kernel

/-- Did the move's row go through? -/
def okDev : Except Cause Device → Bool
  | .ok _ => true
  | .error _ => false

theorem test_hyp_moveRow : (okDev (moveRow 0 0 move1 0 dev0) && decide ((locOf move1.ad).h = 8) &&
    okDev (moveRow 0 0 { move1 with kind := 0, as := BitVec.ofNat 64 (8 * 2 ^ 32), ad := 0 } 0 dev0)) = true := by decide +kernel

/-- A pass's word: FP8 formats, one chunk, no block scales. -/
def passW : BitVec 128 := wd [(36, 3), (40, 3), (46, 1)]

theorem test_hyp_arrayOperations :
    let wk := wd [(40, 3), (44, 3), (34, 2), (28, 3)]
    let u := devT { LTile.reset with s := [(2, 1), (3, 1)] }
    let v := walkOf ((st u).tileAt 0 0) 0 0 wk.toNat
    (dev0.issues opOpen 0 0 (wd [(36, 1)]) && (devT openT).issues (opPass false) 0 0 passW && (devT openT).issues opClose 0 0 0 &&
     u.issues opWalk 0 0 wk && decide (v.cnt ≠ 0) && decide ((u.part 0).walks = [])) = true := by decide +kernel

/-- A logical tile whose engine 0 streams a window of 32 channels. -/
def convT : LTile := { openT with armed := [(0, some { id := 0, as := 0, ai := 0, used := false })], moves := [(0, [{ move1 with kind := 4 }])] }
theorem test_hyp_conv : (devT convT).issues (opPass true) 0 0 passW = true := by decide +kernel

/-- A group of one row. -/
def group1 : Group := { oid := 1, m := 1, acc := 0, init := false, ai := 0, bias := 0, recomp := 0, gauge := false, sums := [] }
/-- A pass of 16 BF16 elements on group 0. -/
def pass1 : Pass := { id := 4, ag := 0, fa := 1, fb := 1, bsz := 0, kch := 1, aa := 0, ab := 1024, conv := none, win := none, first := true, cf := none }
/-- Its weights, all 0. -/
def wset1 : WSet := { op := 4, base := 1024, data := [], psFree := none, both := false }
/-- A logical tile whose arrays' queue begins with that pass, queued or begun. -/
def passT (b : List Begun) (sh : Option WSet) : LTile := { openT with groups := [(0, some group1)], arr := [.pass pass1], begun := b, wsh := sh }

theorem test_hyp_passes : let d := devT (passT [] (some wset1))
    let c := devT (passT [] none)
    let e := devT (passT [⟨pass1, wset1⟩] none)
    (decide ((d.lt 0 0).headPass = some pass1) && decide (d.arraysOf 0 0 = some 0) && decide ((d.tile 0).level = 4) && !(d.part 0).stopping && !d.checkDue 0 &&
     d.passReady 0 0 pass1 && decide (pass1.conv = none) && decide ((d.lt 0 0).wsh = some wset1) && decide (wset1.op = pass1.id) &&
     decide ((c.lt 0 0).headPass = some pass1) && c.passReady 0 0 pass1 && decide ((c.lt 0 0).wsh = none) &&
     decide ((e.lt 0 0).arr = [.pass pass1]) && decide ((e.lt 0 0).begun = [⟨pass1, wset1⟩]) && decide (e.hostOf 0 0 = some 0) && !e.tileOut 0 && decide ((e.lt 0 0).group 0 = some group1) &&
     decide ((e.part 0).walks = []) && rowsFit e 0 group1.m [] && e.reachAll 0 group1.initHandles && (e.boundLink 0 0 0).isNone &&
     decide (e.passFault 0 0 1 pass1 = none) && decide ((locOf pass1.ab).pos + planeBytes 1 0 1024 pass1.k ≤ psumBase) &&
     decide ((locOf pass1.aa).pos + planeBytes 1 0 1 pass1.k ≤ psumBase)) = true := by decide +kernel

theorem test_hyp_tension : let d := dev0
    let b := devT (passT [⟨pass1, wset1⟩] none)
    let u := (devT (passT [] none)).modTile 0 (fun x => { x with level := 2 })
    (decide (d.hostOf 0 0 = some 0) && d.issues opTHold 0 0 (wd [(24, 9)]) && d.issues opTRamp 0 0 0 && d.issues opTRelease 0 0 0 && !d.arraysBusy 0 0 &&
     decide ((d.tile 0).level = 4) && b.issues opTRelease 0 0 0 && b.arraysBusy 0 0 && decide ((d.tile 0).run = 0) && d.domOn 0 && !d.arraysOut 0 && !u.arraysOut 0 && !d.passWaits 0 0 &&
     decide ((d.tile 0).holdCyc = 0) && !(d.tile 0).ramping && decide ((u.tile 0).run = 0) && u.domOn 0 && !u.arraysBusy 0 0 && u.passWaits 0 0 &&
     decide ((u.tile 0).level < 4)) = true := by decide +kernel

theorem test_hyp_close : let ad := BitVec.ofNat 64 (8 * 2 ^ 32)
    let d := devT { openT with groups := [(0, some group1)], arr := [.close 4 0 ad none] }
    let n := (group1.bytes ++ trailer 0 0 false).length
    (decide ((d.lt 0 0).arr = [.close 4 0 ad none]) && !(d.hostOf 0 0).any d.tileOut && !(d.part 0).stopping && decide ((d.lt 0 0).group 0 = some group1) && (d.boundLink 0 0 0).isNone &&
     decide ((locOf ad).h ≠ 0) && decide (d.foreignStack 0 8 = none) && d.reach 0 8 && decide (d.writeFault 0 (locOf ad) n = none)) = true := by
  decide +kernel

/-- A walk of logical tile 0 that runs, with units to deal or none. -/
def walk1 (us : List GUnit) : Walk :=
  { wid := 3, mask := 1, at_ := 0, cnt := 1, fa := 3, fb := 3, bsz := 0, acc := 0, mode := 0, joined := [0], started := true, table := [], units := us,
    prog := [], done := [], failed := false }
theorem test_hyp_walks :
    let f (us : List GUnit) := (devT { LTile.reset with arr := [.walk 4 3 none] }).setPart 0 { part0 with walks := [walk1 us] }
    let d := f [⟨0, 0, 0⟩]
    let e := f []
    (decide ((d.lt 0 0).arr = [.walk 4 3 none]) && decide ((d.part 0).walk 3 = some (walk1 [⟨0, 0, 0⟩])) && decide (d.hostOf 0 0 = some 0) &&
     decide (d.arraysOf 0 0 = some 0) && !d.checkDue 0 && decide ((d.tile 0).level = 4) && !(d.part 0).stopping && !e.arraysOut 0 &&
     decide ((e.part 0).walk 3 = some (walk1 [])) && decide (maskLts (walk1 []).mask = [0])) = true := by decide +kernel

theorem test_hyp_vectorQueue : let d := dev0
    (d.issues (opVec 0x02 2 [0, 1, 2] eAdd) 0 0 0 && d.issues (opVec 0x03 2 [0, 1, 2] eSub) 0 0 0 && d.issues (opVec 0x04 2 [0, 1, 2] eMul) 0 0 0 &&
     d.issues (opVec 0x05 3 [0, 1] eFma) 0 0 0 && d.issues (opVec 0x06 2 [0, 1, 2] eMax) 0 0 0 && d.issues (opVec 0x07 2 [0, 1, 2] eMin) 0 0 0 &&
     d.issues (opVec 0x08 1 [0, 1, 2] eAbs) 0 0 0 && d.issues (opVec 0x09 1 [0, 1, 2] eNeg) 0 0 0 && d.issues (opVec 0x0A 1 [0] eExp) 0 0 0 &&
     d.issues (opVec 0x0B 1 [0] eRcp) 0 0 0 && d.issues (opVec 0x0C 1 [0] eRsq) 0 0 0 && d.issues (opVec 0x0D 1 [0] eSqrt) 0 0 0 &&
     d.issues (opVec 0x0E 2 [0, 1, 2] eCmplt) 0 0 0 && d.issues (opVec 0x0F 3 [0, 1, 2] eSel) 0 0 0 && d.issues (opRed 0x10 [0, 1, 2] redSum) 0 0 0 &&
     d.issues (opRed 0x11 [0, 1, 2] redMax) 0 0 0 && d.issues (opRed 0x12 [0, 1] nFin) 0 0 0 && d.issues opVecLd 0 0 0 && d.issues opVecSt 0 0 0 &&
     d.issues opVecBcast 0 0 0) = true := by decide +kernel

theorem test_hyp_vectorFinish :
    let f (a : VecDo) := (devT { LTile.reset with vec := [⟨4, 0, a⟩] }).lt 0 0
    (decide ((f (.reg 1 [])).vec = [⟨4, 0, .reg 1 []⟩]) && decide ((f (.scal 1 5)).vec = [⟨4, 0, .scal 1 5⟩]) && decide ((f (.load 1 64)).vec = [⟨4, 0, .load 1 64⟩]) && !dev0.vectorOut 0 0 &&
     decide ((locOf 64).h = 0) && !(locOf 64).bad && decide ((locOf 64).pos + 4096 ≤ psumBase) && decide ((List.replicate 1024 (7 : BitVec 32)).length = 1024)) = true := by
  decide +kernel

/-- A CVT's word from one format to another. -/
def cvtW (fs fd : Nat) : BitVec 128 := wd [(38, fs), (42, fd)]
theorem test_hyp_conversions :
    let d := devT { LTile.reset with vec := [⟨4, 3, .cvt 3 0 1 0 8 0 4096 0 0 none⟩] }
    (dev0.issues (opCvt 0) 0 0 (cvtW 0 3) && dev0.issues (opCvt 1) 0 0 (cvtW 0 1) && dev0.issues (opCvt 2) 0 0 (cvtW 1 0) && dev0.issues (opCvt 3) 0 0 (cvtW 0 1) &&
     decide ((d.lt 0 0).vec = [⟨4, 3, .cvt 3 0 1 0 8 0 4096 0 0 none⟩]) && !d.vectorOut 0 0 && decide ((locOf 0).h = 0) && decide ((locOf 4096).h = 0) && !(locOf 0).bad &&
     !(locOf 4096).bad && decide ((locOf 0).pos + planeBytes 0 0 1 8 ≤ psumBase) && decide ((locOf 4096).pos + planeBytes 1 0 1 8 ≤ psumBase)) = true := by decide +kernel

/-- A ROUTE.TOPK of no tokens and two experts. -/
def route1 : RouteOp := { id := 4, op := 0, as := 0, ad := 4096, ax := 0, s1 := 0, s2 := 2, s3 := 0, k2 := false, cf := none }
theorem test_hyp_route : let t := devT { LTile.reset with s := [(1, 2)] }
    let w := wd [(42, 1)]
    let d := devT { LTile.reset with rte := [route1] }
    (t.issues (opRoute 0) 0 0 w && t.issues (opRoute 1) 0 0 w && t.issues (opRoute 2) 0 0 w && dev0.issues (opRoute 3) 0 0 0 &&
     decide ((d.lt 0 0).rte = [route1]) && !(d.hostOf 0 0).any d.tileOut && !route1.handles.any (d.part 0).updating && d.reachAll 0 route1.handles && decide ((runRoute 0 0 route1 (d.setLt 0 0 { d.lt 0 0 with rte := [] })).2 = none)) = true := by decide +kernel

theorem test_hyp_topk : (([0, 0x7FC00000].map (decodeFmt 0)).any vNonfin && !([0x3F800000, 0].map (decodeFmt 0)).any vNonfin) = true := by decide +kernel

/-- Bytes of a link descriptor: an adding link, number 1 of 2, FP32 parts. -/
def linkDesc (relay : Bool) (this npass : Nat) : List Byte :=
  toLe 1 0 ++ toLe 1 (if relay then 0 else 1) ++ toLe 4 0 ++ toLe 2 2 ++ toLe 2 this ++ toLe 2 0 ++ toLe 4 npass ++ toLe 4 0 ++ toLe 4 0 ++ toLe 8 0 ++ List.replicate 32 0#8
/-- A device with a link descriptor in the scratchpad at 4096. -/
def linkD (relay : Bool) (this npass s1 : Nat) : Device :=
  (devT { openT with s := [(1, BitVec.ofNat 64 s1), (2, 6)], a := [(3, 4096)] }).spWrite 0 0 4096 (linkDesc relay this npass)
/-- Every hypothesis of the links' statement. -/
def linkHyp (d : Device) : Bool :=
  let t := (st d).tileAt 0 0
  let x := locOf (t.areg 3)
  let b := d.spRead 0 0 x.pos 64
  let es := d.spRead 0 0 (x.pos + 64) (8 * fld b 6 2)
  let k0 : Link := { linkOf false t.nextOp t (d.part 0).step linkW.toNat b es with lt := 0 }
  let k : Link := { k0 with gid := ((tget none t.ags k0.ag).map (·.1)).getD 0, descH := 0 }
  d.issues (opLink false) 0 0 linkW && decide (x.h = 0) && !x.bad && decide (x.pos + 64 + 8 * fld b 6 2 ≤ psumBase) && decide (fld b 6 2 ≤ 4096) &&
  linkLegal d 0 0 k b es && decide ((d.part 0).early = []) && decide ((d.part 0).voids = []) && decide ((d.part 0).fataled = []) && decide (d.refusedBy 0 k = []) && decide ((d.part 0).links = []) &&
  ((k.relay && (d.linkGroup 0 k).isNone) || (!k.relay && decide (k.this ≠ 0)))
theorem test_hyp_linksForm : (linkHyp (linkD true 0 1 1024) && linkHyp (linkD false 1 0 1024)) = true := by decide +kernel

-- A pass over a scratchpad of zeros.

theorem spXor_none (t : LTile) (h : t.psFree = none) (off : Nat) (bs : List Byte) : t.spXor off bs = bs := by
  induction bs generalizing off with
  | nil => rfl
  | cons b bs ih => simp [LTile.spXor, ih, LTile.spMask, spMaskOf, h]
theorem spRead_zero (d : Device) (p l off n : Nat) (hs : d.spad = []) (h : (d.lt p l).psFree = none) : d.spRead p l off n = List.replicate n 0#8 := by
  rw [Device.spRead, spXor_none _ h, hs]
  simp [mread, mget, tget]
theorem fld_zero (n o k : Nat) : fld (List.replicate n 0#8) o k = 0 := by
  have h : ∀ m : List Nat, leNat (m.map (fun _ => 0#8)) = 0 := by
    intro m
    induction m with
    | nil => rfl
    | cons a m ih => simpa [leNat] using ih
  unfold fld
  have : (fun i => (List.replicate n 0#8).getD (o + i) 0#8) = fun _ => 0#8 := by
    funext i
    simp [List.getD, List.getElem?_replicate]
    split <;> rfl
  rw [this, h]
theorem elemAt_zero (rd : Rd) (lines k i j : Nat) (hr : ∀ o n, rd o n = List.replicate n 0#8) : elemAt rd 1 0 lines k i j = decodeFmt 1 0 := by
  have hc : scaled 1 = false := by decide
  simp [elemAt, hr, fld_zero, rawElem, scaledVal, hc]
theorem passTile_zero (code : Nat) (bias : Int) (m k : Nat) (z : Val) (A B : Nat → Nat → Val) (hA : ∀ i j, A i j = z) (hB : ∀ i j, B i j = z)
    (h : (accPairs code bias (accOf code 0) (List.replicate k (z, z))).ovf = false ∧
      BitVec.ofNat 64 (encodeFmt code (accPairs code bias (accOf code 0) (List.replicate k (z, z))).v) = 0) :
    passTile code bias m k A B [] [] = ([], false) := by
  unfold passTile
  have key : ∀ is : List Nat, is.foldl (fun (r : Tab Word × Bool) i =>
      if ([] : List Nat).contains (i / 1024) then r
      else
        let a := accPairs code bias (accOf code (tget 0 r.1 i)) ((List.range k).map (fun j => (A (i / 1024) j, B (i % 1024) j)))
        (tset 0 r.1 i (BitVec.ofNat 64 (encodeFmt code a.v)), r.2 || a.ovf)) ([], false) = ([], false) := by
    intro is
    induction is with
    | nil => rfl
    | cons i is ih =>
      rw [List.foldl_cons]
      have hm : (List.range k).map (fun j => (A (i / 1024) j, B (i % 1024) j)) = List.replicate k (z, z) := by
        simp [hA, hB]
      simp only [hm, tget, List.contains_nil, Bool.false_eq_true, if_false] at *
      rw [h.1, h.2]
      simpa [tset, tdel] using ih
  exact key _
/-- The weights are read as 0. -/
theorem wset1_zero (o n : Nat) : wset1.reader o n = List.replicate n 0#8 := by
  simp [WSet.reader, wset1, mget, tget, spMaskOf]
theorem test_hyp_passSums : ((devT (passT [⟨pass1, wset1⟩] none)).passSums 0 0 group1 pass1 wset1.reader (rowsLost [])).2 = false := by
  have hf : ((devT (passT [⟨pass1, wset1⟩] none)).lt 0 0).psFree = none := by decide +kernel
  have hr (o n : Nat) : (devT (passT [⟨pass1, wset1⟩] none)).reader 0 0 (locOf pass1.aa) o n = List.replicate n 0#8 := by
    show (devT (passT [⟨pass1, wset1⟩] none)).readAt 0 0 ((locOf pass1.aa).plus o) n = _
    rw [Device.readAt, if_pos (by rfl), spRead_zero _ _ _ _ n rfl hf]
  have hz := passTile_zero (accCode group1.acc) group1.bias group1.m pass1.k (decodeFmt 1 0) ((devT (passT [⟨pass1, wset1⟩] none)).passA 0 0 group1.m pass1)
    (elemAt wset1.reader pass1.fb pass1.bsz 1024 pass1.k)
    (fun i j => elemAt_zero _ _ _ _ _ hr) (fun i j => elemAt_zero _ _ _ _ _ wset1_zero) (by decide +kernel)
  show (passTile _ _ _ _ _ _ _ _).2 = false
  exact congrArg Prod.snd hz

/-- Was a part of an exchange read well? -/
def okOf {α : Type} : Except Cause α → Bool
  | .ok _ => true
  | .error _ => false

/-- Plan header of MODE 0: one source, no entry, rows of 64 bytes of FP32; the source list at 8448. -/
def planHdr : List Byte := [0#8, 0#8, 0#8, 0#8] ++ toLe 2 1 ++ toLe 2 0 ++ toLe 4 64 ++ toLe 4 0 ++ toLe 8 0 ++ toLe 8 0 ++ toLe 8 8448 ++ List.replicate 24 0#8
/-- Send header: rows of 64 bytes of FP32; skein headers at 8512. -/
def sendHdr : List Byte := [0#8, 0#8, 0#8, 0#8] ++ toLe 4 64 ++ toLe 8 8512 ++ List.replicate 48 0#8
/-- XCHG.SKEIN with the plan at a1, the send list at a2 and one skein in s1. -/
def skeinW : BitVec 128 := wd [(36, 1), (42, 3), (32, 1), (24, 2)]
/-- A device with the plan and the send list of one skein to itself. -/
def skeinD : Device :=
  (((devT { LTile.reset with s := [(1, 1)], a := [(1, 8192), (2, 8320)] }).spWrite 0 0 8192 planHdr).spWrite 0 0 8320 sendHdr).spWrite 0 0 8448 (toLe 2 0)
theorem test_hyp_skeinStarts :
    let t := (st skeinD).tileAt 0 0
    let d0 := skeinD.setLt 0 0 { t.advance with nextOp := t.nextOp + 1 }
    let blank : Exch :=
      { lt := 0, op := t.nextOp, cf := cfOf skeinW.toNat, mode := 0, exch := 0, step := 0, plan := [], ents := [], planAt := 0, srcs := [], slist := [], tagsAt := 0,
        slot := 0, sentTo := [] }
    let x := locOf (t.areg 2)
    let xs := skeinSpans d0 0 0 1 blank (t.areg 1) x
    let d := d0.touchAll 0 0 xs
    (skeinD.issues opSkein 0 0 skeinW && decide ((skeinD.part 0).voids = []) && !(skeinD.part 0).voidSent &&
     (match readPlan d 0 0 0 (t.areg 1) blank, skeinsOf d 0 0 0 0 1 x with
      | .ok e0, .ok r =>
        let ys := rowSpans r.2.1 r.2.2.1 r.2.2.2 r.1
        let d1 := (d.modPart 0 (fun P => { P with exchs := P.exchs ++ [{ e0 with sentTo := r.1.map (·.dev), reads := spanHandles (xs ++ ys) }] })).modLt 0 0
          (fun y => { y with xch := y.xch ++ [{ id := t.nextOp, kind := 0, au := 0, cf := cfOf skeinW.toNat }] })
        decide (d.refusedOf 0 (r.1.map (·.dev) ++ e0.srcs.map (·.dev)) = []) &&
        decide ((sendSkeins 0 0 0 0 r.2.1 r.2.2.1 r.2.2.2 r.1 (d1.touchAll 0 0 (reached d1 0 ys))).2 = none)
      | _, _ => false)) = true := by decide +kernel

/-- Link 0 of cable 6, of one value. -/
def link1 (relay : Bool) : Link := { linkOf false 4 LTile.reset 0 0 (linkDesc relay 0 1) [] with cable := 6, s1 := 1 }
/-- A cable message for link `dest` of cable 6. -/
def cableMsg (dest epoch flags : Nat) : CableMsg :=
  { part := 0, peer := 0, fmt := 0, cableId := 6, step := 0, src := 0xFFFF, dest := BitVec.ofNat 16 dest, links := 2, epoch := BitVec.ofNat 8 epoch,
    flags := BitVec.ofNat 8 flags, bias := 0, seg := 0, level := 0, mbNext := 0, values := [5] }
theorem test_hyp_cableMessages : let k := link1 true
    let f := { k with this := 1, mode := 1, delivered := true }
    let P := { part0 with links := [k] }
    let Q := { part0 with links := [f] }
    let m := cableMsg 0 0 2
    (decide (m.dest ≠ 0xFFFF#16) && decide (P.linkFor m = some k) && k.agrees m && k.fits m && decide (P.link k.lt k.op = some k) && !k.fan && k.relay &&
     !k.zero && !k.ready && !k.halt && decide (m.epoch.toNat = k.epoch) && !k.done.contains m.seg.toNat && decide (tget [] k.got m.seg.toNat = []) &&
     ((devP P).linkGroup 0 k).isNone && f.agrees m && decide (k.this ≠ k.final) &&
     decide (Q.links.find? (fun k => decide (k.cable = 6) && decide (k.step = 0) && decide (k.this = k.final) && decide (k.mode = 1) && k.delivered && (k.fan == false)) = some f) &&
     (let m := cableMsg 0 1 0
      decide (P.linkFor m = some k) && k.agrees m && decide (k.this = 0) && decide (k.epoch < m.epoch.toNat) && decide (P.voids = []))) = true := by decide +kernel

/-- A skein message of MODE 1 from device 0. -/
def skeinM (rows : Nat) (payload : List Byte) : SkeinMsg :=
  { part := 0, mode := 1, exch := 3, step := 0, src := 0, dst := 0, rows := BitVec.ofNat 32 rows, offset := 0, fmt := 0, bsz := 0, dataBytes := 64, payload := payload }
/-- A RETURN exchange that awaits device 0. -/
def exch1 (runs : Option (List (Nat × Nat))) : Exch :=
  { lt := 0, op := 4, cf := none, mode := 1, exch := 3, step := 0, plan := planHdr, ents := [], planAt := 0,
    srcs := [{ dev := 0, runs := runs, pieces := [], landed := false, void := false }], slist := [], tagsAt := 0, slot := 0, sentTo := [] }
theorem test_hyp_skeinMessages : let x := exch1 none
    let y := exch1 (some [(0, 2)])
    let a := x.srcs.headD ⟨9, none, [], true, true⟩
    let b := y.srcs.headD ⟨9, none, [], true, true⟩
    let m := skeinM 2 (toLe 4 (2 * 4096))
    let n : SkeinMsg := { skeinM 2 (List.replicate 72 7#8) with offset := 72 }
    (part0.job.isSome && decide (m.step.toNat = part0.step) && !part0.voidSent && decide ({ part0 with exchs := [x] }.exchFor m = some x) &&
     decide (x.srcs = [a]) && decide (a.dev = m.src.toNat) && !a.void && decide (a.runs = none) && !a.landed && decide (a.pieces = []) && x.agrees m &&
     decide (((wordsOf 4 (m.payload.length / 4) m.payload).map (fun e => bits e 29 12)).sum = m.rows.toNat) && decide (0 < m.rows.toNat * recBytes x.fmt x.bsz x.db) &&
     decide ({ part0 with exchs := [y] }.exchFor n = some y) && decide (y.srcs = [b]) && decide (b.dev = 0) && b.runs.isSome && y.agrees n &&
     decide (n.rows.toNat = b.total) && decide (n.payload.length < b.total * recBytes y.fmt y.bsz y.db) && decide (b.pieces = []) &&
     decide (n.offset.toNat + n.payload.length = b.total * recBytes y.fmt y.bsz y.db) && decide (part0.exchs = []) &&
     decide (part0.links = []) && decide (part0.early = []) && !part0.contrib && !part0.voids.contains 0) = true := by decide +kernel

/-- A DISPATCH that has landed 3 rows for its only entry, instance 5. -/
def exch2 : Exch :=
  { exch1 none with
    mode := 0, plan := [0#8, 0#8, 0#8, 0#8] ++ toLe 2 1 ++ toLe 2 1 ++ toLe 4 64 ++ List.replicate 52 0#8, planAt := 8192,
    ents := toLe 2 9 ++ toLe 2 5 ++ toLe 4 16 ++ List.replicate 24 0#8, srcs := [⟨0, some [(9, 3)], [], true, false⟩] }
theorem test_hyp_exchangesComplete : let k := { link1 true with fin := true, done := [0] }
    let d := devP { part0 with links := [k], exchs := [exch2] }
    let g := { k with descH := 8 }
    (decide (d.hostOf 0 0 = some 0) && decide ((d.part 0).link 0 4 = some k) && k.over && !k.zero && decide ((d.part 0).exchOf 0 4 = some exch2) &&
     exch2.srcs.all (·.landed) && d.delivered 0 exch2 && !d.exchOut && d.readable 0 [(locOf exch2.planAt).h, fld exch2.plan 0x1C 4] && decide ((writeParts 0 0 (planWrites exch2 d 0) d).2 = none) && decide (exch2.mode = 0) &&
     decide (((devP { part0 with links := [g] }).part 0).link 0 4 = some g) &&
     (devP { part0 with links := [g] }).canMeet 0 g.reads (some { handle := 8, off := 64 }) &&
     decide (exch2.nent = 1) && decide (exch2.landed 0 = 3) && decide (fld exch2.ents 2 2 = 5)) = true := by decide +kernel

/-- A residual shard in handle 8. -/
def resD (t : LTile) : Device :=
  ((devP { part0 with handles := [(7, some (handle 0)), (8, some (handle 8))] }).setLt 0 0 t).hWrite 0 8 0 ([2#8] ++ List.replicate 7 0#8 ++ toLe 4 64 ++ List.replicate 36 0#8 ++ toLe 4 2 ++ toLe 4 8 ++ List.replicate 32 0#8 ++ [0xFF#8, 0xFF#8] ++ List.replicate 38 0#8)
theorem test_hyp_updates :
    let w := wd [(28, 1), (24, 1)]
    let d := (resD { LTile.reset with s := [(1, 1)], a := [(1, 8192)] }).spWrite 0 0 8192 ([0x10#8, 0#8, 0#8, 0#8] ++ toLe 4 8 ++ List.replicate 56 0#8)
    (dev0.issues opGauge 0 0 0 && d.issues opApply 0 0 w && !(locOf (((st d).tileAt 0 0).areg 1)).bad && !(d.part 0).contrib && decide ((d.part 0).early = []) &&
     okOf (takeDescs d 0 [d.spRead 0 0 8192 64] (d.part 0).descs)) = true := by decide +kernel

/-- Tiles that stand at their seam. -/
def atSeam : Device := [1, 2, 3].foldl (fun d l => d.setLt 0 l { LTile.reset with block := .seam 0 }) (devT { LTile.reset with block := .seam 0 })
/-- A gauge message of the device for step 0. -/
def gauge1 : GaugeMsg := { part := 0, flags := 0, cause := 0, step := 0, jobId := 9, srcDev := 0, norm2 := 0, limit := 0 }
theorem test_hyp_gauge : let P := atSeam.part 0
    (atSeam.canContribute 0 [] && !P.stopping && atSeam.reachAll 0 P.normReads && decide ((withParked atSeam 0).gradFault 0 = none) && decide (P.early = []) && decide (P.devCount = 1) &&
     decide (P.devId = 0) && P.job.isSome && decide (P.jobId = gauge1.jobId) && decide (gauge1.srcDev.toNat < P.devCount) && decide (gauge1.step.toNat = P.step) &&
     decide (P.result = none) && !P.contrib && decide (P.gauges = []) && !dev0.canContribute 0 [] &&
     decide (({ P with contrib := true, gauges := [gauge1] } : Part).gaugeOf 0 = some gauge1) && P.isRunning && decide (P.jobId ≠ 8)) = true := by decide +kernel
/-- Tiles at their seam, and the gradient at the start of handle 8 poisoned. -/
def badGrad : Device :=
  (atSeam.modPart 0 (fun P => { P with
    descs := [{ udescOf (toLe 8 0 ++ List.replicate 56 0#8) with shard := 8, gH := 8, landed := true }], poison := [(8 * 2 ^ 27, true)] })).hWrite 0 8 8 (toLe 4 8192)
theorem test_hyp_gaugeFaults : (badGrad.canContribute 0 [] && !(badGrad.part 0).stopping && badGrad.reachAll 0 (badGrad.part 0).normReads &&
    decide ((withParked badGrad 0).gradFault 0 = some .poisonRead)) = true := by decide +kernel
theorem test_hyp_gaugeOutcome :
    decide ((gaugeOutcome 0 [gauge1]).outcome = .commit ∧ (gaugeOutcome 0 [{ gauge1 with cause := 4 }]).outcome = .skipFault ∧
     (gaugeOutcome 0 [{ gauge1 with flags := 1 }]).outcome = .skipData ∧ bit gauge1.flags.toNat 0 = false ∧
     vNonfin (rn64 (vadd vzero (decodeFmt 9 gauge1.norm2.toNat))) = false ∧
     vlt (decodeFmt 9 gauge1.limit.toNat) (rn64 (vadd vzero (decodeFmt 9 gauge1.norm2.toNat))) = false) = true := by decide +kernel

/-- An update of the residual shard: its descriptor names two blocks. -/
def upd1 : ShardUpd := { desc := { udescOf (toLe 8 0 ++ List.replicate 56 0#8) with shard := 8, gH := 7 }, step := 0, norm := 0, block := 0, eng := 0, seed := 0, compat := false }
theorem test_hyp_ledgerBlock :
    let last := { upd1 with block := 1 }
    let f (u : ShardUpd) := ((devP { part0 with updates := [u] }).hWrite 0 8 8 (toLe 4 8192)).modStack 0 (fun x =>
      { x with staged := [{ part := 0, shard := 8, step := 0, block := u.block, writes := [], nonfin := 0, overflow := false }] })
    let d := f upd1
    let e := f last
    (decide ((d.part 0).updates = [upd1]) && decide (upd1.desc.shard = 8) && !d.leased 0 upd1 && !d.engineBusy 0 upd1 && d.reachAll 0 [8, upd1.desc.gH] &&
     (d.stagedOf 0 upd1).isSome && decide (upd1.eng < 32) && decide (upd1.block + 1 < blockCount upd1.desc (hdrElems (d.shardHdr 0 8))) &&
     decide ((e.part 0).updates = [last]) && decide ((e.part 0).resFlips = []) && !e.leased 0 last && !e.engineBusy 0 last && e.reachAll 0 [8, last.desc.gH] && (e.stagedOf 0 last).isSome &&
     decide (last.block + 1 = blockCount last.desc (hdrElems (e.shardHdr 0 8)))) = true := by decide +kernel

/-- The result of step 0. -/
def res1 : GaugeRes := gaugeOutcome 0 [gauge1]
theorem test_hyp_seam : let d := atSeam.modPart 0 (fun P => { P with result := some res1 })
    let e := atSeam.modPart 0 (fun P => { P with seam := .work })
    (decide ((d.part 0).running = some item) && decide ((d.part 0).result = some res1) && d.seamDue 0 && decide (res1.outcome = .commit) &&
     !(d.part 0).stopping &&
     (let g := unleash ((countVisits d (d.part 0).visitedNow).modPart 0 (fun P =>
        { P with steps := P.steps + 1, written := [], seam := .held, coldGrads := (P.descs.filter (fun x => !x.isRes)).map (fun x => (x.inst, x.gH)) })) 0
      decide ((g.part 0).running = some item) && decide (item.cause = .none) && decide ((d.part 0).step < item.finalStep) && decide (g.rd fCfgState = 0)) &&
     decide ((e.part 0).seam = .work) && !(e.part 0).swDue && decide (e.movesLeft 0 = []) && decide ((e.part 0).swatch.state ≠ .copying) && (e.part 0).isRunning &&
     decide ((e.part 0).early = []) && decide (0 < (e.part 0).ltCount) && decide ((e.lt 0 0).block = .seam 0)) = true := by decide +kernel

/-- Partition 0 with a pool: order, slots. -/
def pool1 (order : Nat) : Device :=
  let d := [0, 1, 2, 3].foldl (fun d l => d.setLt 0 l { LTile.reset with ctr := [(0, 1)] }) (devP { part0 with order := order, pool := [0, 1] })
  d
theorem test_hyp_slotGrants : let d := pool1 1
    let e := pool1 2
    (decide (d.chooseSlot 0 = some 0) && decide (((pool1 1).part 0).order = 1) && decide (e.chooseSlot 0 = some 0) && decide (0 < (e.part 0).slots) &&
     (d.part 0).isRunning && !(d.part 0).stopping && decide ((d.part 0).seam = .none) && d.allAsk 0 && decide ((d.part 0).pool ≠ [])) = true := by decide +kernel

/-- A swatch of handle 7 into handle 8. -/
def swatch1 (st : SwState) : Swatch := { Swatch.reset with id := 5, kind := 1, state := st, bytes := 65536 + 320, bufH := 8, handles := [7], destFlow := 20 }
/-- An open HOST flow of partition 0. -/
def flow1 : Flow := { Flow.reset with st := .opened, kind := 1, part := 0, incarn := 3, peerFlow := 2, peerDev := 1 }
theorem test_hyp_swatch : let d := devP { part0 with swatch := swatch1 .copying }
    let e : Device := { (devP { part0 with swatch := swatch1 .streaming }) with flows := [(20, flow1)] }
    let w := swatch1 .awaitAck
    let a : SwatchAck := { part := 0, swatchId := 5, imageBytes := BitVec.ofNat 64 w.bytes, digest := w.digest, result := 0 }
    (decide (d.asCommitted 0 (d.part 0).swatch = swatch1 .copying) && decide (d.movesLeft 0 = []) && decide ((d.part 0).updates = []) && decide ((d.part 0).resFlips = []) &&
     decide ((swatch1 .copying).board = 0) && d.enginesFree 0 ([8, 7].flatMap (d.part 0).stacksOf) && e.reachAll 0 [8] && d.reach 0 8 && d.reach 0 7 &&
     decide (copyFault d 0 (swatch1 .copying) = none) && decide ((e.flow 20).st = .opened) && decide ((e.flow 20).kind = 1) && decide ((e.flow 20).part = 0) && !(e.flow 20).dataWaits &&
     decide ((swatch1 .streaming).sent < (swatch1 .streaming).bytes) && decide (a.swatchId.toNat = w.id) && decide (a.imageBytes.toNat = w.bytes) &&
     decide (a.digest = w.digest)) = true := by decide +kernel

/-- A request on flow 20. -/
def req (typ : Nat) (job : Nat) (body : List Byte) : Req :=
  { part := 0, flow := 20, typ := BitVec.ofNat 8 typ, version := 1, bodyLen := BitVec.ofNat 16 body.length, jobId := BitVec.ofNat 32 job, reqSeq := 1, rsvd := 0, body := body }
/-- `Device.accepts` as a Bool. -/
def acceptsB (d : Device) (typ : Nat) (r : Req) : Bool :=
  decide (d.rd fMode = 2) && decide (d.rd (fPartState r.part) = 3) && !d.flowWaits r && !d.launchWaits typ r && decide (firstFail (headChecks typ r ++ stateChecks typ r d) = 0)
theorem acceptsB_accepts (d : Device) (typ : Nat) (r : Req) : acceptsB d typ r = true → d.accepts typ r := by
  simp only [acceptsB, Device.accepts, Bool.and_eq_true, decide_eq_true_eq, Bool.not_eq_true']
  tauto

theorem test_hyp_endpointSilent : decide ((st Device.reset).dev.rd fMode ≠ 2) = true := by decide +kernel
theorem test_hyp_refused : let r := req 7 9 (toLe 4 8)
    let d : Device := { dev0 with flows := [(20, { flow1 with kind := 0 })] }
    (decide (dev0.rd fMode = 2) && decide (dev0.rd (fPartState r.part) = 3) && !dev0.flowWaits r && !dev0.launchWaits 7 r && decide ((dev0.flow r.flow.toNat).st ≠ .opened) &&
     decide (firstFail (headChecks 7 r ++ stateChecks 7 r d) = 0xE) && !d.flowWaits r && !d.launchWaits 7 r && decide ((d.flow r.flow.toNat).st = .opened) &&
     decide (firstFail (headChecks 7 r ++ stateChecks 7 r dev0) = 0xE)) = true := by decide +kernel

/-- A LAUNCH's body: job 9, steps 1 and 2. -/
def launchBody : List Byte :=
  toLe 2 1 ++ toLe 2 0 ++ toLe 4 9 ++ toLe 8 0 ++ toLe 4 1 ++ toLe 2 2 ++ toLe 2 0 ++ toLe 2 0 ++ toLe 2 1 ++ toLe 1 4 ++ toLe 1 2 ++ toLe 2 4 ++ toLe 4 7 ++ toLe 4 0 ++
  List.replicate 88 0#8
/-- A partition without a job, its program executable, a peer table of one device. -/
def idleD : Device :=
  (devP { part0 with job := none, wis := [], handles := [(7, some (handle 2)), (8, some (handle 1)), (peerTable, some (handle 0))] }).hWrite 0 peerTable 0
    (toLe 2 1 ++ toLe 2 1)
theorem test_hyp_launch : (acceptsB idleD 1 (req 1 9 launchBody) && !(idleD.part 0).replays) = true := by decide +kernel

theorem test_hyp_abortQueryClose : let q : WorkItem := { item with id := 2, state := .queued }
    let d := devP { part0 with wis := [item, q] }
    (acceptsB d 2 (req 2 9 (toLe 4 1 ++ toLe 4 7)) && decide ((d.part 0).findWi 1 = some item) && acceptsB d 2 (req 2 9 (toLe 4 2 ++ toLe 4 7)) &&
     decide ((d.part 0).findWi 2 = some q) && (d.part 0).wis.all (fun v => decide (v.id ≤ 2)) && acceptsB d 7 (req 7 9 (toLe 4 2)) &&
     acceptsB (devP { part0 with wis := [] }) 8 (req 8 9 [])) = true := by decide +kernel

theorem test_hyp_allocFree : let r := req 3 9 (toLe 4 9 ++ [0#8, 0#8, 0#8, 0#8] ++ toLe 8 4096 ++ List.replicate 16 0#8)
    (acceptsB idleD 3 { r with jobId := 0 } && (idleD.placeHandle 0 0 0 4096).isSome && acceptsB idleD 4 (req 4 0 (toLe 4 8 ++ toLe 4 0)) &&
     !idleD.mustWait 4 0 8 && !(idleD.part 0).swatch.underWay) = true := by decide +kernel

theorem test_hyp_putGet : let put := req 5 0 (toLe 4 8 ++ [0xFF#8, 0#8, 0#8, 0#8] ++ toLe 8 128 ++ List.replicate 64 5#8)
    let get := req 6 0 (toLe 4 8 ++ toLe 4 64 ++ toLe 8 128)
    let e := idleD.modPart 0 (fun P => { P with poison := [(8 * 2 ^ 27, true)] })
    (acceptsB idleD 5 put && !idleD.mustWait 5 0 8 && !bit ((idleD.part 0).accessOf 8) 3 && acceptsB idleD 6 get && !idleD.mustWait 6 0 8 &&
     !(idleD.part 0).poisoned 8 128 64 && acceptsB e 6 get && !e.mustWait 6 0 8 && (e.part 0).poisoned 8 128 64 ) = true := by decide +kernel

theorem test_hyp_getBad : ((readUe 0 8 130 none idleD).part 0).poisoned 8 128 64 = true := by
  have h : ((poisonAt (({ idleD with free := idleD.free + 1 } : Device).inc (fChUe 0 0)) 0 0 770047).part 0).poisoned 8 128 64 = true := by decide +kernel
  have hb : ((idleD.part 0).entry 8).bind (fun e => e.place.frameAt (130 / 2048)) = some (0, 770047) := by decide +kernel
  have hc : idleD.ch 0 0 ≠ 3 := by decide +kernel
  simp only [readUe, hb, Nat.zero_div, Nat.zero_mod, if_neg hc]
  rw [Device.part, parts_errorCheck]
  exact h
theorem test_hyp_poison : decide (∀ e ∈ ((devP { part0 with poison := [(8 * 2 ^ 27, true)] }).part 0).poison, e.2 = true) = true := by decide +kernel

theorem test_hyp_getCorrected : ((readCe 0 8 130 idleD).part 0).poisoned 8 128 64 = false := by
  rw [Device.part, parts_readCe]
  decide +kernel

/-- A PUT of the running work item that has a post to make. -/
def put1 : PutPost := { flow := 20, reqSeq := 1, jobId := 9, wi := 1, lt := 0, ctr := 3 }
/-- A NOTICE. -/
def notice1 : Post := { host := true, tgt := 0, ctr := 3, inc := 0, value := 7, waits := [] }
theorem test_hyp_putPosts : let d := devP { part0 with putPosts := [put1] }
    let e := devT { LTile.reset with posts := [notice1] }
    (decide ((d.part 0).putPosts = [put1]) && decide ((d.part 0).runId = put1.wi) && decide (d.hostOf 0 put1.lt = some 0) && d.domOn 0 && !d.tileOut 0 &&
     decide ((e.lt 0 0).posts = [notice1]) && decide ((e.part 0).running = some item) && !item.mute && ({ item with mute := true } : WorkItem).mute) = true := by decide +kernel

theorem test_hyp_workItemStarts : let w := { item with state := .queued }
    let d := devP { part0 with wis := [w] }
    (decide ((d.part 0).wis = [w]) && decide ((d.part 0).seam = .none) && decide (d.rd fCfgState ≠ 1) && decide (d.rd fMode = 2) && d.canHost 0 &&
     (d.usableTiles 0).all d.domOn && d.reach 0 (d.part 0).prog && decide ((d.part 0).step = w.startStep)) = true := by decide +kernel

theorem test_hyp_tileStops : let d := devP { part0 with stopping := true, voidSent := true }
    let t := d.lt 0 0
    ((d.part 0).isRunning && decide (0 < (d.part 0).ltCount) && d.ltOn 0 0 && decide (t.block ≠ .stopped) && t.storesDone ((d.part 0).walking 0) &&
     decide ((d.part 0).seam = .none) && decide (t.begun = []) && decide (t.arr = []) && decide ((d.part 0).links = [])) = true := by decide +kernel

/-- `Device.takes` outside SERVICE as a Bool. -/
def takesB (d : Device) (k : Packet) : Bool :=
  let c := d.flow k.dstFlow.toNat
  d.portHears k.port.val && !(d.port k.port.val).wakeFirst && frameOk d k && decide (d.rd fMode = 0) && decide (c.st ≠ .free) &&
  (decide (c.st = .listen) || decide (k.incarn = c.incarn))
theorem takesB_takes (d : Device) (typ : Nat) (k : Packet) : takesB d k = true → d.takes typ k := by
  simp only [takesB, Device.takes, Bool.and_eq_true, decide_eq_true_eq, Bool.not_eq_true', Bool.or_eq_true]
  rintro ⟨⟨⟨⟨⟨h1, h2⟩, h3⟩, h4⟩, h5⟩, h6⟩
  exact ⟨h1, h2, h3, by omega, h5, h6, fun h => by omega⟩

/-- Key and nonce prefix that the slot of an envelope holds. -/
def keysFor (d : Device) (k : Packet) (e : Envelope) : List Byte × List Byte :=
  match d.slotFor (d.flow k.dstFlow.toNat) e with
  | some s => d.slotKeys s
  | none => ([], [])
/-- A packet as its sender seals it under an envelope, with its right tag. -/
def sealK (d : Device) (typ : Nat) (k : Packet) (e : Envelope) : Packet :=
  let ks := keysFor d k e
  { k with env := some { e with tag := envTag ks e (packetHeader typ k) k.payload }, payload := envCrypt ks e k.payload }
theorem header_sealed (d : Device) (typ : Nat) (k : Packet) (e : Envelope) : packetHeader typ (sealK d typ k e) = packetHeader typ k := by
  simp [packetHeader, sealK, envCrypt, Config.gcmCrypt]
theorem openPacket_sealed (d : Device) (typ : Nat) (k : Packet) (e : Envelope) : (openPacket (sealK d typ k e) (keysFor d k e)).payload = k.payload :=
  envCrypt_envCrypt _ _ _
theorem frameOk_sealed (d : Device) (typ : Nat) (k : Packet) (e : Envelope) : frameOk d (sealK d typ k e) = frameOk d { k with env := some e } := by
  have h : ipLength (sealK d typ k e) = ipLength { k with env := some e } := by simp [ipLength, sealK, envCrypt, Config.gcmCrypt]
  rw [frameOk, h]
  rfl
/-- In SERVICE, with a slot for its key, the flow finds the payload as it was before it was sealed. -/
theorem inside_sealed (d : Device) (typ : Nat) (k : Packet) (e : Envelope) (s : KeySlot) (h : d.rd fMode = 2)
    (hs : d.slotFor (d.flow k.dstFlow.toNat) e = some s) : (d.inside (sealK d typ k e)).payload = k.payload := by
  have hk : keysFor d k e = d.slotKeys s := by simp [keysFor, hs]
  have hb : (sealK d typ k e).env.bind (d.slotFor (d.flow (sealK d typ k e).dstFlow.toNat)) = some s := hs
  simp only [Device.inside, if_pos h, hb]
  rw [← hk]
  exact openPacket_sealed d typ k e
/-- `Device.takes` in SERVICE as a Bool, but for the tag. -/
def sealB (d : Device) (k : Packet) (e : Envelope) : Bool :=
  let c := d.flow k.dstFlow.toNat
  d.portHears k.port.val && !(d.port k.port.val).wakeFirst && frameOk d { k with env := some e } && decide (d.rd fMode = 2) && decide (c.st ≠ .free) &&
  (decide (c.st = .listen) || decide (k.incarn = c.incarn)) && decide ((d.part c.part).ts ≠ []) && envFields c e &&
  (match d.slotFor c e with
   | some s => s.ready
   | none => false)
theorem sealB_takes (d : Device) (typ : Nat) (k : Packet) (e : Envelope) : sealB d k e = true → d.takes typ (sealK d typ k e) := by
  simp only [sealB, Bool.and_eq_true, decide_eq_true_eq, Bool.not_eq_true', Bool.or_eq_true]
  rintro ⟨⟨⟨⟨⟨⟨⟨⟨h1, h2⟩, h3⟩, h4⟩, h5⟩, h6⟩, h7⟩, h8⟩, h9⟩
  refine ⟨h1, h2, (frameOk_sealed d typ k e).trans h3, ?_, h5, h6, fun _ => ?_⟩
  · show d.rd fMode ≠ 1
    omega
  · revert h9
    cases hs : d.slotFor (d.flow k.dstFlow.toNat) e with
    | none => simp
    | some s =>
      refine fun h9 => ⟨_, s, rfl, h7, h8, hs, h9, ?_⟩
      rw [header_sealed, inside_sealed d typ k e s h4 hs]
      show envTag (keysFor d k e) e _ _ = _
      rw [show keysFor d k e = d.slotKeys s by simp [keysFor, hs]]
      rfl

/-- An open LAUNCH flow of partition 0, one packet outstanding. -/
def flow2 : Flow :=
  { Flow.reset with
    st := .opened, part := 0, incarn := 3, rxCredit := 2, txNext := 1, remotes := 1, farPorts := 1, planes := 0xF0, floor := true,
    unacked := [{ ctrl := false, typ := 1, psn := 0, path := 0, first := [0], tried := [0], retx := false, msg := Msg.raw [7#8] }] }
/-- A key slot of that host's epoch 1. -/
def slot1 : KeySlot := { num := 0, part := 0, sender := 5, epoch := 1, ready := true }
/-- Port 0 UP and ON, flow 20 as given, in a mode. -/
def chD (mode : Nat) (f : Flow) : Device :=
  let d := regs [(fMode, mode), (fLink 0, 2), (fMacsec 0, 2), (fEnable 0, 1), (fAdvertised 0, 1), (fDom 79, 0)] dev0
  { d with flows := [(0, { Flow.reset with st := .listen, kind := 3 }), (20, f)],
           dies := [(0, { Die.reset with keys := [slot1] })] }
/-- A packet for a flow on port 0. -/
def pkt (dst : Nat) (flags psn ack : Nat) (payload : List Byte) : Packet :=
  { port := 0, fcsOk := true, ipv6 := true, extHdr := false, ownAddr := true, udpOk := true, ce := false, secTag := true, srcAddr := 0, ver := 1,
    flags := BitVec.ofNat 8 flags, dstFlow := BitVec.ofNat 16 dst, srcFlow := 2, path := 0, ports := 1, psn := BitVec.ofNat 32 psn, ackPsn := BitVec.ofNat 32 ack,
    sack := 0, credit := 0, srcDev := 0, incarn := 3, env := none, payload := payload }
/-- An envelope of a host. -/
def env1 : Envelope := { ver := 1, kind := 0, epoch := 1, rsvd := 0, sender := 5, counter := 7, rsvd2 := 0, tag := 0 }
theorem test_hyp_packets : let f := flow2
    let g := { flow2 with st := .opening }
    let e := { flow2 with unacked := [] }
    [takesB (chD 0 f) (pkt 20 0 0 0 []), decide (((chD 0 f).flow 20).st = .opened), sealB (chD 2 e) (pkt 20 0 0 0 [7#8]) env1, decide ((chD 2 e).rd fMode = 2),
     decide (((chD 2 e).flow 20).unacked = []), decide (e.held = []), decide (e.closeAt = none), !f.probing, f.unacked.all (fun u => !covers false 0 0 u), decide ((0 : BitVec 32) = e.expect false), below 0 e.rxCredit, takesB (chD 0 f) (pkt 20 0 0 1 []),
     decide (f.unacked ≠ []), f.unacked.all (covers false 1 0), decide ((f.txNext - 1).toNat < 2 ^ 31), takesB (chD 0 g) (pkt 20 1 0 0 []),
     takesB (chD 0 e) (pkt 20 1 0 0 [])].all id = true := by decide +kernel

/-- The payload of a host's OPEN: LAUNCH, one address. -/
def openPay : List Byte := [0#8, 1#8, 1#8, 0#8] ++ List.replicate 140 0#8
theorem unsealed_of (d : Device) (typ : Nat) (k : Packet) (e : Envelope) (s : KeySlot) (hm : d.rd fMode = 2) (he : k.env = some e)
    (ht : (d.part (d.flow k.dstFlow.toNat).part).ts ≠ []) (hf : envFields (d.flow k.dstFlow.toNat) e = true)
    (hs : d.slotFor (d.flow k.dstFlow.toNat) e = some s) (hr : s.ready = true)
    (hg : e.tag = envTag (d.slotKeys s) e (packetHeader typ k) (openPacket k (d.slotKeys s)).payload) :
    d.unsealed typ k = d.modFlow k.dstFlow.toNat (fun c =>
      if e.epoch.toNat < ((c.epochs.find? (fun x => decide (x.1 = e.sender))).map (·.2)).getD 0 then c
      else { c with epochs := (e.sender, e.epoch.toNat) :: c.epochs.filter (fun x => decide (x.1 ≠ e.sender)), keyIdx := BitVec.ofNat 16 s.num }) := by
  simp [Device.unsealed, takePn, openEnvelope, he, hm, ht, hf, hs, hr, ← hg]

/-- The sealed OPEN. -/
def openK : Packet := sealK (chD 2 flow2) 4 (pkt 0 1 0 0 openPay) env1
/-- The packet as the listener finds it. -/
def openQ : Packet := { openK with payload := openPay }
theorem openK_inside : (chD 2 flow2).inside openK = openQ := by
  have h := inside_sealed (chD 2 flow2) 4 (pkt 0 1 0 0 openPay) env1 slot1 (by decide +kernel) (by decide +kernel)
  have hb : openK.env.bind ((chD 2 flow2).slotFor ((chD 2 flow2).flow openK.dstFlow.toNat)) = some slot1 :=
    show (chD 2 flow2).slotFor ((chD 2 flow2).flow 0) env1 = some slot1 by decide +kernel
  have hi : (chD 2 flow2).inside openK = { openK with payload := ((chD 2 flow2).inside openK).payload } := by
    simp only [Device.inside, if_pos (show (chD 2 flow2).rd fMode = 2 by decide +kernel), hb]
    rfl
  rw [hi, openQ]
  exact congrArg (fun b => { openK with payload := b }) h
/-- What opening its envelope does to the listener. -/
def openedD : Device := (chD 2 flow2).modFlow 0 (fun c => { c with epochs := [(5, 1)], keyIdx := 0 })
theorem openK_unsealed : (chD 2 flow2).unsealed 4 openK = openedD := by
  have hk : keysFor (chD 2 flow2) (pkt 0 1 0 0 openPay) env1 = (chD 2 flow2).slotKeys slot1 := by
    simp [keysFor, show (chD 2 flow2).slotFor ((chD 2 flow2).flow (pkt 0 1 0 0 openPay).dstFlow.toNat) env1 = some slot1 by decide +kernel]
  rw [unsealed_of _ _ _ _ slot1 (by decide +kernel) rfl (by decide +kernel)
    (by decide +kernel) (show (chD 2 flow2).slotFor ((chD 2 flow2).flow 0) env1 = some slot1 by decide +kernel) rfl (by
      rw [openK, header_sealed, ← hk]
      exact congrArg (envTag _ env1 _) (openPacket_sealed (chD 2 flow2) 4 (pkt 0 1 0 0 openPay) env1).symm)]
  have hc : (chD 2 flow2).flow 0 = { Flow.reset with st := .listen, kind := 3 } := by decide +kernel
  show (chD 2 flow2).modFlow 0 _ = (chD 2 flow2).modFlow 0 _
  simp only [Device.modFlow, hc]
  rfl
theorem test_hyp_open : (chD 2 flow2).takes 4 openK ∧ [decide (((chD 2 flow2).flow 0).st = .listen), decide ((chD 2 flow2).rd fMode = 2),
    !openRefused openedD 0 openQ, decide (fld openQ.payload 0 1 ≤ 1), openedD.flows.all (fun x => decide (x.2.peerFlow ≠ 2) || decide (x.2.incarn ≠ 3) || decide (x.1 = 20)),
    decide (openedD.hostFlows 0 < 256), decide (openedD.freeCtx 0 = some 8)].all id = true :=
  ⟨sealB_takes _ _ _ _ (by decide +kernel), by decide +kernel⟩

theorem test_hyp_ports :
    let d := { (chD 0 flow2) with strapBoard := true, ports := [(1, { Port.reset with draining := true }), (3, Port.reset)] }
    let e := regs [(fLink 3, 2), (fDom 67, 0), (fMacsec 3, 2), (fMacsec 0, 2), (fCakSet, 1), (fDom 65, 1), (fEnable 1, 1), (fDom 79, 0)] d
    let k := { pkt 0 0 0 0 [] with port := 3 }
    [e.portHears 3, !(e.port 3).wakeFirst, frameOk e k, e.isDirect 3, decide (e.rd (fDom 65) = 1), e.domOn 79, !e.thermTrip, e.domOn 64, !(e.port 0).wakeFirst,
     frameOk e (pkt 0 0 0 0 []), e.portHears 0, decide (e.rd (fPortIpHi 0) = 0), decide (e.rd (fPortIpLo 0) = 0), decide (e.rd (fLink 1) ≠ 2), decide (e.rd (fEnable 1) ≠ 0),
     !(e.port 1).failed, !e.outOfService [9] 1, decide (e.rd (fDom 65) ≠ 2), e.mgtUp, decide (e.rd (fLink 0) = 2), (e.port 1).draining, e.flows.all (fun x => x.2.unacked.all (fun u => decide (pathPort u.path ≠ 1) && u.tried.all (fun k => decide (pathPort k ≠ 1)))), !e.onlyPath 1, e.domOn 72,
     decide ((e.wr fMode 2).rd fMode = 2),
     decide (e.checks = []), decide (e.rd fMode = 0), decide (e.rd (fMacsec 0) ≠ 0), decide (e.rd fCakSet = 1)].all id = true := by decide +kernel

theorem test_hyp_flowTimers : let f := { flow2 with ackDue := 1 }
    let g := { flow2 with unacked := [], waiting := [(false, .raw [1#8])] }
    let p := { flow2 with kind := 2, part := 1 }
    [decide (((chD 0 f).flow 20).st = .opened), decide (0 < f.ackDue), decide (f.ctlAckDue = 0), (chD 0 f).canSeal f, decide ((chD 0 f).paths f ≠ []), decide (f.unacked ≠ []),
     decide (g.unacked = []), g.starved, decide (p.unacked ≠ []), decide (({ f with st := .closing } : Flow).st = .closing), decide (f.closeDue = false), decide (p.kind = 2), !((chD 0 p).part p.part).isRunning].all id = true := by decide +kernel

/-- A margin below the threshold. -/
def margin1 : Margin := { stack := 0, ch := 3, margin := 20, below := true, failing := false }
theorem test_hyp_stackMaintenance :
    let d := regs [(fTrain 0, 2), (fPatrolEn 0, 1)] dev0
    let e := d.wr (fCh 0 3) 1
    let r := d.modStack 0 (fun x => { x with repair := some (3, 77) })
    let n := regs [(fDom 40, 0), (fDom 72, 0)] d
    [d.mayRetrain margin1, decide (e.ch 0 3 = 1), decide (tget 0 (e.stack 0).retrainFails 3 = 0), decide ((r.stack 0).repair = some (3, 77)), decide (d.rd (fPatrolEn 0) = 1),
     d.domOn 32, !d.patrolWaits 0, r.listRoom, !r.engineChecked 0, decide (d.ch 0 ((d.stack 0).patrolAt % 32) ≠ 1), decide (d.ch 0 ((d.stack 0).patrolAt % 32) ≠ 3), decide (d.checks = []), d.domOn 72, (d.stackPart 0).isSome, decide (n.stackPart 8 = none), n.domOn 40, !(n.stack 8).scrubbing,
     ((n.modStack 8 (fun x => { x with scrubbing := true })).stack 8).scrubbing, !(n.modStack 8 (fun x => { x with scrubbing := true })).scrubWaits 8].all id = true := by decide +kernel

theorem full_list (d : Device) (h : d.repairs.length = 16384) : d.listRoom = false := by simp [Device.listRoom, h]
theorem test_hyp_fullList : ({ dev0 with repairs := List.replicate 16384 ⟨5, 0, false⟩ } : Device).listRoom = false := full_list _ List.length_replicate

/-- A check of array 2 of tile 0, waiting or running. -/
def check1 (running : Bool) : Check := { req := { mkRec 0 1 1 (2 * 256) with seq := 9 }, running := running, hit := false }
theorem test_hyp_checks :
    let d := { dev0 with checks := [check1 false] }
    let e := { dev0 with checks := [check1 true], staged := [mkRec 0 1 1 0] }
    let c := check1 false
    [decide ((d.checks.filter (fun c => c.running)).length < 16), decide (d.checks.filter (fun c => !c.running) = [c]), !c.req.gone d, !c.req.heldOff d, !c.req.waits d,
     d.checks.all (fun x => !x.running), decide (c.req.needs = some 0), d.domOn 0, decide (e.checks.find? (fun c => c.running && decide (c.req.seq = 9)) = some (check1 true)),
     !verdictWaits e c.req true, !verdictWaits e c.req false, decide (e.staged = [mkRec 0 1 1 0]), !e.thermTrip, dev0.domOn 74].all id = true := by decide +kernel

theorem test_hyp_powerEntries :
    let b := devT { LTile.reset with block := .wait 0 9 }
    let d := regs [(fTileIdle, 1), (fStackIdle, 1), (fPortIdle, 1), (fDom 65, 0), (fDom 66, 0), (fLink 1, 2), (fLink 2, 2), (fAllowRet 1, 1), (fAllowRet 2, 1)] (b.modTile 0 (fun x => { x with level := 0 }))
    let i := regs [(fStackIdle, 1)] (devP { part0 with wis := [] })
    let at_ (n : Nat) (fs : List (Fld × Nat)) : Device := regs fs ((regs [(fDom n, 3), (fTarget n, 1)] d))
    let s3 := at_ 65 [(fDomStep 65, 3)]
    let s5 := at_ 65 [(fDomStep 65, 5)]
    let x6 := at_ 65 [(fDomStep 65, 6), (fDomReady 65, 3)]
    let x7 := at_ 65 [(fDomStep 65, 6), (fDomReady 65, 7)]
    let y3 := at_ 0 [(fDomStep 0, 6), (fDomReady 0, 3)]
    let w := d.modDom 65 (fun x => { x with want := some (1, .portIdle), wake := some 9 })
    [asks d 0 .tileIdle, decide (d.rd (fDom 0) = 0), decide (refuser d 0 1 .tileIdle = none), asks i 32 .stackIdle, decide (i.rd (fDom 32) = 0),
     decide (refuser i 32 1 .stackIdle = none), asks d 66 .portIdle, decide (refuser d 66 1 .portIdle = none), decide (s3.rd (fDomStep 65) = 3),
     decide ((s3.dom 65).refuse = none), decide ((s3.dom 65).wake = none), decide ((s5.dom 65).wake = none), !(s5.dom 65).thenOff, decide ((s5.dom 65).want = none),
     decide (s5.rd (fDomStep 65) = 5), decide ((w.dom 65).want = some (1, .portIdle)), decide ((w.dom 65).wake = some 9), decide (w.rd (fDom 65) ≠ 3),
     decide (((s3.modDom 65 (fun x => { x with refuse := some 1 })).dom 65).refuse = some 1), !(d.dom 65).want.any (fun w => insists w.2), !x6.fabricExits,
     decide (x6.rd (fDomStep 65) = 6), decide (x6.rd (fDomReady 65) < 7), decide (x7.rd (fDomReady 65) = 7), decide ((x7.dom 65).posts = []), decide (y3.rd (fDomStep 0) = 6), decide (y3.rd (fDomReady 0) = 3), !y3.fabricExits, decide (y3.checks = [])].all id = true := by decide +kernel
theorem test_hyp_entryRefused : let d := regs [(fPortIdle, 1), (fAllowRet 0, 1), (fLink 0, 2)] dev0
    (asks d 64 .portIdle && decide (d.rd (fDom 64) = 0) && (refuser d 64 1 .portIdle).isSome) = true := by decide +kernel

theorem test_hyp_wakes :
    let d := regs [(fDom 65, 3), (fDomStep 65, 6), (fDomReady 65, 7), (fPortIdle, 1), (fAllowRet 1, 1), (fLink 1, 2)] dev0
    let w := d.modDom 65 (fun x => { x with want := some (1, .portIdle) })
    let r := regs [(fDom 65, 1), (fDom 79, 0)] dev0
    [decide (d.rd (fDom 65) = 3), decide (d.rd (fDomStep 65) = 6), decide (dev0.rd (fDom 0) = 0), asks d 65 .portIdle, decide (w.rd (fDomReady 65) = 7),
     decide ((w.dom 65).want = some (1, .portIdle)), decide (r.rd (fDom 65) = 1), sourceFits r 65 9, r.domOn 79, !r.thermTrip].all id = true := by decide +kernel

/-- Wakes of a tile and a stack out of RET and OFF, with the fabric, of the fabric alone, and of a port out of OFF. -/
theorem test_hyp_wakeStarts :
    let d (s : Nat) := regs ((fDom 79, 0) :: [0, 32, 65, 74, 75, 76, 77].map (fun n => (fDom n, s))) dev0
    [1, 2].all (fun s => decide ((d s).rd (fDom 0) = s) && decide ((d s).rd (fDom 32) = s) && decide ((d s).rd (fDom 65) = s) && decide ((d s).rd (fDom 74) = s) &&
      sourceFits (d s) 0 1 && sourceFits (d s) 32 4 && sourceFits (d s) 74 11 && sourceFits (d s) 65 10 && (d s).domOn 79 && !(d s).thermTrip) = true := by
  decide +kernel

theorem test_hyp_capAndSensors : let d := regs [(fDom 79, 0), (fCapW, 3000)] dev0
    let any (ts : List (BitVec 8)) (f : Nat × Nat × Nat → Nat) : Bool := (readings ts).any (fun x => decide (f (d.thresholds x.1) + 40 ≤ x.2))
    [d.domOn 79, !d.warm, decide (d.rd fCapW < (3001#16).toNat), decide (100 * (2000#16).toNat < 97 * d.rd fCapW), decide (97 * d.rd fCapW ≤ 100 * (2950#16).toNat), !any [60#8] (fun t => t.2.2),
     any [250#8] (fun t => t.2.2)].all id = true := by decide +kernel

/-- A meter that runs and has 2 pulses to give. -/
def meter1 : Meter := { Meter.reset with energy := 800000, running := true }
theorem test_hyp_meter : [!Meter.reset.running, meter1.running, dev0.domOn 72, decide (meter1.fault ≠ 2), decide (meter1.energy + 360000 < 2 ^ 64), decide (meter1.audit < 0xFFFFFFFF), decide ({ meter1 with audit := 0xFFFFFFFF }.audit = 0xFFFFFFFF)].all id = true := by decide +kernel
theorem test_hyp_meterSound : Meter.reset.sound ∧ meter1.sound ∧ ∃ t, step { State.reset with pending := [.metPulseStart], meter := meter1 } = .next t :=
  ⟨by unfold Meter.sound; decide +kernel, by unfold Meter.sound; decide +kernel, _, rfl⟩

theorem test_hyp_security :
    let k := devP { part0 with count0 := 2 ^ 40 }
    let s := { dev0 with dies := [(0, { Die.reset with keys := [{ num := 0, part := 0, sender := 5, epoch := 1, ready := false }] })] }
    let c := regs ((fPartState 0, 1) :: [0, 1, 2, 3].map (fun t => (fDom t, 2))) dev0
    let e := regs [(fPartState 0, 4), (fValid 0, 0)] dev0
    let p (n i : Nat) := regs ([(fMode, 1), (fPassStep, n), (fInward, i)] ++ (List.range 32).map (fun t => (fDom t, 2))) dev0
    [decide (k.rd (fPartState 0) = 3), decide (2 ^ 40 ≤ (k.part 0).count0), decide (k.rd (fKeyEpoch 0) < 0xFFFE), k.flows.isEmpty, decide (0xFFFE ≤ (k.wr (fKeyEpoch 0) 0xFFFE).rd (fKeyEpoch 0)),
     (s.die 0).keys.all (fun x => !x.ready), c.cleansed 0, e.erased 0, decide (e.rd (fValid 0) = 0), decide ((p 1 0).rd fPassStep = 1), !(p 1 0).passageForce, (p 3 0).tilesOff,
     decide ((p 3 0).rd fMode = 1), (p 4 0).stacksClean, decide ((p 6 1).rd fPassStep = 6), decide ((p 6 1).rd fInward = 1), decide ((p 6 1).passageVia = none), !(p 6 1).thenOut].all id = true := by
  decide +kernel

/-- An open session of a role. -/
def sess1 (role : Nat) : Sess := { id := 5, role := role, part := 0, opened := true, hello := [], dnonce := [], kcd := [], kdc := [], seq := 0, last := none }
/-- The first request of the session. -/
def wen (body : List Byte) : WenMsg := { ver := 1, code := 0, session := 5, seq := 1, rsvd := 0, body := body, tag := 0, dst := 1 }
/-- A device with a session of a role, in a mode. -/
def wenD (role mode : Nat) : Device := { dev0.wr fMode mode with sess := [sess1 role] }
/-- A message encrypted under its session's key, with its right tag. -/
def sealW (typ : Nat) (x : Sess) (m : WenMsg) : WenMsg :=
  { m with body := Config.gcmCrypt x.kcd (wenNonce x.id.toNat m.seq.toNat) m.body,
           tag := Config.gcmTag x.kcd (wenNonce x.id.toNat m.seq.toNat) (headerOf typ m) m.body }
/-- It is decrypted to the message it was. -/
theorem plain_sealW (typ : Nat) (x : Sess) (m : WenMsg) : (x.plain (sealW typ x m)).body = m.body := gcmCrypt_gcmCrypt _ _ _
theorem length_sealW (typ : Nat) (x : Sess) (m : WenMsg) : (sealW typ x m).body.length = m.body.length := length_xorStream _ _ _
/-- `Device.asked` as a Bool, but for the tag. -/
def askedB (d : Device) (typ : Nat) (roles : List Nat) (adm : Bool) (m : WenMsg) (x : Sess) : Bool :=
  decide (d.session m.session = some x) && d.mgtTakes m && decide (m.ver = 1) && x.opened && decide (m.body.length ≤ 4096) && decide (m.seq.toNat = x.seq + 1) &&
  (x.last.isSome || decide (x.seq = 0)) && decide (gateCode d m x typ roles adm = 0)
theorem askedB_asked (d : Device) (typ : Nat) (roles : List Nat) (adm : Bool) (m : WenMsg) (x : Sess) :
    askedB d typ roles adm m x = true → d.asked typ roles adm (sealW typ x m) x := by
  simp only [askedB, Bool.and_eq_true, decide_eq_true_eq, Bool.or_eq_true]
  rintro ⟨⟨⟨⟨⟨⟨⟨h1, h2⟩, h3⟩, h4⟩, h5⟩, h6⟩, h7⟩, h8⟩
  refine ⟨h1, h2, h3, h4, by rw [length_sealW]; exact h5, ?_, h6, h7, h8⟩
  rw [plain_sealW]
  simp only [headerOf, length_sealW]
  rfl

/-- A HELLO's body, and a half-open session of the OPERATOR. -/
def helloBody : List Byte := [0#8, 0xFF#8, 0#8, 0#8] ++ List.replicate 32 1#8
def half : Sess := { sess1 0 with opened := false, hello := helloBody }
theorem test_hyp_sessions :
    let d := { dev0 with sess := [half] }
    let h := { wen helloBody with session := 0 }
    [d.mgtTakes h, d.mgtTakes (wen []), decide ((wen []).rsvd = 0), decide ((wen []).code = 0), decide (h.ver = 1), decide (h.session = 0), decide (helloCode d h = 0), decide (d.session 5 = some half), !half.opened,
     askedB (wenD 0 2) 0x41 [0, 1, 2] false (wen []) (sess1 0)].all id = true := by decide +kernel
theorem test_hyp_response : let d := { dev0 with sess := [half], roleKeys := [(0, [1#8])] }
    d.roleKey (roleSlot half.role half.part) = some [1#8] ∧ ({ wen [] with body := kdf [1#8] half.transcript 256 "Weneus client" } : WenMsg).body =
      kdf [1#8] half.transcript 256 "Weneus client" := ⟨by decide +kernel, rfl⟩

theorem test_hyp_reads :
    let b := [0#8, 0#8, 0#8, 0#8, 1#8, 0#8]
    let w := toLe 4 0x20010 ++ toLe 4 0 ++ toLe 8 5
    let a := [0#8, 0xFF#8, 0#8, 0#8] ++ List.replicate 32 1#8
    let d (role : Nat) (m : WenMsg) := (wenD role 2).begun m (sess1 role)
    [askedB (wenD 0 2) 0x10 [0, 1] false (wen b) (sess1 0), decide (readCode (d 0 (wen b)) (sess1 0) 0 1 = 0), askedB (wenD 0 2) 0x11 [0] false (wen w) (sess1 0), zeros w 4 4,
     inBlock 0x20010, decide (rwsMask 0x20010 ≠ 0), decide ((d 0 (wen w)).rd fCfgState ≠ 1), askedB (wenD 0 2) 0x13 [0] false (wen []) (sess1 0),
     askedB (wenD 0 2) 0x14 [0] false (wen (toLe 8 0 ++ [3#8])) (sess1 0), askedB (wenD 0 0) 0x15 [0] true (wen []) (sess1 0),
     askedB (wenD 2 2) 0x40 [2] false (wen []) (sess1 2), askedB (wenD 2 2) 0x27 [0, 1, 2] false (wen []) (sess1 2),
     askedB (wenD 0 2) 0x22 [0, 1] false (wen a) (sess1 0), decide (attestCode (d 0 (wen a)) (sess1 0) a = 0)].all id = true := by decide +kernel

theorem test_hyp_firmware :
    let k := [0#8, 0xFF#8, 0#8, 0#8] ++ List.replicate 32 1#8
    let c := [4#8, 0#8, 0#8, 0#8] ++ List.replicate 64 1#8
    let f := [1#8, 0#8, 1#8, 0#8, 0#8, 0#8, 0#8, 0#8] ++ toLe 8 4096 ++ List.replicate 16 0#8
    let d := (wenD 0 0).wr (fFwStatus 1) 1
    let l := { d with load := some { target := 1, chind := false, addr := 0, length := 4096, data := [] } }
    [askedB (wenD 0 2) 0x24 [0, 1] false (wen k) (sess1 0), decide (k.length = 36), zeros k 2 2, askedB (wenD 0 0) 0x25 [0] true (wen c) (sess1 0), decide (c.length = 68), zeros c 1 3,
     askedB d 0x26 [0] true (wen [1#8, 0#8]) (sess1 0), decide (d.rd (fFwStatus 1) = 1), askedB d 0x30 [0] true (wen f) (sess1 0), decide (f.length = 32), zeros f 3 5, !d.recovery,
     askedB l 0x31 [0] true (wen (toLe 8 16 ++ [7#8])) (sess1 0), l.load.isSome, askedB l 0x32 [0] true (wen []) (sess1 0)].all id = true := by decide +kernel

/-- A signature table with one entry: logic test of tile 1. -/
def sigTable1 : List Byte := [1#8, 0#8, 1#8, 0#8] ++ List.replicate 1404 0#8 ++ [0#8, 1#8, 1#8, 0#8] ++ List.replicate 28 0#8
theorem test_hyp_control :
    let d := wenD 0 0
    let s := regs [(fDom 72, 0), (fMode, 0)] { Device.reset with parts := [] }
    let e := regs ((fPartState 0, 0) :: (fReady, 1) :: (List.range 7).map (fun c => (fFwStatus c, 1))) (devP Part.reset)
    let e := { e.wr fMode 0 with sess := [sess1 0] }
    let t := { d with sigTable := sigTable1 }
    [s.domOn 72, decide (s.rd fCfgState = 0), decide (s.setReason = 0), (List.range 8).all (fun p => !(s.part p).isRunning), askedB d 0x12 [0] false (wen [1#8]) (sess1 0),
     askedB e 0x20 [0] false (wen []) (sess1 0), decide (e.rd fReady = 1), e.mayServe, askedB (wenD 0 2) 0x21 [0] false (wen [1#8]) (sess1 0),
     decide ((wenD 0 2).rd fMode = 2), askedB t 0x34 [0] false (wen [0#8, 1#8, 1#8]) (sess1 0), decide (bistTargets 0 1 ≠ []), decide (t.rd fTestStatus ≠ 1),
     t.tableCovers (bistTargets 0 1) 1, bit 0x00010101 0, decide (bits 0x00010101 31 24 = 0), decide (bits 0x00010101 23 16 = 1), decide (bits 0x00010101 9 8 = 1),
     askedB d 0x35 [0] false (wen [0#8]) (sess1 0), askedB d 0x35 [0] false (wen [1#8]) (sess1 0),
     (bistTargets 2 1).all (fun x => decide (x.1 = 2))].all id = true := by decide +kernel

theorem test_hyp_shadow : let m := wen (toLe 4 0x20010 ++ toLe 4 0 ++ toLe 8 5)
    [dev0.domOn 72, decide (rwsMask 0x20010 ≠ 0), decide (dev0.rd fCfgState ≠ 1), decide ((dev0.wr fCfgState 1).rd fCfgState = 1),
     askedB ((wenD 0 2).wr fCfgState 1) 0x11 [0] false m (sess1 0), zeros m.body 4 4, decide (fld m.body 0 4 = 0x20010)].all id = true := by decide +kernel

/-- An RO register, an address with no register, an RW one below the tiles and one in a stack's block, SEC_MACSEC_CFG in and out of ADMITTED, and
RAS_STAT. -/
theorem test_hyp_accessTypes :
    ([0x0, 0x50, 0x30000].all (fun n => inBlock n && decide (rwMask n = 0) && decide (rwsMask n = 0) && decide (w1cMask n = 0) && decide (scrubAddr n = none)) &&
     [0x20, 0x300008, 0x40480].all (fun n => inBlock n && decide (rwMask n ≠ 0) && decide (rwsMask n = 0) && decide (n % 8 = 0)) &&
     decide (rwMask 0x80000 ≠ 0) && decide (rwsMask 0x80000 ≠ 0) && decide ((dev0.wr fMode 0).rd fMode = 0) && decide (dev0.rd fMode ≠ 0) &&
     decide (w1cMask 0x600000 ≠ 0) && bit (2#64).toNat 1 && !bit (1#64).toNat 1) = true := by decide +kernel
/-- Every named field of a few registers of each block is shown by a read, and the fields written only are not (R5, R6). -/
theorem test_fieldBits :
    let shown (f : Fld) : Bool := decide (fieldBits f.addr &&& maskOf f.hi f.lo = maskOf f.hi f.lo)
    ([fSerial, fPhase, fReady, fSwaps, fCfgState, fPinW, fCapped, ⟨0x20018, 63, 29⟩, fLastWake 79, fDom 0, fRefused 63 .prog, fMetSeq, fPassStep, fFwStatus 6,
      fAttests, fMacsec 7, fCakSet, fValid 7, fPartState 7, fGrants 7, fSwState 7, fSpreadN 7, fFreeMib 7, fUdpPort, fPortMac 7, fRate 7, fLink 7, fDrops 7, fUnreach, fLtB 31, fSwitches 31,
      fSpareOut 31, fTension 31, fExchanges 31, fChFailed 31, fTrain 31, fPatrolEn 31, fScrub 31, fStaged 31, fRowsUsed 31, fCh 31 31, fMargin 31 31, fNonfin, fPending 7, fLimit 7,
      fGaugeOut 7, fGaugeNorm 7, fLeaseOpen 7, fTierDormant 7, fVisited 1023, fDropRun, fHold, fNotRun, fNextSeq, fLogSel, fTestStatus].all shown &&
     decide (fieldBits 0x10008 = 0) && decide (fieldBits 0x700000 = 0) && decide (fieldBits 0x300010 &&& 1 = 0)) = true := by decide +kernel

/-- Start-up at a phase. -/
def bootD (k : Nat) : Device := ({ Device.reset with powered := true } : Device).wr fPhase k
theorem test_hyp_startAndPins :
    let p := { Device.reset with powered := true }
    [(bootD 1).stepDue 1, (bootD 2).stepDue 2, (bootD 3).stepDue 3, (bootD 5).stepDue 5, ({ bootD 8 with step7 := true } : Device).stepDue 8, !Device.reset.powered,
     Device.reset.resetN, !Device.reset.lockout, p.powered, decide (dev0.rd fMode = 2), decide ((wenD 0 0).rd fMode = 0),
     ({ (bootD 9).wr (fDom 72) 0 with testEn := true } : Device).jtagOpen, !(bootD 9).jtagOpen].all id = true := by decide +kernel
theorem test_hyp_tap : let s : State := { State.reset with tap := { Tap.reset with driving := true, ir := 0 } }
    (s.tap.driving = true → s.tap.ir = 0x00#8) ∧ ∃ t, step s = .next t ∧ t.tap.driving = true := ⟨fun _ => rfl, _, rfl, rfl⟩
theorem test_hyp_addresses : [decide (bits (0x0000000800000010#64).toNat 63 32 ≠ 0), decide (bits (0x0000000002000000#64).toNat 63 32 = 0),
    decide (bits (0x0000000002000000#64).toNat 31 25 ≠ 0)].all id = true := by decide +kernel

/-- A key-install payload but for its tag: partition 0. -/
@[irreducible] def keyPre : List Byte := [1#8, 0#8, 0#8, 0#8] ++ List.replicate 1612 0#8
/-- In SERVICE, partition 0 awaits its keys. -/
@[irreducible] def keyD : Device := regs [(fPartState 0, 2), (fBootCount, 0), (fGen 0, 0)] { dev0 with sess := [sess1 1] }
/-- TS of the payload. -/
def keyTs : List Byte := Config.gcmCrypt (keyD.kek 0 (Config.mlkemDecaps (keyD.part 0).dk ((keyPre.drop 0x10).take 1568))) (toLe 12 0) ((keyPre.drop 0x630).take 32)
/-- Its tag. -/
def keyTag : BitVec 128 :=
  Config.gcmTag (keyD.kek 0 (Config.mlkemDecaps (keyD.part 0).dk ((keyPre.drop 0x10).take 1568))) (toLe 12 0) (keyPre.take 16) keyTs
/-- The payload. -/
def keyBody : List Byte := keyPre ++ toLe 16 keyTag.toNat

theorem keyPre_length : keyPre.length = 1616 := by decide +kernel
theorem keyBody_drop (a n : Nat) (h : a + n ≤ 1616) : (keyBody.drop a).take n = (keyPre.drop a).take n := by
  have hl := keyPre_length
  rw [keyBody, List.drop_append_of_le_length (by omega), List.take_append_of_le_length (by rw [List.length_drop]; omega)]
theorem keyBody_unwrap (d : Device) (hd : d.part 0 = keyD.part 0) (hb : d.rd fBootCount = keyD.rd fBootCount) (hg : d.rd (fGen 0) = keyD.rd (fGen 0)) :
    d.unwrap 0 keyBody = some keyTs := by
  have ht : keyBody.take 16 = keyPre.take 16 := keyBody_drop 0 16 (by omega)
  have hf : fld keyBody 0x650 16 = keyTag.toNat := by
    have h := fld_toLe keyPre [] 16 keyTag.toNat
    rw [keyPre_length, List.append_nil] at h
    rw [keyBody]
    refine h.trans (Nat.mod_eq_of_lt ?_)
    have := keyTag.isLt
    omega
  have hg' : BitVec.ofNat 128 keyTag.toNat = Config.gcmTag (keyD.kek 0 (Config.mlkemDecaps (keyD.part 0).dk ((keyPre.drop 0x10).take 1568))) (toLe 12 0)
      (keyPre.take 16) keyTs := by rw [BitVec.ofNat_toNat, BitVec.setWidth_eq]; rfl
  simp only [Device.unwrap, Device.kek, hd, hb, hg, keyBody_drop 0x10 1568 (by omega), keyBody_drop 0x630 32 (by omega), ht, hf]
  exact if_pos hg'
theorem test_hyp_keyInstall : let m := wen keyBody
    let d := keyD.begun m (sess1 1)
    (askedB keyD 0x23 [1] false m (sess1 1) && decide (installCode d (sess1 1) keyBody = 0)) = true ∧ d.unwrap 0 keyBody = some keyTs :=
  ⟨by decide +kernel, keyBody_unwrap _ rfl rfl rfl⟩

theorem test_hyp_selfTest : let d : Device := { Device.reset with bist := some { targets := [(2, 1)], mode := 2, failed := false, via := none } }
    ∃ b, d.bist = some b ∧ b.via = none ∧ ∀ t ∈ b.targets, t.1 = 2 := ⟨_, rfl, rfl, by decide⟩

-- Terms that are not well formed.

/-- A word of another class, for every row that is an instruction. -/
def otherClass : List Instr :=
  [.ctlNop 0 0 (BitVec.allOnes 128), .ctlBr 0 0 (BitVec.allOnes 128), .ctlCall 0 0 (BitVec.allOnes 128), .ctlRet 0 0 (BitVec.allOnes 128), 
   .ctlLoop 0 0 (BitVec.allOnes 128), .ctlSeam 0 0 (BitVec.allOnes 128), .ctlMovi 0 0 (BitVec.allOnes 128), .ctlSop 0 0 (BitVec.allOnes 128), 
   .ctlScmp 0 0 (BitVec.allOnes 128), .ctlAopSet 0 0 (BitVec.allOnes 128), .ctlAopAdd 0 0 (BitVec.allOnes 128), .ctlAopGet 0 0 (BitVec.allOnes 128), 
   .syncPost 0 0 (BitVec.allOnes 128), .syncWait 0 0 (BitVec.allOnes 128), .syncRd 0 0 (BitVec.allOnes 128), .moveLd 0 0 (BitVec.allOnes 128), 
   .moveSt 0 0 (BitVec.allOnes 128), .moveGather 0 0 (BitVec.allOnes 128), .moveScatter 0 0 (BitVec.allOnes 128), .moveWin 0 0 (BitVec.allOnes 128), 
   .mmaOpen 0 0 (BitVec.allOnes 128), .mmaPass 0 0 (BitVec.allOnes 128), .mmaConv 0 0 (BitVec.allOnes 128), .mmaClose 0 0 (BitVec.allOnes 128), 
   .grpWalk 0 0 (BitVec.allOnes 128), .vecLd 0 0 (BitVec.allOnes 128), .vecSt 0 0 (BitVec.allOnes 128), .vecAdd 0 0 (BitVec.allOnes 128), 
   .vecSub 0 0 (BitVec.allOnes 128), .vecMul 0 0 (BitVec.allOnes 128), .vecFma 0 0 (BitVec.allOnes 128), .vecMax 0 0 (BitVec.allOnes 128), 
   .vecMin 0 0 (BitVec.allOnes 128), .vecAbs 0 0 (BitVec.allOnes 128), .vecNeg 0 0 (BitVec.allOnes 128), .vecExp 0 0 (BitVec.allOnes 128), 
   .vecRcp 0 0 (BitVec.allOnes 128), .vecRsq 0 0 (BitVec.allOnes 128), .vecSqrt 0 0 (BitVec.allOnes 128), .vecCmplt 0 0 (BitVec.allOnes 128), 
   .vecSel 0 0 (BitVec.allOnes 128), .vecRedsum 0 0 (BitVec.allOnes 128), .vecRedmax 0 0 (BitVec.allOnes 128), .vecNfin 0 0 (BitVec.allOnes 128), 
   .vecBcast 0 0 (BitVec.allOnes 128), .cvtBs 0 0 (BitVec.allOnes 128), .cvtSr 0 0 (BitVec.allOnes 128), .cvtUp 0 0 (BitVec.allOnes 128), 
   .cvtRn 0 0 (BitVec.allOnes 128), .routeTopk 0 0 (BitVec.allOnes 128), .routeScan 0 0 (BitVec.allOnes 128), .routeSort 0 0 (BitVec.allOnes 128), 
   .routeUnperm 0 0 (BitVec.allOnes 128), .xchgSkein 0 0 (BitVec.allOnes 128), .xchgCable 0 0 (BitVec.allOnes 128), .xchgFan 0 0 (BitVec.allOnes 128), 
   .updApply 0 0 (BitVec.allOnes 128), .updGauge 0 0 (BitVec.allOnes 128), .pwrTensionHold 0 0 (BitVec.allOnes 128), 
   .pwrTensionRamp 0 0 (BitVec.allOnes 128), .pwrTensionRelease 0 0 (BitVec.allOnes 128), .pwrHint 0 0 (BitVec.allOnes 128)]
theorem test_wf_class : otherClass.all (fun i => !i.wf) = true := by decide +kernel
theorem test_wf_opcode : (!Instr.wf (.ctlNop 0 0 (wd [(4, 1)])) && !Instr.wf (.vecAdd 0 0 (wd [(0, 5), (4, 3)])) && Instr.wf (.vecAdd 0 0 (wd [(0, 5), (4, 2)]))) = true := by
  decide +kernel
theorem test_wf_fn : (!Instr.wf (.ctlAopSet 0 0 (wd [(4, 11), (32, 1)])) && !Instr.wf (.ctlAopAdd 0 0 (wd [(4, 11)])) && !Instr.wf (.ctlAopGet 0 0 (wd [(4, 11), (32, 1)])) &&
    Instr.wf (.ctlAopGet 0 0 (wd [(4, 11), (32, 2)]))) = true := by decide +kernel
theorem test_wf_mode : (!Instr.wf (.pwrTensionHold 0 0 (wd [(0, 10), (16, 1)])) && !Instr.wf (.pwrTensionRamp 0 0 (wd [(0, 10)])) &&
    !Instr.wf (.pwrTensionRelease 0 0 (wd [(0, 10)])) && !Instr.wf (.pwrHint 0 0 (wd [(0, 10), (4, 1), (16, 1)])) && Instr.wf (.pwrHint 0 0 (wd [(0, 10), (4, 1)]))) = true := by
  decide +kernel
theorem test_wf_rowRepair : (!Instr.wf (.rowRepairDone ⟨0, [786432], []⟩) && !Instr.wf (.rowRepairDone ⟨0, [], [786432]⟩) &&
    Instr.wf (.rowRepairDone ⟨0, [786431], [5]⟩)) = true := by decide +kernel
theorem test_wf_rows : let b : RowFind := ⟨3, 0, 3, false, false⟩
    (!Instr.wf (.arrayPassDone 0 0 { rows := [b, b] }) && Instr.wf (.arrayPassDone 0 0 { rows := [b] })) = true := by decide +kernel
theorem test_wf_margins : let m : Margin := ⟨0, 3, 20, true, false⟩
    (!Instr.wf (.retrainWindow [m, m]) && Instr.wf (.retrainWindow [m])) = true := by decide +kernel
theorem test_wf_lengths : (!Instr.wf (.sensorSample { temps := [] }) && !Instr.wf (.meterRecord 0 0 { shares := [] }) && !Instr.wf (.swatchAck ⟨0, 1, 0, [], 0⟩) &&
    Instr.wf (.sensorSample { temps := List.replicate 66 60#8 })) = true := by decide +kernel
theorem test_wf_bodies : let m := wen [9#8, 9#8]
    (!Instr.wf (.swap (some m)) && !Instr.wf (.cancel (some m)) && !Instr.wf (.revert (some m)) && !Instr.wf (.warmReset m) && !Instr.wf (.fullReset m) &&
     Instr.wf (.swap (some { m with body := [1#8] }))) = true := by decide +kernel
theorem test_wf_bootReport : let r : BootReport := ⟨6, ⟨false, 0, 0⟩, true, true, [(0, 3), (0, 3)], [], []⟩
    (!Instr.wf (.startupStepDone r) && !Instr.wf (.startupStepDone { r with failed := [], degraded := r.failed })) = true := by decide +kernel
theorem test_wf_pins : (!Instr.wf (.vinRise 65536) && !Instr.wf (.vinLow 65536) && !Instr.wf (.vinOver 65536) && !Instr.wf (.overVoltageLockoutEnd 65536) &&
    Instr.wf (.vinRise 48000)) = true := by decide +kernel
theorem test_wf_tapCodes : (!Instr.wf (.tlaneaTest 0x0F) && !Instr.wf (.tlaneaTest 0x80) && !Instr.wf (.bypass 0x03) && !Instr.wf (.bypass 0x10) &&
    Instr.wf (.tlaneaTest 0x10) && Instr.wf (.bypass 0xFF) && Instr.wf (.bypass 0x04)) = true := by decide +kernel

-- Results worked out in the spec or by hand from its rules.

/-- Table 5-7. -/
theorem test_ply : (ply 1 0 0 0, ply 1 0 0 1, ply 1 1 0 0) = (0x4674, 0x4684, 0x5985) := by decide +kernel
/-- Example 7-2. -/
theorem test_tag : sealTag 0x036603E82005 3 701 = 0x1195036603E82005 := by decide +kernel
/-- Example 5-1: the term below the window's lowest bit is lost, and the tie rounds to 1.0. -/
theorem test_groupsum :
    let one := decodeFmt 3 0x38
    let two := vscale (decodeFmt 3 0x78) (-20)
    encodeFmt 0 (groupsum ([(one, one)] ++ List.replicate 15 (vzero, vzero) ++ [(two, two), (vscale (decodeFmt 3 1) (-20), vscale one (-20))]) 0 0) = 0x3F800000 := by
  decide +kernel
/-- Example 5-2: unsplit, and as a fan of two leaves. -/
theorem test_additions :
    let g := [0x3F800000, 0x33800000, 0x33800000, 0xBF800000].map (decodeFmt 0)
    let add := fun a b => accAdd 0 a b
    let leaf1 := add (add vzero (g.getD 0 .nan)) (g.getD 1 .nan)
    let leaf2 := add (add vzero (g.getD 2 .nan)) (g.getD 3 .nan)
    (encodeFmt 0 (g.foldl add vzero), encodeFmt 0 leaf2, encodeFmt 0 (add leaf1 leaf2)) = (0, 0xBF7FFFFF, 0x33800000) := by decide +kernel
/-- Example 5-3, and R150 for the same value under COMPAT. -/
theorem test_stochastic :
    (encodeFmt 1 (sr 1 0x4674 16 (decodeFmt 0 0x3F804000)), encodeFmt 1 (sr 1 0x4674 16 (decodeFmt 0 0x3F80C000)), encodeFmt 1 (sr 1 0x46 8 (decodeFmt 0 0x3F804000))) =
    (0x3F80, 0x3F81, 0x3F80) := by decide +kernel
/-- Example 8-1: the master and the moments of one AdamW element. -/
theorem test_adamw :
    let f := fun n => decodeFmt 0 n
    let q : UParams := { lr := f 0x3A800000, b1 := f 0x3F600000, b2 := f 0x3F700000, eps := f 0x35800000, wd := f 0x3E000000, nesterov := false, bias := true, clipf := vone, t := 1, gap := 0 }
    let r := adamw vone vzero vzero (f 0x3F000000) q
    (encodeFmt 0 (rn32 r.1), encodeFmt 0 (rn32 r.2.1), encodeFmt 0 (rn32 r.2.2)) = (0x3F7FB800, 0x3D800000, 0x3C800000) := by decide +kernel
/-- Example 7-1: capacity 2 for each of four experts. -/
theorem test_capacity :
    let c (e : Nat) : Choice := { pos := 0, dropped := false, valid := true, rank := 0, expert := e, gate := 0 }
    let r := assignCap [2, 2, 2, 2] 2 ([2, 0, 2, 1, 1, 2, 2, 3, 0, 2, 2, 1, 3, 0, 1, 3].map c)
    ((List.range 4).map (tget 0 r.1.1), (List.range 4).map (tget 0 r.1.2), (r.2.take 2).map (·.pos), (r.2.filter Choice.accepted).length) =
    ([2, 2, 2, 2], [1, 2, 4, 1], [0, 1], 8) := by decide +kernel
/-- The word of Table 3-27. -/
def word327 : BitVec 128 := 0x0002133A934C2013
/-- Table 3-27: the pass decodes, with the fields of Example 3-1. -/
theorem test_passWord : let w := word327.toNat
    ((opPass false).word word327 = w ∧ (opPass false).decodes w = true) ∧
    [bits w 14 12, bits w 21 16, bits w 27 24, bits w 31 28, bits w 35 32, bits w 39 36, bits w 43 40, bits w 45 44, bits w 50 46] = [2, 12, 3, 9, 10, 3, 3, 1, 8] := by decide +kernel
/-- The example of R42: T25 retires, and T24 takes its logical tile L5. -/
theorem test_rehost :
    let d := initialPlace ((Device.reset).modPart 0 (fun P => { P with cols := 0x48 })) 0 0x48
    let e := retireTiles d 0 [25]
    ((d.tile 25).hosted, (e.tile 24).hosted, (e.tile 25).hosted, (e.tile 26).hosted) = ([5], [4, 5], [], [6]) := by decide +kernel
/-- Example 4-2: the descriptor of the layer with K_START 1,280. -/
def winBytes1 : List Byte :=
  [0#8, 3#8, 1#8, 0#8] ++ toLe 4 128 ++ toLe 2 64 ++ toLe 2 64 ++ toLe 2 8 ++ toLe 2 0 ++ [3#8, 3#8, 3#8, 0#8, 1#8, 1#8, 1#8, 0#8, 1#8, 1#8, 1#8, 0#8, 1#8, 1#8, 1#8, 0#8] ++
  toLe 2 64 ++ toLe 2 64 ++ toLe 2 8 ++ toLe 2 0 ++ toLe 4 8192 ++ toLe 4 524288 ++ toLe 4 0x400000 ++ toLe 4 0 ++ toLe 4 1280
/-- Example 4-2: row (0, 0, 5) is outside the input, row (2, 7, 5) reads (2, 6, 5). -/
theorem test_window : (winPos winBytes1 5 0, winPos winBytes1 (2 * 4096 + 7 * 64 + 5) 0, winBytes winBytes1 2 6 5 0) =
    (none, some (2, 6, 5, 0), ((0x10C280, 1), (0x408614, 1))) := by decide +kernel

/-- One step on `d` with a command in front. -/
def after (c : Instr) (d : Device) : State := match step { (st d) with pending := [c] } with
  | .next t => t
  | _ => State.reset

/-- MOVI writes its immediate and the pc moves on (R70). -/
theorem test_movi : let t := ((after (.ctlMovi 0 0 (wd [(0, 0), (4, 8), (16, 5), (24, 77)])) dev0).tileAt 0 0)
    (t.sreg 5, t.pc) = (77, 16) := by decide +kernel
/-- SOP ADD wraps modulo 2^64 (R72). -/
theorem test_sopWraps : let t := ((after (.ctlSop 0 0 (wd [(0, 0), (4, 9), (16, 5), (22, 1), (28, 2)])) (devT { LTile.reset with s := [(1, BitVec.allOnes 64), (2, 2)] })).tileAt 0 0)
    (t.sreg 5, t.pc) = (1, 16) := by decide +kernel
/-- A counter holds the sum of the increments that arrived (R47). -/
theorem test_eventPost : let d := devT { LTile.reset with posts := [{ host := false, tgt := 1, ctr := 3, inc := 2, value := 0, waits := [] }] }
    tget 0 ((after (.eventPostArrive 0 0) d).dev.lt 0 1).ctr 3 = 2 := by decide +kernel
/-- PUT stores its data, and GET's answer would read it (R40). -/
theorem test_put : let d := (after (.put (req 5 0 (toLe 4 8 ++ [0xFF#8, 0#8, 0#8, 0#8] ++ toLe 8 128 ++ List.replicate 64 5#8))) idleD).dev
    (d.hRead 0 8 128 2, d.hRead 0 8 192 1) = ([5#8, 5#8], [0#8]) := by decide +kernel
/-- A mean input power above the cap raises the level (R350). -/
theorem test_cap : let d := regs [(fDom 79, 0), (fCapW, 3000), (fLevel, 15)] dev0
    ((after (.capWindow 3001 0 0) d).dev.rd fLevel, (after (.capWindow 3001 0 0) (d.wr fLevel 3)).dev.rd fLevel) = (15, 4) := by decide +kernel
/-- The MISR step of R379 folds the top bit in as 0x87. -/
theorem test_misr : (misrStep (1#128 <<< 127) 1, misrStep 3 0) = (0x86, 6) := by decide +kernel
/-- IDCODE selects Tlanea's code (R416). -/
theorem test_idcode : (after .idcode { dev0 with powered := true }).tap.dr = 0x1A32E36F#32 := by decide +kernel
/-- Decoding and rounding of the formats of R122 to R128: extremes, saturation and ties. -/
theorem test_formats : (encodeFmt 3 (rn 3 (vnat 500)), encodeFmt 4 (rn 4 (vnat 60000)), encodeFmt 7 (rn 7 (vnat 5)), encodeFmt 1 (rn 1 (decodeFmt 0 0x3F808000)), encodeFmt 8 (rn 8 (vnat 7))) =
    (0x7E, 0x7B, 6, 0x3F80, 0x7F) := by decide +kernel

end Sys2Proof.Tests
end

section
/-! SUPPORT. Changes to several logical tiles of a partition at once. -/
namespace Sys2Proof.Machine

theorem lt_modLt_other (d : Device) (p : Nat) (f : LTile → LTile) {l l' : Nat} (h : l' ≠ l) :
    (d.modLt p l f).lt p l' = d.lt p l' := lt_setLt_other _ _ (by unfold ltKey; omega)

/-- One change made to several logical tiles of a partition, each named once, is made to each of them and to no other. -/
theorem lt_foldl_modLt (p l : Nat) (f : LTile → LTile) {ls : List Nat} (hn : ls.Nodup) (d : Device) :
    (ls.foldl (fun d l => d.modLt p l f) d).lt p l = if l ∈ ls then f (d.lt p l) else d.lt p l := by
  induction ls generalizing d with
  | nil => rfl
  | cons k ls ih =>
    obtain ⟨hk, hn⟩ := List.nodup_cons.mp hn
    rw [List.foldl_cons, ih hn]
    by_cases h : l = k
    · subst h; simp [hk]
    · simp [h, lt_modLt_other d p f h]

/-- Changes to logical tiles leave the partitions alone. -/
theorem part_foldl_modLt (p q : Nat) (f : LTile → LTile) (ls : List Nat) (d : Device) :
    (ls.foldl (fun d l => d.modLt p l f) d).part q = d.part q :=
  foldl_keeps (fun d : Device => d.part q) _ (fun d l => part_modLt d p l f q) _ _

end Sys2Proof.Machine
end

section
/-! SUPPORT. The registers that the sending path of a flow writes: SWATCH_BYTES.SENT of the partitions, and no other (R252, R291, R299). -/
namespace Sys2Proof.Machine

/-- A register is a word of the register table alone. -/
theorem reg_of_regs {d e : Device} (h : e.regs = d.regs) (a : Nat) : e.reg a = d.reg a := by
  unfold Device.reg; rw [h]

@[simp] theorem takeSec_regs (d : Device) (n : Nat) (dst src : BitVec 48) (bs : List Byte) :
    (d.takeSec n dst src bs).2.regs = d.regs := by
  unfold Device.takeSec; split <;> rfl

@[simp] theorem emitPacket_regs (d : Device) (n : Nat) (fr : Frame) (h : List Byte) (e : Option Envelope) (bs : List Byte) (m : Msg) :
    (d.emitPacket n fr h e bs m).regs = d.regs := by simp [Device.emitPacket]

@[simp] theorem sealPacket_regs (d : Device) (f : Flow) (h bs : List Byte) : (sealPacket d f h bs).2.2.regs = d.regs := by
  unfold sealPacket; split <;> rfl

@[simp] theorem transmit_regs (d : Device) (i typ : Nat) (ctrl retx : Bool) (psn : BitVec 32) (m : Msg) (ks : List Nat) :
    (transmit d i typ ctrl retx psn m ks).1.regs = d.regs := by
  unfold transmit; dsimp only; split <;> simp

@[simp] theorem crossFabric_regs (d : Device) (p : Nat) : (crossFabric d p).regs = d.regs := by
  unfold crossFabric; dsimp only; split
  · rfl
  · rw [foldl_keeps Device.regs (fun d (x : Bool × Msg) => d.emit (.fabric p x.2)) (fun _ _ => rfl), modPart_regs]

section
variable {a : Nat} (ha : ∀ p, (fSwSent p).addr ≠ a)
include ha

theorem reg_countSwatch (d : Device) (f : Flow) (m : Msg) : (d.countSwatch f m).reg a = d.reg a := by
  unfold Device.countSwatch; split
  · dsimp only; split
    · exact reg_setReg_other _ _ (ha f.part).symm
    · rfl
  · rfl

theorem reg_sendNew (d : Device) (i typ : Nat) (ctrl : Bool) (m : Msg) : (sendNew d i typ ctrl m).reg a = d.reg a := by
  unfold sendNew; dsimp only
  rw [reg_modFlow]
  cases ctrl
  case true =>
    exact reg_of_regs (by simp only [if_true, apply_ite Prod.fst, apply_ite Device.regs, transmit_regs, ite_self]) a
  case false =>
    simp only [Bool.false_eq_true, if_false]
    rw [reg_countSwatch ha]
    exact reg_of_regs (by simp only [apply_ite Prod.fst, apply_ite Device.regs, transmit_regs, ite_self]) a

theorem reg_pumpGo (i : Nat) (ms : List (Bool × Msg)) (bc bd : Bool) (d : Device) :
    (pumpGo i ms bc bd d).2.reg a = d.reg a := by
  induction ms generalizing bc bd d with
  | nil => rfl
  | cons x ms ih =>
    simp only [pumpGo, apply_ite Prod.snd, apply_ite (fun e : Device => e.reg a), ih, reg_sendNew ha, reg_modFlow, ite_self]

theorem reg_pumpFlow (d : Device) (i : Nat) : (pumpFlow d i).reg a = d.reg a := by
  unfold pumpFlow; dsimp only; split
  · split
    · rw [reg_modFlow, reg_sendNew ha, reg_modFlow, reg_pumpGo ha]
    · rw [reg_modFlow, reg_pumpGo ha]
  · rfl

theorem reg_pumpPeers (d : Device) (p : Nat) : (pumpPeers d p).reg a = d.reg a := by
  unfold pumpPeers
  rw [reg_of_regs (crossFabric_regs _ _)]
  exact foldl_keeps (·.reg a) _ (fun d (e : Nat × Flow) => reg_pumpFlow ha d e.1) _ _

theorem reg_pump (d : Device) (i : Nat) : (pump d i).reg a = d.reg a := by
  unfold pump; dsimp only; split
  · rw [reg_pumpPeers ha, reg_pumpFlow ha]
  · exact reg_pumpFlow ha d i

theorem reg_flowSend (d : Device) (i : Nat) (ctrl : Bool) (m : Msg) : (flowSend d i ctrl m).reg a = d.reg a := by
  unfold flowSend; rw [reg_pump ha, reg_modFlow]

theorem reg_sendHost (d : Device) (p : Nat) (flow : BitVec 16) (bs : List Byte) : (sendHost d p flow bs).reg a = d.reg a := by
  unfold sendHost; dsimp only; split
  · rw [reg_flowSend ha, reg_emit]
  · rfl

theorem reg_sendWiStatus (d : Device) (p : Nat) (w : WorkItem) : (sendWiStatus d p w).reg a = d.reg a := by
  unfold sendWiStatus; split
  · rfl
  · exact reg_sendHost ha _ _ _ _

end

/-- A STATUS leaves the state of a configuration swap alone. -/
@[simp] theorem rd_sendWiStatus_cfgState (d : Device) (p : Nat) (w : WorkItem) :
    (sendWiStatus d p w).rd fCfgState = d.rd fCfgState := by
  have ha : ∀ q, (fSwSent q).addr ≠ fCfgState.addr := fun q => by simp only [fSwSent, fCfgState]; omega
  unfold Device.rd; rw [reg_sendWiStatus ha]

end Sys2Proof.Machine
end

section
/-! PROOF. The seam of a committed step (R22, R27, R75, R226). -/
namespace Sys2Proof.Machine

-- SEAM_RECORD.

theorem exec_seamRecord (p : Fin 8) (s : State) : exec (.seamRecord p) s = .next (s.withDev (seamRecord p s.dev)) := rfl

/-- SEAM_RECORD of a seam that is due records it. -/
theorem seamRecord_of_due {p : Nat} {d : Device} {w : WorkItem} {r : GaugeRes} (hw : (d.part p).running = some w)
    (hr : (d.part p).result = some r) (hd : d.seamDue p = true) : seamRecord p d = recordSeam p w r.outcome d := by
  simp only [seamRecord, hw, hr, hd, if_true]

/-- The device once the seam of a committed step is counted and recorded, and what the step's leases held back has gone on (R226): before
the STATUS and the seam work. -/
def committedSeam (d : Device) (p : Nat) : Device :=
  let P := d.part p
  let f := (countVisits d P.visitedNow).modPart p (fun P =>
    { P with steps := P.steps + 1, written := [], seam := .held,
             coldGrads := (P.descs.filter (fun x => !x.isRes)).map (fun x => (x.inst, x.gH)) })
  unleash (f.modPart p (fun P => { P with moving := (f.visitedShards p).map (·, false) })) p

/-- The seam of a committed step, inside its work item and with no swap pending, sends the STATUS that STEP_NOTICE asks for and begins the
seam work. -/
theorem recordSeam_commit {p : Nat} {d : Device} (w : WorkItem) {v : WorkItem} (hs : (d.part p).stopping = false)
    (hv : ((committedSeam d p).part p).running = some v) (hc : v.cause = .none) (hf : (d.part p).step < v.finalStep)
    (hswap : (committedSeam d p).rd fCfgState = 0) :
    recordSeam p w .commit d =
      seamWork (if (d.part p).stepNotice then sendWiStatus (committedSeam d p) p v else committedSeam d p) p := by
  have hgo : ¬ (decide (v.cause ≠ .none) || decide (v.finalStep ≤ (d.part p).step)) = true := by simp [hc, hf]
  have hfree (b : Bool) : (if b then sendWiStatus (committedSeam d p) p v else committedSeam d p).rd fCfgState ≠ 1 := by
    cases b <;> simp [hswap]
  simp only [committedSeam] at hv hfree ⊢
  simp only [recordSeam, reduceCtorEq, if_false, hs, Bool.false_eq_true, hv, Option.getD_some]
  rw [if_neg hgo, if_neg (hfree _)]

-- SEAM_WORK_DONE.

theorem exec_seamWorkDone (x : PartWork) (s : State) :
    exec (.seamWorkDone x) s = .next (s.withDev (seamWorkDone x.p x.bad s.dev)) := rfl

/-- A logical tile whose gauge contribution of the step is over. -/
def LTile.ungauge (t : LTile) : LTile := { t with gaugePart := none, gaugeFlag := false }

/-- With no message held for a later step, the turn to step `n` drops the result and the contribution of the step before, and keeps the
partition's seam and its number of logical tiles. -/
theorem part_turnTo {d : Device} {p : Nat} (n : Nat) (h : (d.part p).early = []) :
    ((turnTo d p n).part p).step = n ∧ ((turnTo d p n).part p).result = none ∧ ((turnTo d p n).part p).contrib = false ∧
      ((turnTo d p n).part p).seam = (d.part p).seam ∧ ((turnTo d p n).part p).ltCount = (d.part p).ltCount := by
  unfold turnTo
  simp only [h, List.filterMap_nil, List.foldl_nil]
  rw [foldl_keeps (fun d : Device => d.part p) (fun d v => d.wr (fVisited v) 0) (fun _ _ => rfl), part_foldl_modLt,
    part_modPart_same]
  exact ⟨rfl, rfl, rfl, rfl, rfl⟩

/-- With no message held for a later step, the turn to a step changes a logical tile in its gauge contribution alone. -/
theorem lt_turnTo {d : Device} {p : Nat} (n l : Nat) (h : (d.part p).early = []) :
    (turnTo d p n).lt p l = if l ∈ (d.part p).lts then (d.lt p l).ungauge else d.lt p l := by
  unfold turnTo
  simp only [h, List.filterMap_nil, List.foldl_nil]
  rw [foldl_keeps (fun d : Device => d.lt p l) (fun d v => d.wr (fVisited v) 0) (fun _ _ => rfl)]
  exact lt_foldl_modLt p l LTile.ungauge List.nodup_range _

/-- The turn to a step releases no logical tile: a tile held at CTL.SEAM stays held. -/
theorem block_lt_turnTo {d : Device} {p : Nat} (n l : Nat) (h : (d.part p).early = []) :
    ((turnTo d p n).lt p l).block = (d.lt p l).block := by
  rw [lt_turnTo n l h]; split <;> rfl

/-- A logical tile held at CTL.SEAM goes on with the step's number in its register (R75). -/
theorem release_seam {t : LTile} {sd : Nat} (n : Nat) (h : t.block = .seam sd) :
    (t.release n).block = .none ∧ (t.release n).sreg sd = BitVec.ofNat 64 n := by
  unfold LTile.release; rw [h]
  exact ⟨rfl, tget_tset_same _ _ _ _⟩

/-- With no tier move left to make, the moves' event moves nothing. -/
theorem movesMet_none {p : Nat} {d : Device} (h : d.movesLeft p = []) : movesMet p none d = d := by
  simp [movesMet, tierMoves, h]

/-- A swatch board is read at a seam whose turn it is and at no other. -/
theorem swatchTurn_not_due {d : Device} {p : Nat} (h : (d.part p).swDue = false) : swatchTurn d p = d := by
  simp [swatchTurn, h]

/-- The device at the end of a partition's seam work: the seam is over. -/
def seamOver (d : Device) (p : Nat) : Device := d.modPart p (fun P => { P with seam := .none, coldGrads := [], moving := [] })

theorem part_seamOver (d : Device) (p : Nat) :
    (seamOver d p).part p = { d.part p with seam := .none, coldGrads := [], moving := [] } := part_modPart_same _ _ _
theorem early_seamOver (d : Device) (p : Nat) : ((seamOver d p).part p).early = (d.part p).early := by rw [part_seamOver]

/-- The partition turns to its next step, and its logical tiles go on with that step's number. -/
def nextStep (d : Device) (p : Nat) : Device :=
  let n := (d.part p).step + 1
  let e := turnTo (seamOver d p) p n
  (List.range (e.part p).ltCount).foldl (fun d l => d.modLt p l (LTile.release n)) e

/-- SEAM_WORK_DONE with no work left and the work item running turns to the next step. -/
theorem seamWorkDone_nextStep {p : Nat} {d : Device} (hs : (d.part p).seam = .work) (hm : d.movesLeft p = [])
    (hb : (d.part p).swDue = false) (hc : (d.part p).swatch.state ≠ .copying) (hr : (d.part p).isRunning = true) :
    seamWorkDone p none d = nextStep d p := by
  have hr' : ((seamOver d p).part p).isRunning = true := by rw [part_seamOver]; exact hr
  unfold seamWorkDone
  rw [if_neg (not_not.mpr hs), movesMet_none hm, swatchTurn_not_due hb]
  dsimp only
  rw [if_neg (by simp [hm, hb, hc])]
  exact if_pos hr'

/-- The next step of a partition: its seam is over, and it has neither a result nor a contribution yet. -/
theorem part_nextStep {d : Device} {p : Nat} (h : (d.part p).early = []) :
    ((nextStep d p).part p).seam = .none ∧ ((nextStep d p).part p).step = (d.part p).step + 1 ∧
      ((nextStep d p).part p).result = none ∧ ((nextStep d p).part p).contrib = false := by
  have he : ((seamOver d p).part p).early = [] := (early_seamOver d p).trans h
  obtain ⟨hstep, hres, hcon, hseam, -⟩ := part_turnTo ((d.part p).step + 1) he
  unfold nextStep
  rw [part_foldl_modLt]
  exact ⟨hseam.trans (by rw [part_seamOver]), hstep, hres, hcon⟩

/-- A logical tile of the partition held at CTL.SEAM goes on in the next step, with its number in the register it names (R75). -/
theorem lt_nextStep_of_seam {d : Device} {p l sd : Nat} (h : (d.part p).early = []) (hl : l < (d.part p).ltCount)
    (hb : (d.lt p l).block = .seam sd) :
    ((nextStep d p).lt p l).block = .none ∧ ((nextStep d p).lt p l).sreg sd = BitVec.ofNat 64 ((d.part p).step + 1) := by
  have he : ((seamOver d p).part p).early = [] := (early_seamOver d p).trans h
  obtain ⟨-, -, -, -, hcount⟩ := part_turnTo ((d.part p).step + 1) he
  have hmem : l ∈ List.range ((turnTo (seamOver d p) p ((d.part p).step + 1)).part p).ltCount := by
    rw [List.mem_range, hcount, part_seamOver]; exact hl
  unfold nextStep
  rw [lt_foldl_modLt _ _ _ List.nodup_range, if_pos hmem]
  exact release_seam _ ((block_lt_turnTo _ l he).trans hb)

/-- Settles O26: SEAM_RECORD by `recordSeam_commit`, whose STATUS writes no register a pending swap is told by, and SEAM_WORK_DONE by
`seamWorkDone_nextStep`. -/
theorem seamTurnsTheStep : Obligations.SeamTurnsTheStep := by
  unfold Obligations.SeamTurnsTheStep
  intro p s
  refine ⟨?seamRecord, ?seamWorkDone⟩
  case seamRecord =>
    intro w r hw hr hd hout hs f e v hv hc hf hswap
    rw [exec_seamRecord, seamRecord_of_due hw hr hd, hout, recordSeam_commit w hs hv hc hf hswap]
    rfl
  case seamWorkDone =>
    intro hs hm hb hc hr he
    obtain ⟨hseam, hstep, hres, hcon⟩ := part_nextStep he
    exact ⟨nextStep s.dev p, by rw [exec_seamWorkDone, seamWorkDone_nextStep hs hm hb hc hr], hseam, hstep, hres, hcon,
      fun l sd hl _ hblock => lt_nextStep_of_seam he hl hblock⟩

end Sys2Proof.Machine
end

section
/-! SUPPORT. Requests at the launch endpoint: what each command runs, and what the endpoint makes of a request that passes its checks or fails one (R23, R26). -/
namespace Sys2Proof.Machine

-- The checks.

/-- Where every check has a code of its own, the first failing code is 0 only when no check fails. -/
theorem passes_of_firstFail {cs : List (Bool × Nat)} (hcodes : ∀ x ∈ cs, x.2 ≠ 0) (h : firstFail cs = 0) {x : Bool × Nat}
    (hx : x ∈ cs) : x.1 = false := by
  induction cs with
  | nil => cases hx
  | cons y cs ih =>
    obtain ⟨b, c⟩ := y
    have hb : b = false := by
      cases b with
      | false => rfl
      | true => exact absurd h (hcodes (true, c) List.mem_cons_self)
    subst hb
    rcases List.mem_cons.mp hx with rfl | hx
    · rfl
    · exact ih (fun z hz => hcodes z (List.mem_cons_of_mem _ hz)) h hx

theorem headChecks_codes (typ : Nat) (r : Req) : ∀ x ∈ headChecks typ r, x.2 ≠ 0 := by
  unfold headChecks fieldChecks launchFields allocFields
  split <;> simp

theorem stateChecks_codes (typ : Nat) (r : Req) (d : Device) : ∀ x ∈ stateChecks typ r d, x.2 ≠ 0 := by
  unfold stateChecks launchChecks
  split <;> simp

/-- An accepted request passes each of its state checks. -/
theorem passes_of_accepts {d : Device} {typ : Nat} {r : Req} (h : d.accepts typ r) {x : Bool × Nat} (hx : x ∈ stateChecks typ r d) :
    x.1 = false := by
  obtain ⟨-, -, -, -, hcheck⟩ := h
  refine passes_of_firstFail (fun y hy => ?_) hcheck (List.mem_append_right _ hx)
  rcases List.mem_append.mp hy with hy | hy
  · exact headChecks_codes typ r y hy
  · exact stateChecks_codes typ r d y hy

/-- A message to a host leaves, and goes on its flow where that is an OPEN LAUNCH flow of the partition (R27, R304). -/
theorem sendHost_eq (d : Device) (p : Nat) (flow : BitVec 16) (bs : List Byte) :
    sendHost d p flow bs =
      if (d.flow flow.toNat).st = .opened ∧ (d.flow flow.toNat).kind = 0 ∧ (d.flow flow.toNat).part = p then
        flowSend (d.emit (.host p flow bs)) flow.toNat false (.raw bs)
      else d.emit (.host p flow bs) := by
  simp only [sendHost, Bool.and_eq_true, decide_eq_true_eq, and_assoc]
  rfl

-- Handling.

/-- Outside SERVICE, and for a partition without keys, a request is not heard (R23). -/
theorem request_unheard {d : Device} {r : Req} (typ : Nat) (bad : Option OffFind)
    (h : d.rd fMode ≠ 2 ∨ d.rd (fPartState r.part) ≠ 3) : request typ r bad d = d :=
  if_pos (by simpa using h)

/-- A request that reaches the endpoint with none of its flow before it, and that is answered at once, is answered as it is handled. -/
theorem request_of_serve {d e : Device} {typ : Nat} {r : Req} {bad : Option OffFind} (hmode : d.rd fMode = 2)
    (hkeys : d.rd (fPartState r.part) = 3) (hflow : d.flowWaits r = false) (h : serve typ r bad d = (true, e)) :
    request typ r bad d = e := by
  simp only [request, takeReq, hmode, hkeys, hflow, h, ne_eq, not_true_eq_false, decide_false, Bool.or_self, Bool.false_eq_true,
    if_false, if_true]

/-- A request that fails a check is answered with that check's code (R25, R26). -/
theorem serve_refused {d : Device} {typ : Nat} {r : Req} (bad : Option OffFind) (hwait : d.launchWaits typ r = false)
    (h : firstFail (headChecks typ r ++ stateChecks typ r d) ≠ 0) :
    serve typ r bad d = (true, codeReply d r (firstFail (headChecks typ r ++ stateChecks typ r d)) (echoOf typ r)) := by
  unfold serve
  rw [if_neg (by simp [hwait])]
  split
  · exact absurd ‹_› h
  · rfl

section
variable {d : Device} {r : Req} {bad : Option OffFind}

theorem serve_launch (h : d.accepts 1 r) (hr : (d.part r.part.val).replays = false) : serve 1 r bad d = (true, launchAct r d) := by
  obtain ⟨-, -, -, hwait, hcheck⟩ := h
  simp only [serve, hwait, hcheck, hr, Bool.false_eq_true, if_false]

theorem serve_abort (h : d.accepts 2 r) :
    serve 2 r bad d = (true, if fld r.body 0 4 = 0xFFFFFFFF then abortAll r d else abortOne r d) := by
  obtain ⟨-, -, -, hwait, hcheck⟩ := h
  simp only [serve, hwait, hcheck, Bool.false_eq_true, if_false]

theorem serve_alloc (h : d.accepts 3 r) : serve 3 r bad d = (true, allocAct r d) := by
  obtain ⟨-, -, -, hwait, hcheck⟩ := h
  simp only [serve, hwait, hcheck, Bool.false_eq_true, if_false]

theorem serve_access {typ : Nat} (ht : typ = 4 ∨ typ = 5 ∨ typ = 6) (h : d.accepts typ r) :
    serve typ r bad d = accessAct typ r (d.part r.part.val).runId bad d := by
  obtain ⟨-, -, -, hwait, hcheck⟩ := h
  rcases ht with rfl | rfl | rfl <;> simp only [serve, hwait, hcheck, Bool.false_eq_true, if_false]

theorem serve_query {w : WorkItem} (h : d.accepts 7 r) (hw : (d.part r.part.val).findWi (fld r.body 0 4) = some w) :
    serve 7 r bad d = (true, itemReply d r 0 w) := by
  obtain ⟨-, -, -, hwait, hcheck⟩ := h
  simp only [serve, hwait, hcheck, hw, Bool.false_eq_true, if_false]

theorem serve_close (h : d.accepts 8 r) : serve 8 r bad d = (true, closeAct r d) := by
  obtain ⟨-, -, -, hwait, hcheck⟩ := h
  simp only [serve, hwait, hcheck, Bool.false_eq_true, if_false]

/-- An accepted request that is answered at once is answered as it is handled. -/
theorem request_of_accepts {e : Device} {typ : Nat} (h : d.accepts typ r) (hs : serve typ r bad d = (true, e)) :
    request typ r bad d = e := by
  obtain ⟨hmode, hkeys, hflow, -, -⟩ := h
  exact request_of_serve hmode hkeys hflow hs

end

-- The commands.

theorem exec_launch (r : Req) (s : State) : exec (.launch r) s = .next (s.withDev (request 1 r none s.dev)) := rfl
theorem exec_abort (r : Req) (s : State) : exec (.abort r) s = .next (s.withDev (request 2 r none s.dev)) := rfl
theorem exec_alloc (r : Req) (s : State) : exec (.alloc r) s = .next (s.withDev (request 3 r none s.dev)) := rfl
theorem exec_free (r : Req) (s : State) : exec (.free r) s = .next (s.withDev (request 4 r none s.dev)) := rfl
theorem exec_put (r : Req) (s : State) : exec (.put r) s = .next (s.withDev (request 5 r none s.dev)) := rfl
theorem exec_get (r : Req) (bad : Option OffFind) (s : State) :
    exec (.get ⟨r, bad⟩) s = .next (s.withDev (request 6 r bad s.dev)) := rfl
theorem exec_query (r : Req) (s : State) : exec (.query r) s = .next (s.withDev (request 7 r none s.dev)) := rfl
theorem exec_close (r : Req) (s : State) : exec (.close r) s = .next (s.withDev (request 8 r none s.dev)) := rfl

end Sys2Proof.Machine
end

section
/-! PROOF. The launch endpoint is silent outside SERVICE, and what a refused request does (R23, R25, R26). -/
namespace Sys2Proof.Machine

/-- Settles O29, by `request_unheard` for each of the eight requests. -/
theorem endpointSilentOutsideService : Obligations.EndpointSilentOutsideService := by
  unfold Obligations.EndpointSilentOutsideService
  intro r bad s h c hc
  have hq (typ : Nat) (bad : Option OffFind) : Host.Outcome.next (s.withDev (request typ r bad s.dev)) =
      (.next s : Host.Outcome State Fault Refusal) := by
    rw [request_unheard typ bad h]; rfl
  simp only [List.mem_cons, List.not_mem_nil, or_false] at hc
  rcases hc with rfl | rfl | rfl | rfl | rfl | rfl | rfl | rfl
  · exact hq 1 none
  · exact hq 2 none
  · exact hq 3 none
  · exact hq 4 none
  · exact hq 5 none
  · exact hq 6 bad
  · exact hq 7 none
  · exact hq 8 none

/-- Settles O30: `serve_refused` gives the reply, and `sendHost` sends it on the flow only where that is an OPEN LAUNCH flow of the
partition. -/
theorem refusedRequestsOnlyReply : Obligations.RefusedRequestsOnlyReply := by
  unfold Obligations.RefusedRequestsOnlyReply
  intro typ r bad d hmode hkeys hflow hwait c hc hne reply f
  subst hc
  have hreply := request_of_serve hmode hkeys hflow (serve_refused bad hwait hne)
  have hsend := hreply.trans (sendHost_eq d r.part.val r.flow reply)
  exact ⟨hreply, hreply, fun hclosed => hsend.trans (if_neg hclosed), fun hst hkind hpart => hsend.trans (if_pos ⟨hst, hkind, hpart⟩)⟩

end Sys2Proof.Machine
end

section
/-! SUPPORT. Sending on a flow, said once for every quantity that it leaves alone: it writes what the device sends, flow contexts, packet
numbers of ports, the counters and the waiting messages of partitions, the SWATCH_BYTES.SENT registers and the count of free values drawn, and
nothing else. -/
namespace Sys2Proof.Machine

/-- A quantity of the device that none of sending's own writes touches. -/
structure SendKeeps {γ : Type} (π : Device → γ) : Prop where
  emit : ∀ d o, π (d.emit o) = π d
  flow : ∀ d i f, π (d.setFlow i f) = π d
  port : ∀ d n f, π (d.modPort n f) = π d
  counter : ∀ d p m n, π (d.setPart p { d.part p with count0 := m, count1 := n }) = π d
  waiting : ∀ d p ws, π (d.setPart p { d.part p with peerWait := ws }) = π d
  sent : ∀ d p n, π (d.inc (fSwSent p) n) = π d
  drawn : ∀ (d : Device) n, π { d with free := n } = π d

namespace SendKeeps
variable {γ : Type} {π : Device → γ} (h : SendKeeps π)
include h

theorem modFlow (d : Device) (i : Nat) (f : Flow → Flow) : π (d.modFlow i f) = π d := h.flow d i _

theorem takeSec (d : Device) (n : Nat) (dst src : BitVec 48) (bs : List Byte) : π (d.takeSec n dst src bs).2 = π d := by
  unfold Device.takeSec
  split
  · rfl
  · dsimp only; exact h.port d n _

theorem emitPacket (d : Device) (n : Nat) (fr : Frame) (hd : List Byte) (e : Option Envelope) (bs : List Byte) (m : Msg) :
    π (d.emitPacket n fr hd e bs m) = π d := (h.emit _ _).trans (h.takeSec _ _ _ _ _)

theorem sealPacket (d : Device) (f : Flow) (hd bs : List Byte) : π (sealPacket d f hd bs).2.2 = π d := by
  unfold Machine.sealPacket
  split
  · rfl
  · dsimp only
    split <;> exact h.counter d f.part _ _

theorem transmit (d : Device) (i typ : Nat) (ctrl retx : Bool) (psn : BitVec 32) (m : Msg) (ks : List Nat) :
    π (transmit d i typ ctrl retx psn m ks).1 = π d := by
  unfold Machine.transmit
  dsimp only
  split
  · rfl
  · dsimp only; rw [h.emitPacket, h.flow, h.sealPacket]

theorem countSwatch (d : Device) (f : Flow) (m : Msg) : π (d.countSwatch f m) = π d := by
  unfold Device.countSwatch
  split
  · dsimp only
    split
    · exact h.sent _ _ _
    · rfl
  · rfl

theorem sendNew (d : Device) (i typ : Nat) (ctrl : Bool) (m : Msg) : π (sendNew d i typ ctrl m) = π d := by
  unfold Machine.sendNew
  dsimp only
  rw [h.modFlow]
  simp only [apply_ite π, h.countSwatch, apply_ite Prod.fst, h.transmit, ite_self]

theorem pumpGo (i : Nat) (ms : List (Bool × Msg)) (bc bd : Bool) (d : Device) : π (pumpGo i ms bc bd d).2 = π d := by
  induction ms generalizing bc bd d with
  | nil => rfl
  | cons x ms ih =>
    simp only [Machine.pumpGo, apply_ite Prod.snd, apply_ite π, ih, h.sendNew, h.modFlow, ite_self]

theorem pumpFlow (d : Device) (i : Nat) : π (pumpFlow d i) = π d := by
  unfold Machine.pumpFlow
  simp only [apply_ite π, h.modFlow, h.sendNew, h.pumpGo, ite_self]

theorem crossFabric (d : Device) (p : Nat) : π (crossFabric d p) = π d := by
  unfold Machine.crossFabric
  dsimp only
  split
  · rfl
  · rw [foldl_keeps π _ (fun d (x : Bool × Msg) => h.emit d (.fabric p x.2))]
    exact h.waiting d p _

theorem pumpPeers (d : Device) (p : Nat) : π (pumpPeers d p) = π d := by
  unfold Machine.pumpPeers
  rw [h.crossFabric]
  exact foldl_keeps π _ (fun d (e : Nat × Flow) => h.pumpFlow d e.1) _ _

theorem pump (d : Device) (i : Nat) : π (pump d i) = π d := by
  unfold Machine.pump
  simp only [apply_ite π, h.pumpPeers, h.pumpFlow, ite_self]

theorem flowSend (d : Device) (i : Nat) (ctrl : Bool) (m : Msg) : π (flowSend d i ctrl m) = π d := by
  unfold Machine.flowSend; rw [h.pump, h.modFlow]

theorem sendHost (d : Device) (p : Nat) (flow : BitVec 16) (bs : List Byte) : π (sendHost d p flow bs) = π d := by
  rw [sendHost_eq, apply_ite π, h.flowSend, h.emit, ite_self]

theorem itemReply (d : Device) (r : Req) (echo : Nat) (w : WorkItem) : π (itemReply d r echo w) = π d := h.sendHost _ _ _ _
theorem codeReply (d : Device) (r : Req) (code echo : Nat) : π (codeReply d r code echo) = π d := h.sendHost _ _ _ _

theorem sendOpen (d : Device) (i : Nat) : π (sendOpen d i) = π d := by
  unfold Machine.sendOpen; rw [apply_ite π, h.sendNew, ite_self]

theorem openPeer (d : Device) (p dev i : Nat) (ms : List (Bool × Msg)) : π (openPeer d p dev i ms) = π d := by
  unfold Machine.openPeer
  dsimp only
  split
  · rw [h.sendOpen, h.flow]
  · exact h.flow _ _ _

theorem openPeers (d : Device) (p : Nat) : π (openPeers d p) = π d := by
  refine foldl_keeps π _ (fun d dev => ?_) _ _
  split
  · exact h.waiting d p _
  · split
    · rfl
    · exact h.openPeer _ _ _ _ _

theorem sendHello (d : Device) (n : Nat) : π (sendHello d n) = π d := by
  unfold Machine.sendHello
  split
  · rfl
  · exact (h.emitPacket _ _ _ _ _ _ _).trans (h.drawn d _)

theorem sendHellos (d : Device) : π (sendHellos d) = π d := (h.sendHello _ _).trans (h.sendHello _ _)

end SendKeeps

/-- Sending touches no byte of memory. -/
theorem mems_sendKeeps : SendKeeps Device.mems where
  emit _ _ := rfl
  flow _ _ _ := rfl
  port _ _ _ := rfl
  counter _ _ _ _ := rfl
  waiting _ _ _ := rfl
  sent _ _ _ := rfl
  drawn _ _ := rfl

/-- Changes to a partition that leave a quantity of it alone leave that quantity of every partition alone. -/
theorem part_setPart_keeps {γ : Type} (g : Part → γ) {P : Part} {d : Device} {p : Nat} (h : g P = g (d.part p)) (q : Nat) :
    g ((d.setPart p P).part q) = g (d.part q) := by
  by_cases hq : q = p
  · subst hq; rw [part_setPart_same, h]
  · rw [part_setPart_other d P hq]

/-- What sending keeps of a partition: everything but its two counters and its messages that wait for peers. -/
theorem part_sendKeeps {γ : Type} (g : Part → γ) (q : Nat) (hc : ∀ P m n, g { P with count0 := m, count1 := n } = g P)
    (hw : ∀ P ws, g { P with peerWait := ws } = g P) : SendKeeps (fun d => g (d.part q)) where
  emit _ _ := rfl
  flow _ _ _ := rfl
  port _ _ _ := rfl
  counter _ _ m n := part_setPart_keeps g (hc _ m n) q
  waiting _ _ ws := part_setPart_keeps g (hw _ ws) q
  sent _ _ _ := rfl
  drawn _ _ := rfl

end Sys2Proof.Machine
end

section
/-! PROOF. LAUNCH queues a work item (R29, R51, R220). -/
namespace Sys2Proof.Machine

@[simp] theorem parts_refuseDoms (d : Device) (ns : List Nat) (r : Nat) : (refuseDoms d ns r).parts = d.parts :=
  foldl_keeps Device.parts _ (fun d n => parts_refuseDom d n r) _ _
@[simp] theorem mems_refuseDoms (d : Device) (ns : List Nat) (r : Nat) : (refuseDoms d ns r).mems = d.mems :=
  foldl_keeps Device.mems _ (fun d n => mems_refuseDom d n r) _ _

/-- A partition is an entry of the table of partitions alone. -/
theorem part_of_parts {d e : Device} (h : e.parts = d.parts) (p : Nat) : e.part p = d.part p := by
  unfold Device.part; rw [h]

@[simp] theorem part_refuseDoms (d : Device) (ns : List Nat) (r p : Nat) : (refuseDoms d ns r).part p = d.part p :=
  part_of_parts (parts_refuseDoms d ns r) p
@[simp] theorem part_notePorts (d : Device) (p : Nat) : (notePorts d).part p = d.part p := part_refuseDoms _ _ _ _
@[simp] theorem mems_notePorts (d : Device) : (notePorts d).mems = d.mems := mems_refuseDoms _ _ _

/-- What a LAUNCH is about: the queue of work items, the next WI_ID and the open job. -/
def Part.launching (P : Part) : List WorkItem × Nat × Option Job := (P.wis, P.nextWi, P.job)

/-- Sending leaves the queue of work items, the next WI_ID and the open job alone. -/
theorem launching_sendKeeps (p : Nat) : SendKeeps (fun d => (d.part p).launching) :=
  part_sendKeeps Part.launching p (fun _ _ _ => rfl) (fun _ _ => rfl)

/-- The job that a first LAUNCH opens. -/
def jobOf (r : Req) : Job := { jobId := r.jobId, desc := r.body, nextStep := fld r.body 0x10 4, lastStep := 0 }

theorem launching_openJob (r : Req) (d : Device) : ((openJob r d).part r.part.val).launching =
    ((d.part r.part.val).wis, (d.part r.part.val).nextWi, some (jobOf r)) := by
  have h := launching_sendKeeps r.part.val
  simp only [openJob, h.sendHellos, h.openPeers, part_wr, part_notePorts, part_modPart_same]
  rfl

theorem mems_openJob (r : Req) (d : Device) : (openJob r d).mems = d.mems := by
  simp only [openJob, mems_sendKeeps.sendHellos, mems_sendKeeps.openPeers, mems_wr, mems_notePorts, mems_modPart]

theorem launching_reopenPeers (d : Device) (p : Nat) : ((reopenPeers d p).part p).launching = (d.part p).launching := by
  have h := launching_sendKeeps p
  refine foldl_keeps (fun d : Device => (d.part p).launching) _ (fun d (e : Nat × Flow) => ?_) _ _
  rw [h.openPeer]
  split
  · rfl
  · unfold foundAgain; rw [part_modPart_same]; rfl

theorem mems_reopenPeers (d : Device) (p : Nat) : (reopenPeers d p).mems = d.mems := by
  refine foldl_keeps Device.mems _ (fun d (e : Nat × Flow) => ?_) _ _
  rw [mems_sendKeeps.openPeer, apply_ite Device.mems, foundAgain, mems_modPart, ite_self]

/-- The device of a LAUNCH with its job open. -/
def Device.jobbed (d : Device) (r : Req) : Device := if (d.part r.part.val).job.isNone then openJob r d else reopenPeers d r.part.val

/-- With its job open, the queue and the next WI_ID of the partition are as before, and a job that was open stays. -/
theorem launching_jobbed (d : Device) (r : Req) : ((d.jobbed r).part r.part.val).launching =
    ((d.part r.part.val).wis, (d.part r.part.val).nextWi, some ((d.part r.part.val).job.getD (jobOf r))) := by
  unfold Device.jobbed
  cases hj : (d.part r.part.val).job with
  | none => rw [if_pos Option.isNone_none, launching_openJob]; rfl
  | some j => rw [if_neg (by simp), launching_reopenPeers, Part.launching, hj]; rfl

theorem mems_jobbed (d : Device) (r : Req) : (d.jobbed r).mems = d.mems := by
  unfold Device.jobbed
  rw [apply_ite Device.mems, mems_openJob, mems_reopenPeers, ite_self]

/-- LAUNCH puts the new item behind the queue and counts its WI_ID. -/
theorem launching_launchAct (r : Req) (d : Device) :
    ((launchAct r d).part r.part.val).launching =
      ((d.part r.part.val).wis ++ [newItem ((d.jobbed r).part r.part.val) r], (d.part r.part.val).nextWi + 1,
        some ((d.part r.part.val).job.getD (jobOf r))) := by
  have h := launching_jobbed d r
  simp only [Part.launching, Prod.mk.injEq] at h
  obtain ⟨hwis, hnext, hjob⟩ := h
  simp only [launchAct, (launching_sendKeeps r.part.val).itemReply, apply_ite (fun d : Device => (d.part r.part.val).launching),
    part_refuseDoms, ite_self, part_modPart_same]
  exact Prod.ext (congrArg (· ++ _) hwis) (Prod.ext (congrArg (· + 1) hnext) hjob)

theorem mems_launchAct (r : Req) (d : Device) : (launchAct r d).mems = d.mems := by
  refine Eq.trans ?_ (mems_jobbed d r)
  simp only [launchAct, Device.jobbed, mems_sendKeeps.itemReply, apply_ite Device.mems, mems_refuseDoms, mems_modPart, ite_self]

/-- Settles O31, by what LAUNCH makes of the queue, the next WI_ID and the job (`launching_launchAct`). -/
theorem launchQueuesAWorkItem : Obligations.LaunchQueuesAWorkItem := by
  unfold Obligations.LaunchQueuesAWorkItem
  intro r s p P hacc hrep
  have h := launching_launchAct r s.dev
  simp only [Part.launching, Prod.mk.injEq] at h
  obtain ⟨hwis, hnext, hjob⟩ := h
  have hid : ((s.dev.jobbed r).part p).nextWi = P.nextWi := congrArg (·.2.1) (launching_jobbed s.dev r)
  refine ⟨launchAct r s.dev, newItem ((s.dev.jobbed r).part p) r, ?_, ?_, hid, rfl, rfl, rfl, rfl, rfl, rfl, hnext, ?_, ?_, ?_⟩
  · rw [exec_launch, request_of_accepts hacc (serve_launch hacc hrep)]
  · rw [hwis, List.getLast?_append]; rfl
  · rw [hjob]; rfl
  · intro hnone
    rw [hjob, hnone]; rfl
  · exact congrArg Prod.fst (mems_launchAct r s.dev)

end Sys2Proof.Machine
end

section
/-! PROOF. ABORT, QUERY and CLOSE (R25, R29, R57). -/
namespace Sys2Proof.Machine

/-- ABORT of the running work item is a fault with cause HOST_ABORT (R57). -/
theorem abortOne_running {r : Req} {d : Device} {w : WorkItem} (hw : (d.part r.part.val).findWi (fld r.body 0 4) = some w)
    (hrun : w.state = .running) : abortOne r d =
      itemReply (recordFault d r.part.val .hostAbort) r (fld r.body 4 2)
        ((((recordFault d r.part.val .hostAbort).part r.part.val).findWi (fld r.body 0 4)).getD w) := by
  simp only [abortOne, hw, hrun, reduceCtorEq, if_false, if_true]

/-- ABORT of a queued work item with none behind it takes the item out (R57). -/
theorem abortOne_queued {r : Req} {d : Device} {w : WorkItem} (hw : (d.part r.part.val).findWi (fld r.body 0 4) = some w)
    (hq : w.state = .queued) (hlast : ∀ v ∈ (d.part r.part.val).wis, v.id ≤ fld r.body 0 4) : abortOne r d =
      itemReply (d.modPart r.part.val (fun P => { P with
        wis := P.wis.filter (fun v => decide (v.id < fld r.body 0 4)),
        ended := P.ended ++ [{ w with state := .aborted, cause := .hostAbort }] })) r (fld r.body 4 2)
        { w with state := .aborted, cause := .hostAbort } := by
  have hnone : (d.part r.part.val).wis.filter (fun v => decide (fld r.body 0 4 < v.id)) = [] :=
    List.filter_eq_nil_iff.mpr (fun v hv => by simpa using hlast v hv)
  simp only [abortOne, hw, hq, if_true, hnone, List.foldl_nil]

/-- CLOSE leaves no job open (R29). -/
theorem job_closeAct (r : Req) (d : Device) : ((closeAct r d).part r.part.val).job = none := by
  have h : SendKeeps (fun d => (d.part r.part.val).job) := part_sendKeeps Part.job _ (fun _ _ _ => rfl) (fun _ _ => rfl)
  have hidle (e : Device) (i : Nat) : (idleFlow e r.part.val i).part r.part.val = e.part r.part.val := by
    unfold idleFlow; dsimp only; split <;> rfl
  simp only [closeAct, hidle, h.codeReply, h.sendHellos, part_wr, part_modPart_same]

/-- Settles O32: ABORT by the state of the work item it names, QUERY and CLOSE as they are handled. -/
theorem abortQueryAndClose : Obligations.AbortQueryAndClose := by
  unfold Obligations.AbortQueryAndClose
  refine ⟨?item, ?close⟩
  case item =>
    intro r s w p id P hw
    refine ⟨fun hacc hid hrun => ?running, fun hacc hid hq hlast => ?queued, fun hacc => ?query⟩
    case running => rw [exec_abort, request_of_accepts hacc (serve_abort hacc), if_neg hid, abortOne_running hw hrun]
    case queued => rw [exec_abort, request_of_accepts hacc (serve_abort hacc), if_neg hid, abortOne_queued hw hq hlast]
    case query => rw [exec_query, request_of_accepts hacc (serve_query hacc hw)]
  case close =>
    intro r s hacc
    exact ⟨closeAct r s.dev, by rw [exec_close, request_of_accepts hacc (serve_close hacc)], job_closeAct r s.dev⟩

end Sys2Proof.Machine
end

section
/-! SUPPORT. Tables with entries dropped by their key, and memory with a range cleared. -/
namespace Sys2Proof.Machine

/-- A table whose entries are kept by a test of their key: a key that fails the test reads as the default. -/
theorem tget_filter_key {α : Type} (d : α) (f : Nat → Bool) (m : Tab α) (k : Nat) :
    tget d (m.filter (fun e => f e.1)) k = if f k then tget d m k else d := by
  induction m with
  | nil => simp [tget]
  | cons e m ih =>
    obtain ⟨j, v⟩ := e
    by_cases hj : j = k
    · subst hj
      cases hf : f j with
      | true => simp [tget, hf]
      | false => simpa [tget, hf] using ih
    · cases hf : f j with
      | true => simpa [tget, hf, hj] using ih
      | false => simpa [tget, hf, hj] using ih

/-- A cleared range reads 0 (R36, R39). -/
theorem mget_mclear_inside (m : Mem) {a n x : Nat} (h1 : a ≤ x) (h2 : x < a + n) : mget (mclear m a n) x = 0 := by
  unfold mget mclear tdrop
  rw [tget_filter_key 0#8 (fun k => !(decide (a ≤ k) && decide (k < a + n)))]
  simp [h1, h2]

/-- Clearing a range leaves every byte outside it alone. -/
theorem mget_mclear_outside (m : Mem) {a n x : Nat} (h : x < a ∨ a + n ≤ x) : mget (mclear m a n) x = mget m x := by
  unfold mget mclear tdrop
  rw [tget_filter_key 0#8 (fun k => !(decide (a ≤ k) && decide (k < a + n)))]
  exact if_pos (by simp only [Bool.not_eq_true', Bool.and_eq_false_iff, decide_eq_false_iff_not]; omega)

/-- A byte that reads 0 reads 0 whatever else is cleared. -/
theorem mget_mclear_zero {m : Mem} {x : Nat} (a n : Nat) (h : mget m x = 0) : mget (mclear m a n) x = 0 := by
  by_cases hx : a ≤ x ∧ x < a + n
  · exact mget_mclear_inside m hx.1 hx.2
  · rw [mget_mclear_outside m (by omega), h]

end Sys2Proof.Machine
end

section
/-! PROOF. ALLOC and FREE, PUT and GET (R35 to R40, R60, R267). -/
namespace Sys2Proof.Machine

variable {d : Device} {r : Req}

/-- The entry that an ALLOC makes, its granules placed (R35, R36). -/
def entryOf (r : Req) (q : Placement) : HEntry :=
  { cls := fld r.body 4 1, access := fld r.body 5 1, localLt := fld r.body 6 1, size := fld r.body 8 8, place := q }

/-- ALLOC of a handle that can be placed makes its entry. -/
theorem allocAct_of_place {q : Placement} (hq : d.placeHandle r.part.val (fld r.body 4 1) (fld r.body 6 1) (fld r.body 8 8) = some q) :
    allocAct r d = codeReply (refreshMem (d.modPart r.part.val
      (fun P => { P with handles := tput (fld r.body 0 4) (some (entryOf r q)) P.handles })) r.part.val) r 0 0 := by
  simp only [allocAct, hq, entryOf]

/-- A device without a handle of a partition: its entry and what is kept of its granules are gone, its bytes read 0. -/
def Device.freed (d : Device) (p h : Nat) : Device :=
  ({ d with mem := mclear d.mem (hKey p h 0) (2 ^ 38) } : Device).modPart p (fun P => { P with
    handles := tdel h P.handles, poison := P.poison.filter (fun e => decide (e.1 / 2 ^ 27 ≠ h)),
    dead := P.dead.filter (fun e => decide (e.1 / 2 ^ 27 ≠ h)), written := P.written.filter (fun e => decide (e.1 / 2 ^ 27 ≠ h)) })

/-- FREE with no swatch under way takes the handle out (R39). -/
theorem freeAct_of_idle (h : (d.part r.part.val).swatch.underWay = false) : freeAct r d =
    codeReply (refreshMem (settleChans (d.freed r.part.val (fld r.body 0 4)) r.part.val) r.part.val) r 0 0 := by
  simp only [freeAct, h, Bool.false_and, Bool.false_eq_true, if_false]
  rfl

theorem entry_freed (d : Device) (p h : Nat) : ((d.freed p h).part p).entry h = none := by
  unfold Device.freed
  rw [part_modPart_same]
  exact tget_tdel_same _ _ _

/-- A request for a handle that is there and serves, with its range inside the handle, is carried out. -/
theorem accessAct_ready {typ wi : Nat} {bad : Option OffFind} (hentry : ((d.part r.part.val).entry (fld r.body 0 4)).isNone = false)
    (hsize : (if typ = 4 then 0 else if typ = 5 then fld r.body 8 8 + (r.body.length - 16) else fld r.body 8 8 + fld r.body 4 4) ≤
      (d.part r.part.val).sizeOf (fld r.body 0 4))
    (hw : d.mustWait typ r.part.val (fld r.body 0 4) = false) (hzero : (typ = 5 && d.zeroWaits r) = false) :
    accessAct typ r wi bad d = (true, if typ = 4 then freeAct r d else if typ = 5 then putAct r wi d else getAct r bad d) := by
  unfold accessAct
  dsimp only
  rw [if_neg (by simp [hentry]), if_neg (Nat.not_lt.mpr hsize), if_neg (by simp only [hw, hzero]; decide)]

/-- An accepted FREE of a handle that does not wait is carried out. -/
theorem serve_free (hacc : d.accepts 4 r) (hw : d.mustWait 4 r.part.val (fld r.body 0 4) = false) (bad : Option OffFind) :
    serve 4 r bad d = (true, freeAct r d) := by
  have hentry := passes_of_accepts hacc (x := (((d.part r.part.val).entry (fld r.body 0 4)).isNone, 5)) (by simp [stateChecks])
  rw [serve_access (.inl rfl) hacc]
  exact accessAct_ready hentry (Nat.zero_le _) hw (by simp)

/-- An accepted PUT of a handle that does not wait, without ACCESS.PARAM, is carried out. -/
theorem serve_put (hacc : d.accepts 5 r) (hw : d.mustWait 5 r.part.val (fld r.body 0 4) = false)
    (hparam : bit ((d.part r.part.val).accessOf (fld r.body 0 4)) 3 = false) (bad : Option OffFind) :
    serve 5 r bad d = (true, putAct r (d.part r.part.val).runId d) := by
  have hentry := passes_of_accepts hacc (x := (((d.part r.part.val).entry (fld r.body 0 4)).isNone, 5)) (by simp [stateChecks])
  have hsize := passes_of_accepts hacc
    (x := (decide ((d.part r.part.val).sizeOf (fld r.body 0 4) < fld r.body 8 8 + (r.body.length - 16)), 8)) (by simp [stateChecks])
  rw [serve_access (.inr (.inl rfl)) hacc]
  exact accessAct_ready hentry (Nat.not_lt.mp (of_decide_eq_false hsize)) hw (by simp [Device.zeroWaits, hparam])

/-- An accepted GET of a handle that does not wait is carried out. -/
theorem serve_get (hacc : d.accepts 6 r) (hw : d.mustWait 6 r.part.val (fld r.body 0 4) = false) (bad : Option OffFind) :
    serve 6 r bad d = (true, getAct r bad d) := by
  have hentry := passes_of_accepts hacc (x := (((d.part r.part.val).entry (fld r.body 0 4)).isNone, 5)) (by simp [stateChecks])
  have hsize := passes_of_accepts hacc
    (x := (decide ((d.part r.part.val).sizeOf (fld r.body 0 4) < fld r.body 8 8 + fld r.body 4 4), 8)) (by simp [stateChecks])
  rw [serve_access (.inr (.inr rfl)) hacc, accessAct_ready hentry (by simpa using hsize) hw (by simp)]
  simp

/-- A store behind a handle leaves the handle table alone. -/
theorem handles_hStore (d : Device) (p h off : Nat) (bs : List Byte) (q : Nat) :
    ((d.hStore p h off bs).part q).handles = (d.part q).handles := by
  unfold Device.hStore
  dsimp only
  split
  · rfl
  · exact (part_setPart_keeps Part.handles (by rfl) q).trans (by rfl)

theorem accessOf_hStore (d : Device) (p h off : Nat) (bs : List Byte) (q g : Nat) :
    ((d.hStore p h off bs).part q).accessOf g = (d.part q).accessOf g := by
  unfold Part.accessOf Part.entry
  rw [handles_hStore]

/-- A PUT without ACCESS.PARAM that asks for no event stores its data and is answered OK (R40). -/
theorem putAct_plain (wi : Nat) (hparam : bit ((d.part r.part.val).accessOf (fld r.body 0 4)) 3 = false) (hevt : fld r.body 4 1 = 0xFF) :
    putAct r wi d = codeReply (d.hStore r.part.val (fld r.body 0 4) (fld r.body 8 8) (r.body.drop 16)) r 0 0 := by
  have hstore : putStore d r.part.val (fld r.body 0 4) (fld r.body 8 8) (r.body.drop 16) =
      d.hStore r.part.val (fld r.body 0 4) (fld r.body 8 8) (r.body.drop 16) :=
    if_neg (by simp [accessOf_hStore, hparam])
  simp only [putAct, hstore, hevt, ne_eq, not_true_eq_false, decide_false, Bool.false_and, Bool.false_eq_true, if_false]

/-- GET answers with the bytes where no granule of its range is poisoned. -/
theorem getAct_clean (h : (d.part r.part.val).poisoned (fld r.body 0 4) (fld r.body 8 8) (fld r.body 4 4) = false) :
    getAct r none d = sendHost d r.part.val r.flow (hostMsg 0x82 r.jobId r.reqSeq
      (r.body.take 16 ++ d.hRead r.part.val (fld r.body 0 4) (fld r.body 8 8) (fld r.body 4 4))) :=
  if_neg (by simp [h])

/-- GET answers POISONED where a granule of its range is (R60). -/
theorem getAct_poisoned (h : (d.part r.part.val).poisoned (fld r.body 0 4) (fld r.body 8 8) (fld r.body 4 4) = true) :
    getAct r none d = codeReply d r 0xA 0 := if_pos h

/-- A GET that meets a word in its range answers as one that meets none, on the device with the word recorded (R267, R367). -/
theorem getAct_met {b : OffFind} (hlo : fld r.body 8 8 ≤ b.off.toNat) (hhi : b.off.toNat < fld r.body 8 8 + fld r.body 4 4) :
    getAct r (some b) d = getAct r none (metOff r.part.val (fld r.body 0 4) b none d) := by
  simp only [getAct, occurs, hlo, hhi, decide_true, Bool.and_self, if_true]

theorem metOff_corrected {b : OffFind} (h : b.corrected = true) (p g : Nat) (who : Option (List Nat)) (d : Device) :
    metOff p g b who d = readCe p g b.off.toNat d := if_pos h
theorem metOff_uncorrected {b : OffFind} (h : b.corrected = false) (p g : Nat) (who : Option (List Nat)) (d : Device) :
    metOff p g b who d = readUe p g b.off.toNat who d := if_neg (by simp [h])

/-- Settles O33: ALLOC by `allocAct_of_place`, FREE by `freeAct_of_idle` and what clearing the handle's range of bytes leaves. -/
theorem allocAndFree : Obligations.AllocAndFree := by
  unfold Obligations.AllocAndFree
  intro r s p f
  refine ⟨fun q hacc hq => ?alloc, fun hacc hw hidle => ⟨s.dev.freed p (f 0 4), ?free, entry_freed s.dev p (f 0 4), ?inside, ?outside, rfl⟩⟩
  case alloc => rw [exec_alloc, request_of_accepts hacc (serve_alloc hacc), allocAct_of_place hq]; rfl
  case free => rw [exec_free, request_of_accepts hacc (serve_free hacc hw none), freeAct_of_idle hidle]
  case inside =>
    intro o ho
    exact mget_mclear_inside _ (by unfold hKey; omega) (by unfold hKey; omega)
  case outside => exact fun a ha => mget_mclear_outside _ ha

/-- Settles O34: PUT by `putAct_plain`, GET by what `getAct` answers once the word it meets is recorded. -/
theorem putStoresAndGetReads : Obligations.PutStoresAndGetReads := by
  unfold Obligations.PutStoresAndGetReads
  intro r s p h off
  have get (bad : Option OffFind) (hacc : s.dev.accepts 6 r) (hw : s.dev.mustWait 6 p h = false) :
      exec (.get ⟨r, bad⟩) s = .next (s.withDev (getAct r bad s.dev)) := by
    rw [exec_get, request_of_accepts hacc (serve_get hacc hw bad)]
  refine ⟨fun hacc hw hparam hevt => ?put, fun hacc hw hclean => ?clean, fun hacc hw hpois => ?poisoned,
    fun b hacc hw hlo hhi => ⟨fun hcor hpois => ?uncorrected, fun hcor hclean => ?corrected⟩⟩
  case put => rw [exec_put, request_of_accepts hacc (serve_put hacc hw hparam none), putAct_plain _ hparam hevt]
  case clean => rw [get none hacc hw, getAct_clean hclean]
  case poisoned => rw [get none hacc hw, getAct_poisoned hpois]
  case uncorrected => rw [get (some b) hacc hw, getAct_met hlo hhi, metOff_uncorrected hcor, getAct_poisoned hpois]
  case corrected => rw [get (some b) hacc hw, getAct_met hlo hhi, metOff_corrected hcor, getAct_clean hclean]

/-- What a store behind a handle leaves poisoned: a granule poisoned before that the store does not cover whole, or that has no channel
left (R59). -/
theorem poison_hStore (d : Device) (p h off : Nat) (bs : List Byte) (k : Nat) :
    tget false ((d.hStore p h off bs).part p).poison k = true ↔
      tget false (d.part p).poison k = true ∧ (k ∉ wholeGranules h off bs.length ∨ tget false (d.part p).dead k = true) := by
  unfold Device.hStore
  dsimp only
  split
  case isTrue hnone =>
    have hnone : (d.part p).poison = [] := hnone
    change tget false (d.part p).poison k = true ↔ _
    simp [hnone, tget]
  case isFalse =>
    rw [part_modPart_same]
    change tget false ((d.part p).poison.filter (fun e => !(wholeGranules h off bs.length).contains e.1 || tget false (d.part p).dead e.1)) k
      = true ↔ _
    rw [tget_filter_key false (fun g => !(wholeGranules h off bs.length).contains g || tget false (d.part p).dead g)]
    simp [and_comm]

/-- Settles O35, by `poison_hStore`. -/
theorem poisonIsLiftedByWholeWrites : Obligations.PoisonIsLiftedByWholeWrites := by
  unfold Obligations.PoisonIsLiftedByWholeWrites
  intro d p h off bs k _ e
  exact ⟨hRead_hStore d p h off bs, poison_hStore d p h off bs k⟩

end Sys2Proof.Machine
end

section
/-! PROOF. Posts of PUTs and NOTICEs (R40, R50, R304). -/
namespace Sys2Proof.Machine

theorem exec_putEventPost (p : Fin 8) (flow : BitVec 16) (s : State) :
    exec (.putEventPost p flow) s = .next (s.withDev (putEventPost p flow s.dev)) := rfl
theorem exec_hostNotice (p : Fin 8) (l : Fin 32) (s : State) :
    exec (.hostNotice p l) s = .next (s.withDev (notice p l (·.readyPost true) (·.dropPost true) s.dev)) := rfl

/-- A post at the head of its logical tile's queue whose stores are visible is the one that leaves. -/
theorem readyPost_head {t : LTile} {q : Post} {qs : List Post} (h : t.posts = q :: qs) (hw : q.waits = []) :
    t.readyPost q.host = some q := by simp [LTile.readyPost, h, hw]
theorem dropPost_head {t : LTile} {q : Post} {qs : List Post} (h : t.posts = q :: qs) (hw : q.waits = []) :
    t.dropPost q.host = { t with posts := qs } := by simp [LTile.dropPost, dropFirst, h, hw]

/-- The post of the flow's oldest PUT, whose work item runs and whose tile is ON and in service (R40). -/
theorem putEventPost_serving {p : Nat} {d : Device} {q : PutPost} {qs : List PutPost} {h : Nat} (hq : (d.part p).putPosts = q :: qs)
    (hwi : (d.part p).runId = q.wi) (hhost : d.hostOf p q.lt = some h) (hon : d.domOn h = true) (hin : d.tileOut h = false) :
    putEventPost p q.flow d =
      putReply (post (d.modPart p (fun P => { P with putPosts := qs })) [] p q.lt q.ctr 1) p q := by
  have hdrop : d.modPart p (fun P => { P with putPosts := dropFirst (fun x => decide (x.flow = q.flow)) P.putPosts }) =
      d.modPart p (fun P => { P with putPosts := qs }) := by
    simp [Device.modPart, hq, dropFirst]
  simp [putEventPost, hq, hhost, hon, hin, hwi, hdrop]

/-- The oldest host post of a logical tile, its stores visible, leaves on the flow of the LAUNCH unless that is gone (R50, R304). -/
theorem notice_head {p l : Nat} {d : Device} {q : Post} {qs : List Post} {w : WorkItem} (hq : (d.lt p l).posts = q :: qs)
    (hhost : q.host = true) (hw : q.waits = []) (hrun : (d.part p).running = some w) :
    notice p l (·.readyPost true) (·.dropPost true) d =
      if w.mute then d.setLt p l { d.lt p l with posts := qs }
      else sendHost (d.setLt p l { d.lt p l with posts := qs }) p w.flow (hostMsg 0x83 w.jobId w.reqSeq
        (toLe 4 w.id ++ toLe 1 l ++ toLe 1 q.ctr ++ toLe 2 0 ++ toLe 4 q.value.toNat ++ toLe 4 0)) := by
  have hready := readyPost_head hq hw
  have hdrop := dropPost_head hq hw
  rw [hhost] at hready hdrop
  simp only [notice, hready, hrun, Device.modLt, hdrop]

/-- Settles O36, by `putEventPost_serving` and `notice_head`. -/
theorem putPostsAndNotices : Obligations.PutPostsAndNotices := by
  unfold Obligations.PutPostsAndNotices
  refine ⟨?put, ?notice⟩
  case put =>
    intro p flow s q qs h P hq hflow hwi hhost hon hin
    rw [← hflow, exec_putEventPost, putEventPost_serving hq hwi hhost hon hin]
  case notice =>
    intro p l s q qs w t hq hhost hw hrun
    rw [exec_hostNotice, notice_head hq hhost hw hrun]
    exact ⟨fun hmute => by rw [if_pos hmute]; rfl, fun hmute => by rw [if_neg (by simp [hmute])]⟩

end Sys2Proof.Machine
end

section
/-! PROOF. What an address register holds (R46). -/
namespace Sys2Proof.Machine

/-- An address register with a handle counts 64-byte units behind it. -/
theorem locOf_handle {a : Word} (h : bits a.toNat 63 32 ≠ 0) : locOf a = ⟨bits a.toNat 63 32, bits a.toNat 31 0 * 64, false⟩ := by
  unfold locOf; exact if_neg h

/-- An address register without a handle counts bytes of the scratchpad, and has no bit of [31:25] set when it is sound. -/
theorem locOf_spad {a : Word} (h : bits a.toNat 63 32 = 0) :
    locOf a = ⟨0, bits a.toNat 24 0, decide (bits a.toNat 31 25 ≠ 0)⟩ := by
  unfold locOf
  rw [if_pos h]
  have hpos : bits a.toNat 31 0 % 2 ^ 25 = bits a.toNat 24 0 := by simp only [bits]; omega
  have hbad : 2 ^ 25 ≤ bits a.toNat 31 0 ↔ bits a.toNat 31 25 ≠ 0 := by simp only [bits]; omega
  simp only [hpos, hbad]

/-- An access to the scratchpad through a register with a bit of [31:25] set is out of bounds. -/
theorem readFault_bad {x : Loc} (hh : x.h = 0) (hb : x.bad = true) (d : Device) (p n : Nat) : d.readFault p x n = some .bounds := by
  simp only [Device.readFault, hh, hb, Bool.true_or, if_true]
theorem writeFault_bad {x : Loc} (hh : x.h = 0) (hb : x.bad = true) (d : Device) (p n : Nat) : d.writeFault p x n = some .bounds := by
  simp only [Device.writeFault, hh, hb, Bool.true_or, if_true]

/-- Settles O60, by `locOf_handle` and `locOf_spad`. -/
theorem addressRegisters : Obligations.AddressRegisters := by
  unfold Obligations.AddressRegisters
  intro a d p n h x
  refine ⟨fun hh => ?handle, fun hh => ?spad⟩
  case handle =>
    have hx : x = _ := locOf_handle hh
    rw [hx]; exact ⟨rfl, rfl, rfl⟩
  case spad =>
    have hx : x = _ := locOf_spad hh
    rw [hx]
    exact ⟨rfl, rfl, decide_eq_true_iff,
      fun hb => ⟨readFault_bad rfl (decide_eq_true hb) d p n, writeFault_bad rfl (decide_eq_true hb) d p n⟩⟩

end Sys2Proof.Machine
end

section
/-! SUPPORT. Reading and writing at a location, scratchpad or handle, and the partial-sum region (R36, R46, R106). -/
namespace Sys2Proof.Machine

theorem length_mread (m : Mem) (a n : Nat) : (mread m a n).length = n := by simp [mread]

@[simp] theorem length_spXor (t : LTile) (off : Nat) (bs : List Byte) : (t.spXor off bs).length = bs.length := by
  induction bs generalizing off with
  | nil => rfl
  | cons b bs ih => simp [LTile.spXor, ih]

/-- The mask of a scratchpad's bytes undoes itself. -/
@[simp] theorem spXor_spXor (t : LTile) (off : Nat) (bs : List Byte) : t.spXor off (t.spXor off bs) = bs := by
  induction bs generalizing off with
  | nil => rfl
  | cons b bs ih => simp [LTile.spXor, ih]

/-- Bytes read at a location are as many as were asked for. -/
theorem length_readAt (d : Device) (p l : Nat) (x : Loc) (n : Nat) : (d.readAt p l x n).length = n := by
  unfold Device.readAt
  split
  · exact (length_spXor _ _ _).trans (length_mread _ _ _)
  · exact length_mread _ _ _

/-- What was stored in a scratchpad is read back. -/
theorem spRead_spWrite (d : Device) (p l off : Nat) (bs : List Byte) : (d.spWrite p l off bs).spRead p l off bs.length = bs := by
  have h := mread_mwrite d.spad (spKey p l off) ((d.lt p l).spXor off bs)
  rw [length_spXor] at h
  change (d.lt p l).spXor off (mread (mwrite d.spad (spKey p l off) ((d.lt p l).spXor off bs)) (spKey p l off) bs.length) = bs
  rw [h, spXor_spXor]

/-- A store in a scratchpad leaves every other byte of the scratchpads alone. -/
theorem spWrite_frame (d : Device) (p l off : Nat) (bs : List Byte) {a : Nat} (h : a < spKey p l off ∨ spKey p l off + bs.length ≤ a) :
    mget (d.spWrite p l off bs).spad a = mget d.spad a :=
  mget_mwrite_other _ _ (by rwa [length_spXor])

/-- Addressing a location touches no byte behind a handle. -/
@[simp] theorem touch_mem (d : Device) (p l : Nat) (x : Loc) (n : Nat) : (d.touch p l x n).mem = d.mem := by
  unfold Device.touch Device.scramble
  split
  · split <;> rfl
  · rfl

/-- Addressing a location behind a handle changes nothing. -/
theorem touch_handle (d : Device) (p l : Nat) {x : Loc} (n : Nat) (h : x.h ≠ 0) : d.touch p l x n = d := if_neg h

/-- Addressing the scratchpad outside the partial-sum region, or while that holds no groups, changes nothing (R106). -/
theorem touch_outside (d : Device) (p l : Nat) (x : Loc) (n : Nat) (h : x.pos + n ≤ psumBase ∨ d.psumBusy p l = false) :
    d.touch p l x n = d := by
  unfold Device.touch Device.scramble
  split
  · refine if_pos ?_
    rcases h with h | h <;> simp [h]
  · rfl

theorem writeAt_spad (d : Device) (p l : Nat) {x : Loc} (bs : List Byte) (h : x.h = 0) : d.writeAt p l x bs = d.spWrite p l x.pos bs :=
  if_pos h
theorem writeAt_handle (d : Device) (p l : Nat) {x : Loc} (bs : List Byte) (h : x.h ≠ 0) :
    d.writeAt p l x bs = d.hWrite p x.h x.pos bs := if_neg h

end Sys2Proof.Machine
end

section
/-! PROOF. A row of a MOVE (R78, R79, R106). -/
namespace Sys2Proof.Machine

/-- The device once a row of a MOVE has read its index entry, if it has one. -/
def MoveOp.atIndex (m : MoveOp) (p l r : Nat) (d : Device) : Device :=
  if m.indexed then d.touch p l ((locOf m.ai).plus (4 * r)) 4 else d
/-- The index entry of a row, 0 without an index list. -/
def MoveOp.entryAt (m : MoveOp) (p l r : Nat) (d : Device) : Nat :=
  if m.indexed then fld ((m.atIndex p l r d).readAt p l ((locOf m.ai).plus (4 * r)) 4) 0 4 else 0
/-- The device once a row has addressed its source. -/
def MoveOp.atSource (m : MoveOp) (p l r : Nat) (d : Device) : Device :=
  (m.atIndex p l r d).touch p l (m.src r (m.entryAt p l r d)) m.len
/-- The bytes of a row's source. -/
def MoveOp.rowBytes (m : MoveOp) (p l r : Nat) (d : Device) : List Byte :=
  (m.atSource p l r d).readAt p l (m.src r (m.entryAt p l r d)) m.len

/-- A row that does not fault stores its source bytes at its destination, which it addresses. -/
theorem moveRow_ok {p l r : Nat} {m : MoveOp} {d e : Device} (h : moveRow p l m r d = .ok e) :
    e = ((m.atSource p l r d).writeAt p l (m.dst r (m.entryAt p l r d)) (m.rowBytes p l r d)).touch p l
      (m.dst r (m.entryAt p l r d)) m.len := by
  unfold moveRow at h
  dsimp only at h
  split at h
  · cases h
  · split at h
    · cases h
    · split at h
      · cases h
      · cases h; rfl

theorem atSource_mem (m : MoveOp) (p l r : Nat) (d : Device) : (m.atSource p l r d).mem = d.mem := by
  unfold MoveOp.atSource MoveOp.atIndex
  rw [touch_mem]
  split
  · exact touch_mem _ _ _ _ _
  · rfl

theorem length_rowBytes (m : MoveOp) (p l r : Nat) (d : Device) : (m.rowBytes p l r d).length = m.len := length_readAt _ _ _ _ _

/-- The destination of a row lies behind the handle of the MOVE's destination register. -/
theorem dst_h (m : MoveOp) (r idx : Nat) : (m.dst r idx).h = (locOf m.ad).h := rfl

/-- A store in the scratchpad that addresses nothing of the region of open groups: what it stores and what it leaves. -/
theorem spWrite_touch {p l n : Nat} {y : Loc} {d : Device} {bs : List Byte} (hn : bs.length = n)
    (h : y.pos + n ≤ psumBase ∨ d.psumBusy p l = false) :
    ((d.spWrite p l y.pos bs).touch p l y n).spRead p l y.pos n = bs ∧
      ∀ a, (a < spKey p l y.pos ∨ spKey p l y.pos + n ≤ a) → mget ((d.spWrite p l y.pos bs).touch p l y n).spad a = mget d.spad a := by
  subst hn
  rw [touch_outside (d.spWrite p l y.pos bs) p l y bs.length h]
  exact ⟨spRead_spWrite d p l y.pos bs, fun a ha => spWrite_frame d p l y.pos bs ha⟩

/-- Settles O11: `moveRow_ok` gives the row's one store, whose effect is that of a store in the scratchpad or behind a handle. -/
theorem moveRowFrame : Obligations.MoveRowFrame := by
  unfold Obligations.MoveRowFrame
  intro p l r m d e _ hok x d0 idx d1 bs y
  have he : e = (d1.writeAt p l y bs).touch p l y m.len := moveRow_ok hok
  have hlen : bs.length = m.len := length_rowBytes m p l r d
  have hmem : d1.mem = d.mem := atSource_mem m p l r d
  refine ⟨fun hspad => ?spad, fun hhandle => ?handle⟩
  case spad =>
    rw [writeAt_spad d1 p l bs ((dst_h m r idx).trans hspad)] at he
    subst he
    exact ⟨(touch_mem _ _ _ _ _).trans hmem, spWrite_touch hlen⟩
  case handle =>
    rw [writeAt_handle (x := y) d1 p l bs hhandle, touch_handle (x := y) _ p l _ hhandle] at he
    subst he
    refine ⟨?_, hWrite_spad _ _ _ _ _, fun a ha => ?_⟩
    · have hread := hRead_hStore d1 p y.h y.pos bs
      rwa [hlen] at hread
    · rw [← hmem]
      exact hStore_frame d1 p y.h y.pos bs (by rwa [hlen])

end Sys2Proof.Machine
end

section
/-! SUPPORT. The fields of an issued word, and the switch between the two logical tiles of a physical tile (R43, R61). -/
namespace Sys2Proof.Machine

/-- Replacing a field leaves what lies above it alone. -/
theorem setBits_div (w hi lo v : Nat) (hl : lo ≤ hi) : setBits w hi lo v / 2 ^ (hi + 1) = w / 2 ^ (hi + 1) := by
  obtain ⟨k, rfl⟩ : ∃ k, hi = lo + k := ⟨hi - lo, by omega⟩
  have hk : lo + k - lo + 1 = k + 1 := by omega
  have hpow : 2 ^ (lo + k + 1) = 2 ^ lo * 2 ^ (k + 1) := by rw [← pow_add]; rfl
  unfold setBits bits
  rw [hk, hpow]
  have hlo := Nat.two_pow_pos lo
  have hw : w = 2 ^ lo * (2 ^ (k + 1) * (w / 2 ^ lo / 2 ^ (k + 1)) + w / 2 ^ lo % 2 ^ (k + 1)) + w % 2 ^ lo := by
    rw [Nat.div_add_mod, Nat.div_add_mod]
  generalize hq : w / 2 ^ lo / 2 ^ (k + 1) = q at hw
  generalize hb : w / 2 ^ lo % 2 ^ (k + 1) = b at hw
  generalize hr : w % 2 ^ lo = r at hw
  have hrl : r < 2 ^ lo := hr ▸ Nat.mod_lt _ hlo
  have hv : v % 2 ^ (k + 1) < 2 ^ (k + 1) := Nat.mod_lt _ (Nat.two_pow_pos _)
  generalize v % 2 ^ (k + 1) = u at hv
  have hset : w - b * 2 ^ lo + u * 2 ^ lo = 2 ^ lo * (2 ^ (k + 1) * q + u) + r := by
    have : w = 2 ^ lo * (2 ^ (k + 1) * q) + b * 2 ^ lo + r := by rw [hw]; ring
    rw [Nat.mul_add, Nat.mul_comm _ u]; omega
  rw [hset, ← Nat.div_div_eq_div_mul, ← Nat.div_div_eq_div_mul, Nat.mul_add_div hlo, Nat.div_eq_of_lt hrl, Nat.add_zero,
    Nat.mul_add_div (Nat.two_pow_pos _), Nat.div_eq_of_lt hv, Nat.add_zero, hq]

/-- A field above the one replaced reads as before. -/
theorem bits_setBits_above {w hi lo v hi' lo' : Nat} (hl : lo ≤ hi) (h : hi < lo') : bits (setBits w hi lo v) hi' lo' = bits w hi' lo' := by
  obtain ⟨k, rfl⟩ : ∃ k, lo' = hi + 1 + k := ⟨lo' - (hi + 1), by omega⟩
  unfold bits
  rw [pow_add, ← Nat.div_div_eq_div_mul, ← Nat.div_div_eq_div_mul, setBits_div w hi lo v hl]

/-- The row of an instruction that fixes its class and opcode alone leaves every field above them to the word. -/
theorem bits_word {o : Op} (hfix : o.fix = []) (w : BitVec 128) {hi lo : Nat} (h : 12 ≤ lo) :
    bits (o.word w) hi lo = bits w.toNat hi lo := by
  unfold Op.word
  rw [hfix, List.foldl_nil, bits_setBits_above (by omega) (by omega), bits_setBits_above (by omega) (by omega)]

/-- A logical tile that issues runs on its physical tile, which does not switch. -/
theorem runs_of_issues {o : Op} {p l h : Nat} {w : BitVec 128} {d : Device} (hi : d.issues o p l w = true)
    (hh : d.hostOf p l = some h) : (d.tile h).run = l ∧ (d.tile h).switching = false := by
  simp only [Device.issues, Bool.and_eq_true] at hi
  obtain ⟨⟨⟨⟨⟨⟨⟨⟨hcan, -⟩, -⟩, -⟩, -⟩, -⟩, -⟩, -⟩, -⟩ := hi
  simp only [Device.canIssue, hh, Bool.and_eq_true, decide_eq_true_eq, Bool.not_eq_true'] at hcan
  obtain ⟨-, ⟨⟨hrun, hsw⟩, -⟩, -⟩ := hcan
  exact ⟨hrun, hsw⟩

/-- A physical tile begins to switch: its Placement refuses an entry of the stack of its save area, which is woken (R43, R340, R345). -/
def Device.switching (d : Device) (h : Nat) : Device :=
  wakeDom (refuseDom (d.modTile h (fun x => { x with switching := true })) (32 + d.saveStack h) Refuser.place.num) (32 + d.saveStack h) 5

/-- A physical tile switches when its other logical tile is ready, and goes on with the one it runs when not (R43). -/
theorem startSwitch_running {d : Device} {p l h : Nat} (hh : d.hostOf p l = some h) (hrun : (d.tile h).run = l)
    (hsw : (d.tile h).switching = false) : startSwitch d p l = if (d.otherReady p h l).isSome then d.switching h else d := by
  simp only [startSwitch, hh, hrun, hsw, decide_true, Bool.not_false, Bool.true_and]
  rfl

/-- Which other logical tile is ready does not depend on the one that runs. -/
theorem otherReady_setLt (d : Device) (p h l : Nat) (t : LTile) : (d.setLt p l t).otherReady p h l = d.otherReady p h l := by
  unfold Device.otherReady
  refine List.find?_congr (fun m _ => ?_)
  by_cases hm : m = l
  · simp [hm]
  · rw [show (d.setLt p l t).lt p m = d.lt p m from lt_modLt_other d p (fun _ => t) hm]

end Sys2Proof.Machine
end

section
/-! PROOF. Event counters (R43, R47 to R49, R56, R77). -/
namespace Sys2Proof.Machine

theorem exec_syncWait (p : Fin 8) (l : Fin 32) (w : BitVec 128) (s : State) :
    exec (.syncWait p l w) s = .next (s.withDev (issue opWait p l w s.dev)) := rfl
theorem exec_syncPost (p : Fin 8) (l : Fin 32) (w : BitVec 128) (s : State) :
    exec (.syncPost p l w) s = .next (s.withDev (issue opPost p l w s.dev)) := rfl
theorem exec_eventPostArrive (p : Fin 8) (l : Fin 32) (s : State) :
    exec (.eventPostArrive p l) s = .next (s.withDev (postArrive p l s.dev)) := rfl

/-- The target of a SYNC.WAIT is one of its word's own fields. -/
theorem waitTarget_word (t : LTile) (w : BitVec 128) : waitTarget t (opWait.word w) = waitTarget t w.toNat := by
  unfold waitTarget bit
  rw [bits_word (o := opWait) rfl w (show 12 ≤ 22 by decide), bits_word (o := opWait) rfl w (show 12 ≤ 24 by decide),
    bits_word (o := opWait) rfl w (show 12 ≤ 32 by decide)]

/-- A SYNC.WAIT that issues goes on when its counter has reached the target, and blocks otherwise (R49). -/
theorem issue_wait {p l : Nat} {w : BitVec 128} {s : State} (h : s.dev.issues opWait p l w = true) :
    issue opWait p l w s.dev =
      if waitTarget (s.tileAt p l) w.toNat ≤ (tget 0 (s.tileAt p l).ctr (bits w.toNat 21 16)).toNat then
        s.dev.setLt p l (s.tileAt p l).advance
      else startSwitch (s.dev.setLt p l
        { (s.tileAt p l).advance with block := .wait (bits w.toNat 21 16) (waitTarget (s.tileAt p l) w.toNat) }) p l := by
  rw [issue_of_issues h]
  change waitAct p l (opWait.word w) (s.dev.setLt p l (s.tileAt p l)) = _
  simp only [waitAct, lt_setLt_same, waitTarget_word, setLt_setLt, bits_word (o := opWait) rfl w (show 12 ≤ 16 by decide)]

/-- A SYNC.POST that issues joins the posts of its logical tile, behind the stores issued before it (R48, R77). -/
theorem issue_post {p l : Nat} {w : BitVec 128} {s : State} (h : s.dev.issues opPost p l w = true) :
    issue opPost p l w s.dev = s.dev.setLt p l (queuePost w.toNat (s.tileAt p l)).advance := by
  rw [issue_of_issues h]
  change simpleAct queuePost p l (opPost.word w) (s.dev.setLt p l (s.tileAt p l)) = _
  simp only [simpleAct, queuePost, lt_setLt_same, setLt_setLt, bits_word (o := opPost) rfl w (show 12 ≤ 16 by decide),
    bits_word (o := opPost) rfl w (show 12 ≤ 24 by decide), bits_word (o := opPost) rfl w (show 12 ≤ 32 by decide),
    bits_word (o := opPost) rfl w (show 12 ≤ 48 by decide)]

/-- A post to a logical tile whose tile is ON and in service increments its counter (R346). -/
theorem post_serving {d : Device} {p l h : Nat} (hrun : (d.part p).isRunning = true) (hh : d.hostOf p l = some h)
    (hon : d.domOn h = true) (hin : d.tileOut h = false) (src : List Nat) (c n : Nat) : post d src p l c n = bumpCounter d src p l c n := by
  simp only [post, hrun, hh, hon, hin, Bool.not_true, Bool.not_false, Bool.and_self, Bool.false_eq_true, if_false, if_true]

/-- The post at the head of a logical tile's queue arrives once its stores are visible (R48). -/
theorem postArrive_head {p l : Nat} {d : Device} {q : Post} {qs : List Post} (hq : (d.lt p l).posts = q :: qs) (hhost : q.host = false)
    (hw : q.waits = []) : postArrive p l d = post (d.setLt p l { d.lt p l with posts := qs }) [l] p q.tgt q.ctr q.inc := by
  have hready := readyPost_head hq hw
  have hdrop := dropPost_head hq hw
  rw [hhost] at hready hdrop
  simp only [postArrive, hready, Device.modLt, hdrop]

@[simp] theorem lts_slotTrack (d : Device) (p : Nat) : (slotTrack d p).lts = d.lts := by
  unfold slotTrack
  dsimp only
  split
  · rfl
  · split <;> rfl

/-- A logical tile is an entry of the table of logical tiles alone. -/
theorem lt_of_lts {d e : Device} (h : e.lts = d.lts) (p l : Nat) : e.lt p l = d.lt p l := by
  unfold Device.lt; rw [h]

/-- A block once a counter stands at a value: a SYNC.WAIT of that counter whose target is reached is over (R49). -/
def Blocked.reached (c v : Nat) : Blocked → Blocked
  | .wait k g => if k = c && decide (g ≤ v) then .none else .wait k g
  | b => b

/-- An increment that does not carry past 0xFFFF_FFFF: the logical tile's counter and block after it. -/
theorem lt_bumpCounter {d : Device} {p l c n : Nat} (src : List Nat) (h : (tget 0 (d.lt p l).ctr c).toNat + n ≤ 0xFFFFFFFF) :
    (bumpCounter d src p l c n).lt p l =
      { d.lt p l with
        ctr := tset 0 (d.lt p l).ctr c (BitVec.ofNat 32 ((tget 0 (d.lt p l).ctr c).toNat + n)),
        block := (d.lt p l).block.reached c ((tget 0 (d.lt p l).ctr c).toNat + n) } := by
  unfold bumpCounter
  dsimp only
  rw [if_neg (Nat.not_lt.mpr h), lt_of_lts (lts_slotTrack _ _), lt_setLt_same]
  rfl

/-- Settles O7: the instructions by `issue_wait` and `issue_post`, the arrival by `postArrive_head`, the increment by `lt_bumpCounter`. -/
theorem countersWaitPostAndOverflow : Obligations.CountersWaitPostAndOverflow := by
  unfold Obligations.CountersWaitPostAndOverflow
  refine ⟨?commands, ?increment⟩
  case commands =>
    intro p l w s t
    refine ⟨fun hi hreach => ?goesOn, ?blocks, ?post, ?arrives⟩
    case goesOn => rw [exec_syncWait, issue_wait hi, if_pos hreach]; rfl
    case blocks =>
      intro h hi hbelow hh d
      obtain ⟨hrun, hsw⟩ := runs_of_issues hi hh
      have hwait : issue opWait p l w s.dev = if (s.dev.otherReady p h l).isSome then d.switching h else d := by
        rw [issue_wait hi, if_neg (Nat.not_le.mpr hbelow), ← otherReady_setLt s.dev p h l _]
        exact startSwitch_running (d := d) hh hrun hsw
      rw [exec_syncWait, hwait]
      exact ⟨fun hnone => by rw [if_neg (by simp [hnone])], fun hsome => by rw [if_pos (Option.isSome_iff_ne_none.mpr hsome)]; rfl⟩
    case post =>
      intro q hi
      rw [exec_syncPost, issue_post hi]; rfl
    case arrives =>
      intro q qs h u hq hhost hw hrun hh hon hin
      rw [exec_eventPostArrive, postArrive_head hq hhost hw]
      exact congrArg (fun d => Host.Outcome.next (s.withDev d))
        (post_serving (d := s.dev.setLt p l { u with posts := qs }) hrun hh hon hin _ _ _)
  case increment =>
    intro d src p l c n v
    refine ⟨fun hv => ?_, fun hover => ?_⟩
    · rw [lt_bumpCounter src hv]
      refine ⟨?_, fun k hk => tget_tset_other _ _ _ _ hk, fun g hg => ?_⟩
      · rw [tget_tset_same, BitVec.toNat_ofNat]; exact Nat.mod_eq_of_lt (by omega)
      · rw [hg]
        simp only [Blocked.reached, decide_true, Bool.true_and, decide_eq_true_eq]
        rfl
    · exact if_pos hover

end Sys2Proof.Machine
end

section
/-! PROOF. Two logical tiles on one physical tile (R43, R345, R346). -/
namespace Sys2Proof.Machine

theorem exec_timesliceExpiry (t : Fin 32) (s : State) : exec (.timesliceExpiry t) s = .next (s.withDev (timeslice t s.dev)) := rfl
theorem exec_tileSwitchDone (t : Fin 32) (s : State) :
    exec (.tileSwitchDone t) s = .next (s.withDev (retryAll (switchDone t s.dev))) := rfl

/-- The device once physical tile `t` has switched from logical tile `a` to `b`: nothing is cast on, and the switch is counted (R43). -/
def Device.switched (d : Device) (p t a b : Nat) : Device :=
  (((d.modLt p a LTile.noWeights).modLt p b LTile.noWeights).modTile t (fun x => { x with switching := false, run := b })).inc (fSwitches t)

/-- The end of a switch whose outgoing logical tile has no array operation left: it completes once the stack of the save area serves, which is
woken otherwise (R43, R346). -/
theorem switchDone_quiet {d : Device} {p t a b : Nat} (hp : (d.tile t).part = some p) (hh : (d.tile t).hosted = [a, b]) (hab : a ≠ b)
    (hrun : (d.tile t).run = a) (hsw : (d.tile t).switching = true) (harr : (d.lt p a).arr = []) :
    switchDone t d = if d.canSave p t then d.switched p t a b else wakeDom d (32 + d.saveStack t) 5 := by
  have hother : ([a, b] : List Nat).find? (· ≠ a) = some b := by simp [Ne.symm hab]
  simp only [switchDone, hp, hh, hrun, hsw, harr, hother, List.isEmpty_nil, Bool.and_self, if_true]
  cases d.canSave p t with
  | false => simp
  | true => simp [Device.switched]

theorem tile_switched (d : Device) (p t a b : Nat) :
    (d.switched p t a b).tile t = { d.tile t with switching := false, run := b } := by
  unfold Device.switched
  rw [tile_inc, tile_modTile_same]; rfl

theorem mems_switched (d : Device) (p t a b : Nat) : (d.switched p t a b).mems = d.mems := by
  unfold Device.switched
  rw [mems_inc, mems_modTile, mems_modLt, mems_modLt]

theorem rd_switched (d : Device) (p t a b : Nat) : (d.switched p t a b).rd (fSwitches t) = min (d.rd (fSwitches t) + 1) 65535 :=
  rd_inc _ (fSwitches t) 1 ⟨Nat.zero_le _, show 15 < 64 by decide⟩

/-- The end of a time slice switches to the hosted logical tile that does not wait (R43). -/
theorem timeslice_ready {d : Device} {p t a b : Nat} (hp : (d.tile t).part = some p) (hh : (d.tile t).hosted = [a, b]) (hab : a ≠ b)
    (hrun : (d.tile t).run = a) (hwork : (d.part p).isRunning = true) (hhost : d.hostOf p a = some t) (hsw : (d.tile t).switching = false)
    (hb : (d.lt p b).block = .none) : timeslice t d = d.switching t := by
  have hready : d.otherReady p t a = some b := by simp [Device.otherReady, hh, hb, Ne.symm hab]
  simp only [timeslice, hp, hwork, hrun, if_true]
  rw [startSwitch_running hhost hrun hsw, hready]
  rfl

/-- Settles O9, by `timeslice_ready` and `switchDone_quiet`. -/
theorem hostedTilesSwitch : Obligations.HostedTilesSwitch := by
  unfold Obligations.HostedTilesSwitch
  intro t s p a b x hp hh hab hrun
  refine ⟨fun hwork hhost hsw hb => ?slice, fun hsw harr hsave => ⟨s.dev.switched p t a b, ?done, ?run⟩, fun hsw harr hsave => ?waits⟩
  case slice => rw [exec_timesliceExpiry, timeslice_ready hp hh hab hrun hwork hhost hsw hb]; rfl
  case done => rw [exec_tileSwitchDone, switchDone_quiet hp hh hab hrun hsw harr, if_pos hsave]
  case run =>
    rw [tile_switched]
    have hmems := mems_switched s.dev p t a b
    exact ⟨rfl, rfl, rd_switched s.dev p t a b, congrArg Prod.fst hmems, congrArg Prod.snd hmems⟩
  case waits => rw [exec_tileSwitchDone, switchDone_quiet hp hh hab hrun hsw harr, if_neg (by simp [hsave])]

end Sys2Proof.Machine
end

section
/-! PROOF. The start of a work item (R33, R45). -/
namespace Sys2Proof.Machine

theorem exec_workItemStart (p : Fin 8) (s : State) : exec (.workItemStart p) s = .next (s.withDev (itemStart p s.dev)) := rfl

/-- The item at the head of the queue starts where its tiles and its program serve (R33). -/
theorem itemStart_serving {p : Nat} {d : Device} {w : WorkItem} {ws : List WorkItem} (hw : (d.part p).wis = w :: ws)
    (hq : w.state = .queued) (hseam : (d.part p).seam = .none) (hcfg : d.rd fCfgState ≠ 1) (hmode : d.rd fMode = 2)
    (hhost : d.canHost p = true) (hon : (d.usableTiles p).all d.domOn = true) (hreach : d.reach p (d.part p).prog = true) :
    itemStart p d = startItem p w d := by
  simp only [itemStart, hw, hq, hseam, hcfg, hmode, hhost, hon, hreach, ne_eq, not_true_eq_false, decide_false, Bool.or_self,
    Bool.not_true, Bool.and_self, Bool.false_eq_true, if_false, if_true]

-- The logical tiles.

/-- What a logical tile's start leaves alone: the partitions and every byte behind a handle. -/
def Device.launchpad (d : Device) : Tab Part × Mem := (d.parts, d.mem)

theorem launchpad_startLt (p : Nat) (w : WorkItem) (d : Device) (l : Nat) : (startLt p w d l).launchpad = d.launchpad := rfl
theorem launchpad_startLts (p : Nat) (w : WorkItem) (ls : List Nat) (d : Device) :
    (ls.foldl (startLt p w) d).launchpad = d.launchpad := foldl_keeps Device.launchpad _ (launchpad_startLt p w) _ _

/-- A logical tile as its work item starts it, at the offset that the entry table of the program gives (R34, R45). -/
def Device.started (d : Device) (p : Nat) (w : WorkItem) (l : Nat) : LTile :=
  LTile.start (d.part p) w l (fld (d.hRead p (d.part p).prog (8 * l) 8) 0 8)

/-- How a logical tile starts depends on its partition and on the bytes behind handles alone. -/
theorem started_of_launchpad {d e : Device} (h : e.launchpad = d.launchpad) (p : Nat) (w : WorkItem) (l : Nat) :
    e.started p w l = d.started p w l := by
  simp only [Device.launchpad, Prod.mk.injEq] at h
  obtain ⟨hparts, hmem⟩ := h
  unfold Device.started Device.hRead
  rw [part_of_parts hparts, hmem]

/-- The device with a logical tile's scratchpad cleared. -/
def Device.blanked (d : Device) (p l : Nat) : Device := { d with spad := mclear d.spad (spKey p l 0) spadSize }

theorem startLt_eq (p : Nat) (w : WorkItem) (d : Device) (l : Nat) :
    startLt p w d l = (d.blanked p l).setLt p l (d.started p w l) := rfl

theorem lt_startLt (p : Nat) (w : WorkItem) (d : Device) (k l : Nat) :
    (startLt p w d k).lt p l = if l = k then d.started p w k else d.lt p l := by
  rw [startLt_eq]
  split
  · subst l; rw [lt_setLt_same]
  · exact lt_setLt_other _ _ (by unfold ltKey; omega)

/-- Each logical tile that is started, whatever the order, begins as its entry and registers say (R45). -/
theorem lt_startLts {p l : Nat} (w : WorkItem) {ls : List Nat} (hl : l ∈ ls) (d : Device) :
    (ls.foldl (startLt p w) d).lt p l = d.started p w l := by
  induction ls using List.reverseRecOn generalizing d with
  | nil => cases hl
  | append_singleton ls k ih =>
    rw [List.foldl_concat, lt_startLt]
    split
    · subst l; exact started_of_launchpad (launchpad_startLts p w ls d) p w k
    · rename_i hk
      rw [List.mem_append, List.mem_singleton, or_iff_left hk] at hl
      exact ih hl d

/-- The scratchpad of each logical tile that is started reads 0 (R45). -/
theorem spad_startLts {p l o : Nat} (w : WorkItem) {ls : List Nat} (hl : l ∈ ls) (ho : o < spadSize) (d : Device) :
    mget (ls.foldl (startLt p w) d).spad (spKey p l o) = 0 := by
  induction ls using List.reverseRecOn generalizing d with
  | nil => cases hl
  | append_singleton ls k ih =>
    rw [List.foldl_concat, startLt_eq, setLt_spad]
    unfold Device.blanked
    dsimp only
    by_cases hk : l = k
    · subst hk
      exact mget_mclear_inside _ (by unfold spKey; omega) (by unfold spKey; omega)
    · rw [List.mem_append, List.mem_singleton, or_iff_left hk] at hl
      exact mget_mclear_zero _ _ (ih hl d)

-- The physical tiles.

/-- What the physical tiles that turn to their logical tiles leave alone: these, the partitions and all memory. -/
def Device.crew (d : Device) : Tab Part × Tab LTile × Mem × Mem := (d.parts, d.lts, d.mems)

theorem crew_startTile (id : Nat) (d : Device) (t : Nat) : (startTile id d t).crew = d.crew := by
  unfold startTile Device.crew
  rw [wr_parts, wr_parts, modTile_parts, wr_lts, wr_lts, modTile_lts, mems_wr, mems_wr, mems_modTile]

theorem crew_startTiles (id : Nat) (ts : List Nat) (d : Device) : (ts.foldl (startTile id) d).crew = d.crew :=
  foldl_keeps Device.crew _ (crew_startTile id) _ _

-- The work item.

/-- The partition as its next work item begins to run: nothing of the one before is left (R33, R206). -/
def Part.begun (P : Part) (w : WorkItem) : Part :=
  { P with
    wis := replaceFirst (fun v => decide (v.id = w.id)) (fun v => { v with state := .running }) P.wis, tornStep := none, yieldAt := [],
    gone := P.gone.filter (fun k => decide (k.2 < w.startStep)), lastGrant := none, stalled := false, walks := [], woke := false }
/-- A partition with no slot in its pool. -/
def Part.unpooled (P : Part) : Part := { P with pool := [] }

/-- The device as a work item begins to run, before its logical tiles start. -/
def Device.readied (d : Device) (p : Nat) (w : WorkItem) : Device :=
  ((setPool (dropHeld (d.modPart p (·.begun w)) p) p []).wr (fGrants p) 0).wr (fLastSlot p) 0

theorem parts_dropHeld (d : Device) (p : Nat) : (dropHeld d p).parts = d.parts :=
  foldl_keeps Device.parts _ (fun d t => modDom_parts d t _) _ _
theorem mems_dropHeld (d : Device) (p : Nat) : (dropHeld d p).mems = d.mems :=
  foldl_keeps Device.mems _ (fun d t => mems_modDom d t _) _ _

theorem part_readied (d : Device) (p : Nat) (w : WorkItem) : (d.readied p w).part p = ((d.part p).begun w).unpooled := by
  unfold Device.readied setPool
  simp only [part_wr, part_modPart_same, part_of_parts (parts_dropHeld _ p)]
  rfl

theorem mems_readied (d : Device) (p : Nat) (w : WorkItem) : (d.readied p w).mems = d.mems := by
  unfold Device.readied
  rw [mems_wr, mems_wr, mems_setPool, mems_dropHeld, mems_modPart]

@[simp] theorem lts_begun (P : Part) (w : WorkItem) : (P.begun w).unpooled.lts = P.lts := rfl
@[simp] theorem prog_begun (P : Part) (w : WorkItem) : (P.begun w).unpooled.prog = P.prog := rfl

/-- The item at the head of the queue is the one that runs. -/
theorem wis_begun {P : Part} {w : WorkItem} {ws : List WorkItem} (h : P.wis = w :: ws) :
    (P.begun w).unpooled.wis = { w with state := .running } :: ws := by
  simp [Part.unpooled, Part.begun, h, replaceFirst]

/-- The device with the logical tiles of a partition started. -/
def Device.manned (d : Device) (p : Nat) (w : WorkItem) : Device := (d.part p).lts.foldl (startLt p w) (d.readied p w)

theorem startItem_inStep {p : Nat} {w : WorkItem} {d : Device} (h : (d.part p).step = w.startStep) :
    startItem p w d = ((d.manned p w).usableTiles p).foldl (startTile w.id) (d.manned p w) := by
  have hlts : ((d.readied p w).part p).lts = (d.part p).lts := by rw [part_readied, lts_begun]
  unfold Device.manned
  rw [← hlts]
  unfold startItem
  rw [if_pos h]
  rfl

theorem launchpad_manned (d : Device) (p : Nat) (w : WorkItem) : (d.manned p w).launchpad = (d.readied p w).launchpad :=
  launchpad_startLts p w _ _

theorem part_manned (d : Device) (p : Nat) (w : WorkItem) : (d.manned p w).part p = ((d.part p).begun w).unpooled :=
  (part_of_parts (congrArg Prod.fst (launchpad_manned d p w)) p).trans (part_readied d p w)

theorem mem_manned (d : Device) (p : Nat) (w : WorkItem) : (d.manned p w).mem = d.mem :=
  (congrArg Prod.snd (launchpad_manned d p w)).trans (congrArg Prod.fst (mems_readied d p w))

theorem lt_manned {d : Device} {p l : Nat} (w : WorkItem) (hl : l ∈ (d.part p).lts) : (d.manned p w).lt p l =
    LTile.start ((d.part p).begun w).unpooled w l (fld (d.hRead p (d.part p).prog (8 * l) 8) 0 8) := by
  have hmem : (d.readied p w).mem = d.mem := congrArg Prod.fst (mems_readied d p w)
  unfold Device.manned
  rw [lt_startLts w hl]
  unfold Device.started Device.hRead
  rw [part_readied, prog_begun, hmem]

/-- Settles O37: `startItem_inStep` gives the order of the start, and `lt_manned` and `spad_startLts` each logical tile after it. -/
theorem workItemStarts : Obligations.WorkItemStarts := by
  unfold Obligations.WorkItemStarts
  intro p s w ws P hw hq hseam hcfg hmode hhost hon hreach hstep
  have hcrew := crew_startTiles w.id ((s.dev.manned p w).usableTiles p) (s.dev.manned p w)
  rw [← startItem_inStep hstep] at hcrew
  simp only [Device.crew, Device.mems, Prod.mk.injEq] at hcrew
  obtain ⟨hparts, hlts, hmem, hspad⟩ := hcrew
  refine ⟨startItem p w s.dev, ?exec, ?wis, fun l hl => ⟨(P.begun w).unpooled, ?lt, rfl, fun o ho => ?spad⟩,
    hmem.trans (mem_manned s.dev p w)⟩
  case exec => rw [exec_workItemStart, itemStart_serving hw hq hseam hcfg hmode hhost hon hreach]
  case wis => rw [part_of_parts hparts, part_manned, wis_begun hw]
  case lt => rw [lt_of_lts hlts, lt_manned w hl]
  case spad => rw [hspad]; exact spad_startLts w hl ho _

end Sys2Proof.Machine
end

section
/-! PROOF. The stop of a logical tile (R55, R108). -/
namespace Sys2Proof.Machine

theorem exec_tileStop (p : Fin 8) (l : Fin 32) (s : State) : exec (.tileStop p l) s = .next (s.withDev (tileStop p l s.dev)) := rfl

/-- In a stopped step a logical tile whose stores are done stops its arrays and leaves its links (R55, R108, R168). -/
theorem tileStop_stopping {p l : Nat} {d : Device} (hrun : (d.part p).isRunning = true) (hseam : (d.part p).seam = .none)
    (hstop : (d.part p).stopping = true) (hl : l < (d.part p).ltCount) (hon : d.ltOn p l = true) (hb : (d.lt p l).block ≠ .stopped)
    (hdone : (d.lt p l).storesDone ((d.part p).walking l) = true) : tileStop p l d = stopLinks p l (stopArrays p l d) := by
  simp only [tileStop, hrun, hseam, hstop, Nat.not_le.mpr hl, hon, hb, hdone, ne_eq, not_true_eq_false, decide_false, Bool.not_true,
    Bool.or_self, Bool.false_eq_true, if_false, if_true]

/-- An arrays' queue without walks names none. -/
theorem walkIds_nil {t : LTile} (h : ∀ o ∈ t.arr, ∀ i w cf, o ≠ .walk i w cf) : t.walkIds = [] := by
  refine List.filterMap_eq_nil_iff.mpr (fun o ho => ?_)
  cases o with
  | walk i w cf => exact absurd rfl (h _ ho i w cf)
  | _ => rfl

/-- A logical tile whose arrays have stopped: its queue, groups and pass record are gone (R108). -/
def LTile.stopped (t : LTile) : LTile :=
  { t.shed with arr := [], ags := [], groups := [], passes := [], begun := [], wact := none, wsh := none, hold := none, block := .stopped }

/-- A partition without the walks that are over for every tile of their mask. -/
def Part.walksLeft (P : Part) : Part := { P with walks := P.walks.filter (fun w => !(maskLts w.mask).all (fun m => w.done.contains m)) }

/-- The arrays of a logical tile with no pass broadcasting and no walk in its queue stop: the logical tile changes, and its partition's walks
that are over go. -/
theorem stopArrays_idle {p l : Nat} {d : Device} (hbegun : (d.lt p l).begun = []) (hwalk : (d.lt p l).walkIds = []) :
    stopArrays p l d = (d.modPart p Part.walksLeft).setLt p l (d.lt p l).stopped := by
  simp only [stopArrays, hbegun, hwalk, List.length_nil, List.range_zero, List.foldl_nil, List.contains_nil, Bool.false_eq_true,
    if_false, List.map_id']
  rw [if_neg (by simp)]
  exact modLt_setLt (d.modPart p Part.walksLeft) p l (d.lt p l).shed _

/-- With no link of the partition and its VOID already sent, a stopped logical tile leaves nothing to the exchange engines. -/
theorem stopLinks_none {p l : Nat} {d : Device} (hlinks : (d.part p).links = []) (hvoid : (d.part p).voidSent = true) :
    stopLinks p l d = d := by
  simp [stopLinks, zeroLinks, sendVoid, settle, hlinks, hvoid]

/-- Settles O38, by `stopArrays_idle` and `stopLinks_none`. -/
theorem tileStops : Obligations.TileStops := by
  unfold Obligations.TileStops
  intro p l s P t hrun hseam hstop hl hon hb hdone hbegun hwalk hlinks hvoid
  let e := (s.dev.modPart p Part.walksLeft).setLt p l t.stopped
  have hpart : e.part p = P.walksLeft := part_modPart_same s.dev p Part.walksLeft
  have hlt : e.lt p l = t.stopped := lt_setLt_same _ _ _ _
  refine ⟨e, ?_, by rw [hlt]; rfl, by rw [hlt]; rfl, by rw [hlt]; rfl, by rw [hlt]; rfl, rfl, rfl, rfl⟩
  rw [exec_tileStop, tileStop_stopping hrun hseam hstop hl hon hb hdone, stopArrays_idle hbegun (walkIds_nil hwalk),
    stopLinks_none (d := e) (by rw [hpart]; exact hlinks) (by rw [hpart]; exact hvoid)]

end Sys2Proof.Machine
end

section
/-! SUPPORT. What an instruction that issues does, by the shape of its effect: it writes its logical tile, or is handed to a unit (R61 to R65). -/
namespace Sys2Proof.Machine

/-- Replacing a field leaves what lies below it alone. -/
theorem setBits_mod (w hi lo v : Nat) : setBits w hi lo v % 2 ^ lo = w % 2 ^ lo := by
  have hle : bits w hi lo * 2 ^ lo ≤ w :=
    (Nat.mul_le_mul_right _ (Nat.mod_le _ _)).trans (Nat.div_mul_le_self _ _)
  unfold setBits
  rw [Nat.add_mul_mod_self_right, Nat.mul_comm, Nat.sub_mul_mod (by rwa [Nat.mul_comm])]

/-- A field below the one replaced reads as before. -/
theorem bits_setBits_below {w hi lo v hi' lo' : Nat} (hl : lo' ≤ hi') (h : hi' < lo) : bits (setBits w hi lo v) hi' lo' = bits w hi' lo' := by
  refine Nat.eq_of_testBit_eq (fun i => ?_)
  rw [testBit_bits, testBit_bits]
  by_cases hi1 : i < hi' - lo' + 1
  · have hbit (x : Nat) : x.testBit (lo' + i) = (x % 2 ^ lo).testBit (lo' + i) := by
      rw [Nat.testBit_mod_two_pow, decide_eq_true (show lo' + i < lo by omega), Bool.true_and]
    rw [hbit, setBits_mod, ← hbit]
  · simp [hi1]

/-- The row of an instruction that fixes one field beside its class and opcode leaves the fields apart from that to the word. -/
theorem bits_word_fix {o : Op} {a b v : Nat} (hfix : o.fix = [(a, b, v)]) (w : BitVec 128) {hi lo : Nat} (hb : b ≤ a) (hl : lo ≤ hi)
    (h : 12 ≤ lo) (hd : a < lo ∨ hi < b) : bits (o.word w) hi lo = bits w.toNat hi lo := by
  have hrow : bits (setBits (setBits w.toNat 3 0 o.cls) 11 4 o.opc) hi lo = bits w.toNat hi lo := by
    rw [bits_setBits_above (by omega) (by omega), bits_setBits_above (by omega) (by omega)]
  unfold Op.word
  rw [hfix, List.foldl_cons, List.foldl_nil]
  rcases hd with hd | hd
  · rw [bits_setBits_above hb hd, hrow]
  · rw [bits_setBits_below hl hd, hrow]

/-- A single bit of the word, for an instruction that fixes its class and opcode alone. -/
theorem bit_word {o : Op} (hfix : o.fix = []) (w : BitVec 128) {i : Nat} (h : 12 ≤ i) : bit (o.word w) i = bit w.toNat i := by
  unfold bit; rw [bits_word hfix w h]

/-- The completion field of the word. -/
theorem cfOf_word {o : Op} (hfix : o.fix = []) (w : BitVec 128) : cfOf (o.word w) = cfOf w.toNat := by
  simp only [cfOf, bit_word hfix, bits_word hfix, Nat.reduceLeDiff]

/-- A logical tile once an instruction has been handed to a unit: the next word, the next operation number. -/
def LTile.issued (t : LTile) : LTile := { t.advance with nextOp := t.nextOp + 1 }

section
variable {p : Fin 8} {l : Fin 32} {w : BitVec 128} {s : State} {c : Instr} {o : Op}

/-- An instruction that issues has its opcode's effect on the logical tile that holds nothing back. -/
theorem exec_issued (hc : exec c s = .next (s.withDev (issue o p l w s.dev))) (h : s.dev.issues o p l w = true) :
    exec c s = .next (s.withDev (o.act p l (o.word w) (s.dev.setLt p l (s.tileAt p l)))) := by
  rw [hc, issue_of_issues h]; rfl

/-- An instruction that changes its logical tile alone and moves on. -/
theorem exec_simple {f : Nat → LTile → LTile} (hc : exec c s = .next (s.withDev (issue o p l w s.dev))) (hact : o = { o with act := simpleAct f })
    (h : s.dev.issues o p l w = true) : exec c s = .next (s.withLt p l (f (o.word w) (s.tileAt p l)).advance) := by
  rw [exec_issued hc h, congrArg Op.act hact]
  change Host.Outcome.next (s.withDev ((s.dev.setLt p l (s.tileAt p l)).modLt p l (fun t => (f (o.word w) t).advance))) = _
  rw [modLt_setLt]; rfl

/-- An instruction that changes its logical tile alone, its pc among it. -/
theorem exec_modLt {f : Nat → LTile → LTile} (hc : exec c s = .next (s.withDev (issue o p l w s.dev)))
    (hact : o = { o with act := fun p l w d => d.modLt p l (f w) }) (h : s.dev.issues o p l w = true) :
    exec c s = .next (s.withLt p l (f (o.word w) (s.tileAt p l))) := by
  rw [exec_issued hc h, congrArg Op.act hact]
  exact congrArg (fun d => Host.Outcome.next (s.withDev d)) (modLt_setLt _ _ _ _ _)

/-- An instruction that is handed to a unit. -/
theorem exec_unit {f : Nat → Nat → Nat → Nat → Device → Device} (hc : exec c s = .next (s.withDev (issue o p l w s.dev)))
    (hact : o = { o with act := unitAct f }) (h : s.dev.issues o p l w = true) :
    exec c s = .next (s.withDev (f (s.tileAt p l).nextOp p l (o.word w) (s.dev.setLt p l (s.tileAt p l).issued))) := by
  rw [exec_issued hc h, congrArg Op.act hact]
  simp only [unitAct, lt_setLt_same, setLt_setLt, LTile.issued]

end

end Sys2Proof.Machine
end

section
/-! PROOF. Instructions that write one register (R70, R72, R76). -/
namespace Sys2Proof.Machine

/-- The second operand of CTL.SOP and CTL.SCMP is one of the word's own fields. -/
theorem sopB_word {o : Op} (hfix : o.fix = []) (t : LTile) (w : BitVec 128) : sopB t (o.word w) = sopB t w.toNat := by
  simp only [sopB, bit_word hfix, bits_word hfix, Nat.reduceLeDiff]

/-- Settles O3, by `exec_simple`: what each instruction writes reads fields that its row leaves to the word. -/
theorem registerInstructionsWriteOneRegister : Obligations.RegisterInstructionsWriteOneRegister := by
  unfold Obligations.RegisterInstructionsWriteOneRegister
  intro p l w s t
  refine ⟨fun h => ?movi, fun h => ?sop, fun h => ?scmp, fun h => ?set, fun h => ?add, fun h => ?get, fun h => ?rd⟩
  case movi =>
    rw [exec_simple (o := opMovi) rfl rfl h]
    simp only [bits_word (o := opMovi) rfl, Nat.reduceLeDiff, t]
  case sop =>
    rw [exec_simple (o := opSop) rfl rfl h]
    simp only [bits_word (o := opSop) rfl, sopB_word (o := opSop) rfl, Nat.reduceLeDiff, t]
  case scmp =>
    rw [exec_simple (o := opScmp) rfl rfl h]
    simp only [bits_word (o := opScmp) rfl, sopB_word (o := opScmp) rfl, Nat.reduceLeDiff, t]
  case set =>
    rw [exec_simple (o := opAopSet) rfl rfl h]
    simp [bits_word_fix (o := opAopSet) rfl, t]
  case add =>
    rw [exec_simple (o := opAopAdd) rfl rfl h]
    simp [bit, bits_word_fix (o := opAopAdd) rfl, t]
  case get =>
    rw [exec_simple (o := opAopGet) rfl rfl h]
    simp [bits_word_fix (o := opAopGet) rfl, t]
  case rd =>
    rw [exec_simple (o := opRd) rfl rfl h]
    simp only [bits_word (o := opRd) rfl, Nat.reduceLeDiff, t]

end Sys2Proof.Machine
end

section
/-! PROOF. The sequencer's flow (R63, R64, R69, R70, R73 to R75). -/
namespace Sys2Proof.Machine

/-- The target of a branch or a call is one of its word's own fields. -/
theorem branchTarget_word {o : Op} (hfix : o.fix = []) (pc : Nat) (w : BitVec 128) : branchTarget pc (o.word w) = branchTarget pc w.toNat := by
  simp only [branchTarget, bits_word hfix, Nat.reduceLeDiff]

/-- Returning pops the offset on top of the call stack and ends the loops opened at its level (R73, R74). -/
theorem ret_of_calls {t : LTile} {r : Nat} {rs : List Nat} (h : t.calls = r :: rs) :
    t.ret = { t with calls := rs, pc := r, loops := t.loops.filter (fun k => decide (k.level ≠ rs.length + 1)) } := by
  simp only [LTile.ret, h, List.length_cons]

/-- Settles O4, by `exec_simple` and `exec_modLt`. -/
theorem flowInstructionsMoveThePc : Obligations.FlowInstructionsMoveThePc := by
  unfold Obligations.FlowInstructionsMoveThePc
  intro p l w s t
  refine ⟨fun h => exec_simple (o := opNop) rfl rfl h, fun h => ?br, fun h => ?call, fun r rs hcalls h => ?ret⟩
  case br =>
    rw [exec_modLt (o := opBr) rfl rfl h]
    simp only [branchTarget_word (o := opBr) rfl, t]
  case call =>
    rw [exec_modLt (o := opCall) rfl rfl h]
    simp only [branchTarget_word (o := opCall) rfl, t]
  case ret => rw [exec_modLt (o := opRet) rfl rfl h, ret_of_calls hcalls]

/-- COUNT and BODY of a CTL.LOOP are its word's own fields. -/
theorem loopCount_word (t : LTile) (w : BitVec 128) : loopCount t (opLoop.word w) = loopCount t w.toNat := by
  simp only [loopCount, bit_word (o := opLoop) rfl, bits_word (o := opLoop) rfl, Nat.reduceLeDiff]
theorem loopBody_word (w : BitVec 128) : loopBody (opLoop.word w) = bits w.toNat 79 56 :=
  bits_word (o := opLoop) rfl w (by decide)

/-- A CTL.LOOP opens a loop over its body, or passes over it where its count is 0 (R74). -/
theorem exec_ctlLoop {p : Fin 8} {l : Fin 32} {w : BitVec 128} {s : State} (h : s.dev.issues opLoop p l w = true) :
    exec (.ctlLoop p l w) s = .next (s.withLt p l (loopStart (opLoop.word w) (s.tileAt p l))) := exec_modLt (o := opLoop) rfl rfl h

/-- A CTL.SEAM holds its logical tile at the seam; the physical tile may then switch (R43, R75). -/
theorem exec_ctlSeam {p : Fin 8} {l : Fin 32} {w : BitVec 128} {s : State} (h : s.dev.issues opSeam p l w = true) :
    exec (.ctlSeam p l w) s = .next (s.withDev (startSwitch
      (s.dev.setLt p l { (s.tileAt p l).advance with block := .seam (bits w.toNat 21 16) }) p l)) := by
  rw [exec_issued (o := opSeam) rfl h, ← bits_word (o := opSeam) rfl w (show 12 ≤ 16 by decide)]
  exact congrArg (fun d => Host.Outcome.next (s.withDev (startSwitch d p l))) (modLt_setLt _ _ _ _ _)

/-- Settles O5: CTL.LOOP by the two cases of `loopStart`, CTL.SEAM by those of `startSwitch_running`. -/
theorem loopSeamAndHint : Obligations.LoopSeamAndHint := by
  unfold Obligations.LoopSeamAndHint
  intro p l w s t
  refine ⟨fun hi hcount => ?opens, fun hi hcount => ?passes, ?seam, fun hi => exec_simple (o := opHint) rfl rfl hi⟩
  case opens =>
    rw [exec_ctlLoop hi, loopStart, loopCount_word, loopBody_word, if_neg hcount]
  case passes =>
    rw [exec_ctlLoop hi, loopStart, loopCount_word, if_pos hcount, loopSkip, loopBody_word]
  case seam =>
    intro h hi hh d
    obtain ⟨hrun, hsw⟩ := runs_of_issues hi hh
    have hswitch : startSwitch d p l = if (s.dev.otherReady p h l).isSome then d.switching h else d := by
      rw [← otherReady_setLt s.dev p h l _]
      exact startSwitch_running (d := d) hh hrun hsw
    rw [exec_ctlSeam hi]
    change (_ → Host.Outcome.next (s.withDev (startSwitch d p l)) = _) ∧ (_ → Host.Outcome.next (s.withDev (startSwitch d p l)) = _)
    rw [hswitch]
    exact ⟨fun hnone => by rw [if_neg (by simp [hnone])], fun hsome => by rw [if_pos (Option.isSome_iff_ne_none.mpr hsome)]; rfl⟩

/-- No register is waited for where no operation is still to write one. -/
theorem waits_of_no_pendingRegs {t : LTile} (h : t.pendingRegs = []) (rs : List RegRef) : t.waits rs = false := by
  simp [LTile.waits, h]

/-- Settles O6: each clause names the first of the tests of `issue` that fails. -/
theorem wordsThatDoNotIssue : Obligations.WordsThatDoNotIssue := by
  unfold Obligations.WordsThatDoNotIssue
  intro o p l w d hcan
  refine ⟨fun hpc => ?bounds, fun hpc => ?inside⟩
  case bounds => simp [issue, hcan, hpc]
  case inside =>
    have hpc' := Nat.not_le.mpr hpc
    refine ⟨fun hlegal => ?illegal, fun hlegal hnone => ?decodes, fun hlegal hpsel htakes hwaits => ?register⟩
    case illegal => simp [issue, hcan, hpc', hlegal]
    case decodes =>
      have hfree := waits_of_no_pendingRegs hnone
      refine ⟨fun htakes => ?skip, fun htakes hfull => ?full, fun htakes hfull hcheck => ?check, fun htakes hfull hcheck hserved => ?memory⟩
      case skip => simp [issue, hcan, hpc', hlegal, hfree, htakes]
      case full => simp [issue, hcan, hpc', hlegal, hfree, htakes, hfull]
      case check => simp [issue, hcan, hpc', hlegal, hfree, htakes, hfull, hcheck]
      case memory => simp [issue, hcan, hpc', hlegal, hfree, htakes, hfull, hcheck, hserved]
    case register => simp [issue, hcan, hpc', hlegal, hpsel, htakes, hwaits]

end Sys2Proof.Machine
end

section
/-! SUPPORT. What an operation handed to a unit reads of its logical tile: the registers and queues as they stand before (R65). -/
namespace Sys2Proof.Machine

section
variable (t : LTile)

@[simp] theorem issued_sreg (i : Nat) : t.issued.sreg i = t.sreg i := rfl
@[simp] theorem issued_areg (i : Nat) : t.issued.areg i = t.areg i := rfl
@[simp] theorem issued_vreg (i : Nat) : t.issued.vreg i = t.vreg i := rfl
@[simp] theorem issued_queue (e : Nat) : t.issued.queue e = t.queue e := rfl
@[simp] theorem issued_ags : t.issued.ags = t.ags := rfl
@[simp] theorem issued_upd : t.issued.upd = t.upd := rfl

end

end Sys2Proof.Machine
end

section
/-! PROOF. The vector unit: VEC operations are queued and end (R67, R69, R86, R87, R371). -/
namespace Sys2Proof.Machine

-- Operands.

section
variable {o : Op} (hfix : o.fix = []) (t : LTile) (w : BitVec 128)
include hfix

theorem vTy_word : vTy (o.word w) = bits w.toNat 37 36 := bits_word hfix w (by decide)
theorem vA_word : vA t (o.word w) = t.vreg (bits w.toNat 25 21) := by rw [vA, bits_word hfix w (by decide)]
theorem vB_word : vB t (o.word w) = vB t w.toNat := by
  simp only [vB, vTy, bit_word hfix, bits_word hfix, Nat.reduceLeDiff]
theorem vC_word : vC t (o.word w) = t.vreg (bits w.toNat 35 31) := by rw [vC, bits_word hfix w (by decide)]

end

/-- The second operand is read before the operation is handed over. -/
@[simp] theorem issued_vB (t : LTile) (w : Nat) : vB t.issued w = vB t w := rfl

-- Issue.

/-- A logical tile whose vector unit has been handed an operation. -/
def LTile.vecQueued (t : LTile) (opc : Nat) (a : VecDo) : LTile :=
  { t.advance with nextOp := t.nextOp + 1, vec := t.vec ++ [{ id := t.nextOp, opc := opc, act := a }] }

section
variable {p : Fin 8} {l : Fin 32} {w : BitVec 128} {s : State} {c : Instr}

/-- An operation handed to the vector unit joins its queue with its operands as they stand at issue (R67). -/
theorem exec_vecAct {o : Op} {opc : Nat} {f : LTile → Nat → VecDo} (hc : exec c s = .next (s.withDev (issue o p l w s.dev)))
    (hact : o = { o with act := unitAct (vecAct opc f) }) (h : s.dev.issues o p l w = true) :
    exec c s = .next (s.withLt p l ((s.tileAt p l).vecQueued opc (f (s.tileAt p l).issued (o.word w)))) := by
  rw [exec_unit hc hact h, vecAct, modLt_setLt]; rfl

/-- An opcode with vector operands queues its result of every lane (R86, R87, R134). -/
theorem exec_lanes {opc n : Nat} {tys : List Nat} {f : Nat → Nat → Nat → Nat → Nat}
    (hc : exec c s = .next (s.withDev (issue (opVec opc n tys f) p l w s.dev))) (h : s.dev.issues (opVec opc n tys f) p l w = true) :
    exec c s = .next (s.withLt p l ((s.tileAt p l).vecQueued opc (.reg (bits w.toNat 20 16)
      (List.zipWith (fun a bc => laneOp (bits w.toNat 37 36) (f (bits w.toNat 37 36)) a bc.1 bc.2) ((s.tileAt p l).vreg (bits w.toNat 25 21))
        ((vB (s.tileAt p l) w.toNat).zip ((s.tileAt p l).vreg (bits w.toNat 35 31))))))) := by
  have hfix : (opVec opc n tys f).fix = [] := rfl
  rw [exec_vecAct hc rfl h]
  simp only [vTy_word hfix, vA_word hfix, vB_word hfix, vC_word hfix, bits_word hfix, Nat.reduceLeDiff, issued_vreg, issued_vB]

/-- A reduction queues its scalar result (R87). -/
theorem exec_reduction {opc : Nat} {tys : List Nat} {f : Nat → List (BitVec 32) → Nat}
    (hc : exec c s = .next (s.withDev (issue (opRed opc tys f) p l w s.dev))) (h : s.dev.issues (opRed opc tys f) p l w = true) :
    exec c s = .next (s.withLt p l ((s.tileAt p l).vecQueued opc (.scal (bits w.toNat 54 49)
      (BitVec.ofNat 64 (f (bits w.toNat 37 36) ((s.tileAt p l).vreg (bits w.toNat 25 21)) % 2 ^ 32))))) := by
  have hfix : (opRed opc tys f).fix = [] := rfl
  rw [exec_vecAct hc rfl h]
  simp only [vTy_word hfix, vA_word hfix, bits_word hfix, Nat.reduceLeDiff, issued_vreg]

end

-- The end of an operation.

/-- Operations of a tile that find no error are told so by nothing. -/
@[simp] theorem tileFound_none (d : Device) (p l opc : Nat) : tileFound d p l opc .none = d := by
  unfold tileFound
  split <;> rfl

/-- The operation at the head of the vector unit's queue ends, in a unit in service and with no error met (R69, R371). -/
theorem vecEnd_clean (p : Nat) (l : Fin 32) (o : VecOp) (os : List VecOp) (f : Device → Device) (d : Device) :
    vecEnd p ⟨l, .none, none⟩ o os f d = f (d.setLt p l { d.lt p l with vec := os }) := by
  simp only [vecEnd, tileFound_none]; rfl

section
variable {p : Fin 8} {l : Fin 32} {s : State} {id opc : Nat} {a : VecDo} {os : List VecOp}

/-- VEC_DONE of a vector unit in service, with no error met (R69, R371). -/
theorem exec_vecDone (hin : s.dev.vectorOut p l = false) (hq : (s.dev.lt p l).vec = ⟨id, opc, a⟩ :: os)
    (ha : ∀ c fs fd b n x y i j cf, a ≠ .cvt c fs fd b n x y i j cf) :
    exec (.vecDone p ⟨l, .none, none⟩) s =
      .next (s.withDev (vecFinish p l ⟨id, opc, a⟩ (s.dev.setLt p l { s.dev.lt p l with vec := os }))) := by
  have hdone : vecDone p ⟨l, .none, none⟩ s.dev = vecEnd p ⟨l, .none, none⟩ ⟨id, opc, a⟩ os (vecFinish p l ⟨id, opc, a⟩) s.dev := by
    simp only [vecDone, hin, hq, Bool.false_eq_true, if_false]
  change Host.Outcome.next (s.withDev (vecDone p ⟨l, .none, none⟩ s.dev)) = _
  rw [hdone, vecEnd_clean]

end

/-- An access to the scratchpad below the partial-sum region faults nothing (R46, R106). -/
theorem readFault_low {x : Loc} {n : Nat} (hh : x.h = 0) (hb : x.bad = false) (hn : x.pos + n ≤ psumBase) (d : Device) (p : Nat) :
    d.readFault p x n = none := by
  have : ¬ spadSize < x.pos + n := by unfold psumBase spadSize at *; omega
  simp [Device.readFault, hh, hb, this]
theorem writeFault_low {x : Loc} {n : Nat} (hh : x.h = 0) (hb : x.bad = false) (hn : x.pos + n ≤ psumBase) (d : Device) (p : Nat) :
    d.writeFault p x n = none := by
  have : ¬ spadSize < x.pos + n := by unfold psumBase spadSize at *; omega
  simp [Device.writeFault, hh, hb, this]

/-- Bytes at a location of the scratchpad are the scratchpad's. -/
theorem readAt_spad (d : Device) (p l : Nat) {x : Loc} (n : Nat) (h : x.h = 0) : d.readAt p l x n = d.spRead p l x.pos n := if_pos h

/-- What a scratchpad reads as depends, of its logical tile, on the partial-sum region alone (R106). -/
theorem spRead_setLt {d : Device} {p l : Nat} {t : LTile} (h : t.psFree = (d.lt p l).psFree) (off n : Nat) :
    (d.setLt p l t).spRead p l off n = d.spRead p l off n := by
  have hmask (o : Nat) (bs : List Byte) : t.spXor o bs = (d.lt p l).spXor o bs := by
    induction bs generalizing o with
    | nil => rfl
    | cons b bs ih => simp only [LTile.spXor, LTile.spMask, h, ih]
  unfold Device.spRead
  rw [lt_setLt_same, hmask]; rfl

/-- A load fills its register with 1,024 words of the scratchpad (R86). -/
theorem vecFinish_load {p l id opc vd : Nat} {am : Word} {d : Device} (hh : (locOf am).h = 0) (hb : (locOf am).bad = false)
    (hn : (locOf am).pos + 4096 ≤ psumBase) : vecFinish p l ⟨id, opc, .load vd am⟩ d =
      endOp (d.modLt p l (fun t => t.setV vd ((wordsOf 4 1024 (d.spRead p l (locOf am).pos 4096)).map (BitVec.ofNat 32)))) p l id := by
  simp only [vecFinish, readFault_low hh hb hn, touch_outside d p l _ _ (.inl hn), readAt_spad d p l _ hh]

/-- A store writes its register's words to the scratchpad (R86). -/
theorem vecFinish_store {p l id opc : Nat} {am : Word} {ls : List (BitVec 32)} {d : Device} (hh : (locOf am).h = 0)
    (hb : (locOf am).bad = false) (hn : (locOf am).pos + 4096 ≤ psumBase) : vecFinish p l ⟨id, opc, .store am ls⟩ d =
      endOp (d.spWrite p l (locOf am).pos (ls.flatMap (fun v => toLe 4 v.toNat))) p l id := by
  simp only [vecFinish, writeFault_low hh hb hn, writeAt_spad d p l _ hh, touch_outside _ p l _ _ (.inl hn)]

/-- Settles O16: issue by `exec_lanes` and `exec_reduction`, the end by `exec_vecDone` and the four cases of `vecFinish`. -/
theorem vectorOperations : Obligations.VectorOperations := by
  unfold Obligations.VectorOperations
  refine ⟨?issue, ?done⟩
  case issue =>
    intro p l w s t ty queued lanes scalar
    refine ⟨exec_lanes rfl, exec_lanes rfl, exec_lanes rfl, exec_lanes rfl, exec_lanes rfl, exec_lanes rfl, exec_lanes rfl, exec_lanes rfl,
      exec_lanes rfl, exec_lanes rfl, exec_lanes rfl, exec_lanes rfl, exec_lanes rfl, exec_lanes rfl,
      exec_reduction rfl, exec_reduction rfl, exec_reduction rfl, fun h => ?ld, fun h => ?st, fun h => ?bcast⟩
    case ld =>
      rw [exec_vecAct (o := opVecLd) rfl rfl h]
      simp only [bits_word (o := opVecLd) rfl, Nat.reduceLeDiff, issued_areg]; rfl
    case st =>
      rw [exec_vecAct (o := opVecSt) rfl rfl h]
      simp only [vA_word (o := opVecSt) rfl, bits_word (o := opVecSt) rfl, Nat.reduceLeDiff, issued_areg, issued_vreg]; rfl
    case bcast =>
      rw [exec_vecAct (o := opVecBcast) rfl rfl h]
      simp only [vTy_word (o := opVecBcast) rfl, bits_word (o := opVecBcast) rfl, Nat.reduceLeDiff, issued_sreg]; rfl
  case done =>
    intro p l s id opc os t hin
    refine ⟨fun vd ls hq => ?reg, fun sd v hq => ?scal, fun vd am hq hh hb hn => ?load, fun am ls hq hh hb hn _ => ?store⟩
    case reg =>
      rw [exec_vecDone hin hq (by intros; exact nofun)]
      exact congrArg (fun d => Host.Outcome.next (s.withDev (endOp d p l id))) (modLt_setLt _ _ _ _ _)
    case scal =>
      rw [exec_vecDone hin hq (by intros; exact nofun)]
      exact congrArg (fun d => Host.Outcome.next (s.withDev (endOp d p l id))) (modLt_setLt _ _ _ _ _)
    case load =>
      rw [exec_vecDone hin hq (by intros; exact nofun), vecFinish_load hh hb hn, spRead_setLt (by rfl), modLt_setLt]
    case store => rw [exec_vecDone hin hq (by intros; exact nofun), vecFinish_store hh hb hn]

end Sys2Proof.Machine
end

section
/-! PROOF. CVT (R66, R88, R130 to R133) and the INT32 lanes of VEC (R87, Table 3-15). -/
namespace Sys2Proof.Machine

/-- A CVT's formats, count and addresses are its word's own fields and the registers they name. -/
theorem cvtOf_word (opc : Nat) (t : LTile) (w : BitVec 128) : cvtOf opc t.issued ((opCvt opc).word w) = cvtOf opc t w.toNat := by
  have hfix : (opCvt opc).fix = [] := rfl
  simp only [cvtOf, cvtCount, cfOf_word hfix, bits_word hfix, Nat.reduceLeDiff, issued_sreg, issued_areg]

section
variable {p : Fin 8} {l : Fin 32} {w : BitVec 128} {s : State} {c : Instr}

/-- A CVT that issues joins the vector unit's queue (R88). -/
theorem exec_cvt {opc : Nat} (hc : exec c s = .next (s.withDev (issue (opCvt opc) p l w s.dev)))
    (h : s.dev.issues (opCvt opc) p l w = true) :
    exec c s = .next (s.withLt p l ((s.tileAt p l).vecQueued opc (cvtOf opc (s.tileAt p l) w.toNat))) := by
  rw [exec_vecAct hc rfl h, cvtOf_word]

end

/-- CVT_DONE of a vector unit in service, with no error met (R88, R371). -/
theorem exec_cvtDone {p : Fin 8} {l : Fin 32} {s : State} {id o opc fs fd bsz n stid sidx : Nat} {as ad : Word} {cf : CF} {os : List VecOp}
    (hin : s.dev.vectorOut p l = false) (hq : (s.dev.lt p l).vec = ⟨id, o, .cvt opc fs fd bsz n as ad stid sidx cf⟩ :: os) :
    exec (.cvtDone p ⟨l, .none, none⟩) s = .next (s.withDev (cvtFinish p l id opc fs fd bsz n as ad stid sidx cf
      (s.dev.setLt p l { s.dev.lt p l with vec := os }))) := by
  change Host.Outcome.next (s.withDev (cvtDone p ⟨l, .none, none⟩ s.dev)) = _
  simp only [cvtDone, hin, hq, Bool.false_eq_true, if_false, vecEnd_clean]

/-- The rounding of an element of a conversion: stochastic for CVT.SR, to nearest otherwise (R130, R131). -/
def Part.cvtRounding (P : Part) (opc stid sidx i : Nat) : Rounding :=
  if opc = 1 then plyRounding P.compat P.seed P.step stid (sidx + i) else .nearest

/-- A conversion between places of the scratchpad below the partial-sum region writes its elements and completes (R66, R88). -/
theorem cvtFinish_low {p l id opc fs fd bsz n stid sidx : Nat} {as ad : Word} {cf : CF} {d : Device} (h0 : 0 < n)
    (hs : (locOf as).h = 0) (hd : (locOf ad).h = 0) (hsb : (locOf as).bad = false) (hdb : (locOf ad).bad = false)
    (hsn : (locOf as).pos + planeBytes fs bsz 1 n ≤ psumBase) (hdn : (locOf ad).pos + planeBytes fd bsz 1 n ≤ psumBase) :
    cvtFinish p l id opc fs fd bsz n as ad stid sidx cf d = complete (d.spWrite p l (locOf ad).pos
      (cvtBytes fd bsz ((List.range n).map (elemAt (d.reader p l (locOf as)) fs bsz 1 n 0)) ((d.part p).cvtRounding opc stid sidx))) p l id cf := by
  simp only [cvtFinish, Nat.ne_of_gt h0, if_false, readFault_low hs hsb hsn, writeFault_low hd hdb hdn, touch_outside d p l _ _ (.inl hsn),
    writeAt_spad d p l _ hd, touch_outside _ p l _ _ (.inl hdn)]
  rfl

/-- What stands at a location of the scratchpad depends, of the logical tile, on the partial-sum region alone. -/
theorem reader_setLt {d : Device} {p l : Nat} {t : LTile} (h : t.psFree = (d.lt p l).psFree) {x : Loc} (hx : x.h = 0) :
    (d.setLt p l t).reader p l x = d.reader p l x := by
  funext o n
  have hxo : (x.plus o).h = 0 := hx
  simp only [Device.reader, readAt_spad _ p l _ hxo, spRead_setLt h]

-- INT32 lanes.

/-- The value of a lane as a two's complement number. -/
theorem toInt_lane (a : BitVec 32) : toInt 32 a.toNat = a.toInt := by
  unfold toInt
  rw [BitVec.toInt_eq_toNat_cond, Nat.mod_eq_of_lt a.isLt]
  split <;> split <;> omega

/-- An INT32 lane operation is its element function, mod 2^32. -/
theorem laneOp_int (f : Nat → Nat → Nat → Nat) (a b c : BitVec 32) : laneOp 2 f a b c = BitVec.ofNat 32 (f a.toNat b.toNat c.toNat) := rfl

/-- A choice between two lanes is that between their values. -/
theorem ofNat_ite (P : Prop) [Decidable P] (a b : BitVec 32) : BitVec.ofNat 32 (if P then a.toNat else b.toNat) = if P then a else b := by
  split <;> exact BitVec.ofNat_toNat _ _

/-- 2^32 less a lane's value is the lane negated. -/
theorem ofNat_sub_lane (a : BitVec 32) : BitVec.ofNat 32 (2 ^ 32 - a.toNat) = -a := by
  apply BitVec.eq_of_toNat_eq
  simp

theorem laneOp_add (a b c : BitVec 32) : laneOp 2 (eAdd 2) a b c = a + b := by
  apply BitVec.eq_of_toNat_eq
  simp [laneOp_int, eAdd]
theorem laneOp_sub (a b c : BitVec 32) : laneOp 2 (eSub 2) a b c = a - b := by
  apply BitVec.eq_of_toNat_eq
  simp [laneOp_int, eSub, BitVec.toNat_sub, Nat.add_comm]
theorem laneOp_mul (a b c : BitVec 32) : laneOp 2 (eMul 2) a b c = a * b := by
  apply BitVec.eq_of_toNat_eq
  simp [laneOp_int, eMul]
theorem laneOp_neg (a b c : BitVec 32) : laneOp 2 (eNeg 2) a b c = -a := by
  rw [laneOp_int, eNeg, if_pos rfl, ofNat_sub_lane]
theorem laneOp_abs (a b c : BitVec 32) : laneOp 2 (eAbs 2) a b c = if a.slt 0 then -a else a := by
  have hzero : (0 : BitVec 32).toInt = 0 := by decide
  simp only [laneOp_int, eAbs, if_true, toInt_lane, BitVec.slt, decide_eq_true_eq, hzero]
  split
  · exact ofNat_sub_lane a
  · exact BitVec.ofNat_toNat _ _
theorem laneOp_max (a b c : BitVec 32) : laneOp 2 (eMax 2) a b c = if a.slt b then b else a := by
  simp only [laneOp_int, eMax, if_true, toInt_lane, BitVec.slt, decide_eq_true_eq, ofNat_ite]
theorem laneOp_min (a b c : BitVec 32) : laneOp 2 (eMin 2) a b c = if b.slt a then b else a := by
  simp only [laneOp_int, eMin, if_true, toInt_lane, BitVec.slt, decide_eq_true_eq, ofNat_ite]
theorem laneOp_cmplt (a b c : BitVec 32) : laneOp 2 (eCmplt 2) a b c = if a.slt b then BitVec.allOnes 32 else 0 := by
  simp only [laneOp_int, eCmplt, if_true, toInt_lane, BitVec.slt, decide_eq_true_eq]
  split <;> rfl
theorem laneOp_sel (a b c : BitVec 32) : laneOp 2 (eSel 2) a b c = if c ≠ 0 then a else b := by
  have hc : c.toNat ≠ 0 ↔ c ≠ 0 := not_congr (BitVec.toNat_eq (x := c) (y := 0)).symm
  simp only [laneOp_int, eSel, if_true, ofNat_ite, hc]

/-- Settles O17: issue by `exec_cvt`, the end by `exec_cvtDone` and `cvtFinish_low`, the lanes by their laws. -/
theorem conversionsAndIntegerLanes : Obligations.ConversionsAndIntegerLanes := by
  unfold Obligations.ConversionsAndIntegerLanes
  refine ⟨?cvt, fun a b c => ⟨laneOp_add a b c, laneOp_sub a b c, laneOp_mul a b c, laneOp_neg a b c, laneOp_abs a b c, laneOp_max a b c,
    laneOp_min a b c, laneOp_cmplt a b c, laneOp_sel a b c⟩⟩
  intro p l w s t queued
  refine ⟨exec_cvt rfl, exec_cvt rfl, exec_cvt rfl, exec_cvt rfl, ?done⟩
  intro id o opc fs fd bsz n as ad stid sidx cf os hin hq P vs rs h0 hs hd hsb hdb hsn hdn
  rw [exec_cvtDone hin hq, cvtFinish_low h0 hs hd hsb hdb hsn hdn, reader_setLt (by rfl) hs]
  rfl

end Sys2Proof.Machine
end

section
/-! SUPPORT. Comparing exact values: on finite ones `vlt` is the order of the rational numbers they stand for (R174). -/
namespace Sys2Proof.Machine

/-- The number a finite value stands for. -/
def Val.real : Val → ℚ
  | .fin n m e => (if n then -(m : ℚ) else m) * 2 ^ e
  | _ => 0

/-- A finite value taken at a lower exponent stands for the same number. -/
theorem real_signedAt (n : Bool) (m : Nat) {e x : Int} (h : x ≤ e) : (signedAt n m e x : ℚ) * 2 ^ x = (Val.fin n m e).real := by
  have hpow : (2 : ℚ) ^ (e - x).toNat * 2 ^ x = 2 ^ e := by
    rw [← zpow_natCast, Int.toNat_of_nonneg (by omega), ← zpow_add₀ (by norm_num), sub_add_cancel]
  cases n <;> simp [signedAt, scaleTo, Val.real, mul_assoc, hpow]

/-- Comparing finite values compares the numbers they stand for. -/
theorem vlt_eq_real {a b : Val} (ha : vNonfin a = false) (hb : vNonfin b = false) : vlt a b = decide (a.real < b.real) := by
  match a, b, ha, hb with
  | .fin n m e, .fin k i f, _, _ =>
    have hx : (0 : ℚ) < 2 ^ min e f := by positivity
    have hlt : signedAt n m e (min e f) < signedAt k i f (min e f) ↔ (Val.fin n m e).real < (Val.fin k i f).real := by
      rw [← real_signedAt n m (min_le_left e f), ← real_signedAt k i (min_le_right e f), mul_lt_mul_iff_left₀ hx, Int.cast_lt]
    simp only [vlt, hlt]

end Sys2Proof.Machine
end

section
/-! PROOF. The route unit (R65, R66, R89, R174, R175, R226, R346, R371). -/
namespace Sys2Proof.Machine

-- The choice of an expert.

/-- One score of the search for the greatest. -/
def bestStep (r : Option (Val × Nat)) (x : Val × Nat) : Option (Val × Nat) :=
  match r with
  | none => some x
  | some y => if vlt y.1 x.1 then some x else some y

/-- The search over every index. -/
theorem best_all (vs : List Val) : best (fun _ => true) vs = (vs.zipIdx.foldl bestStep none).map (·.2) := rfl

/-- Index `i` has the greatest score, and is the first that has it. -/
def FirstGreatest (vs : List Val) (i : Nat) : Prop :=
  i < vs.length ∧ (∀ j, j < vs.length → vlt (vs.getD i .nan) (vs.getD j .nan) = false) ∧
    ∀ j, j < i → vlt (vs.getD j .nan) (vs.getD i .nan) = true

/-- A single score is the first greatest. -/
theorem firstGreatest_singleton {v : Val} (hv : vNonfin v = false) : FirstGreatest [v] 0 := by
  have hself : vlt v v = false := by rw [vlt_eq_real hv hv]; simp
  refine ⟨Nat.one_pos, fun j hj => ?_, fun j hj => absurd hj (Nat.not_lt_zero j)⟩
  obtain rfl : j = 0 := Nat.lt_one_iff.mp hj
  exact hself

/-- The first greatest among the scores so far and one more: that one when it exceeds them, the one so far otherwise. -/
theorem firstGreatest_snoc {vs : List Val} {v : Val} (hfin : ∀ x ∈ vs ++ [v], vNonfin x = false) {i : Nat} (h : FirstGreatest vs i) :
    FirstGreatest (vs ++ [v]) (if vlt (vs.getD i .nan) v then vs.length else i) := by
  obtain ⟨hi, hmax, hfirst⟩ := h
  have hold {j : Nat} (hj : j < vs.length) : (vs ++ [v]).getD j .nan = vs.getD j .nan := List.getD_append _ _ _ _ hj
  have hnew : (vs ++ [v]).getD vs.length .nan = v := by simp [List.getD]
  have hv : vNonfin v = false := hfin v (by simp)
  have hmem {j : Nat} (hj : j < vs.length) : vNonfin (vs.getD j .nan) = false := by
    rw [List.getD_eq_getElem _ _ hj]
    exact hfin _ (List.mem_append_left _ (List.getElem_mem hj))
  have hlast {j : Nat} (hj : j < (vs ++ [v]).length) : j < vs.length ∨ j = vs.length := by
    rw [List.length_append, List.length_singleton] at hj; omega
  split
  case isTrue hlt =>
    have hbelow {j : Nat} (hj : j < vs.length) : (vs.getD j .nan).real < v.real := by
      have hle := hmax j hj
      rw [vlt_eq_real (hmem hi) (hmem hj), decide_eq_false_iff_not, not_lt] at hle
      rw [vlt_eq_real (hmem hi) hv, decide_eq_true_eq] at hlt
      exact hle.trans_lt hlt
    refine ⟨by simp, fun j hj => ?_, fun j hj => ?_⟩
    · rw [hnew]
      rcases hlast hj with hj | rfl
      · rw [hold hj, vlt_eq_real hv (hmem hj), decide_eq_false_iff_not, not_lt]
        exact (hbelow hj).le
      · rw [hnew, vlt_eq_real hv hv]; simp
    · rw [hnew, hold hj, vlt_eq_real (hmem hj) hv]
      exact decide_eq_true (hbelow hj)
  case isFalse hlt =>
    refine ⟨by rw [List.length_append]; omega, fun j hj => ?_, fun j hj => ?_⟩
    · rw [hold hi]
      rcases hlast hj with hj | rfl
      · rw [hold hj]; exact hmax j hj
      · rw [hnew]; exact eq_false_of_ne_true hlt
    · rw [hold hi, hold (hj.trans hi)]; exact hfirst j hj

/-- The search over finite scores ends at the first greatest. -/
theorem bestStep_foldl {vs : List Val} (hne : vs ≠ []) (hfin : ∀ x ∈ vs, vNonfin x = false) :
    ∃ i, vs.zipIdx.foldl bestStep none = some (vs.getD i .nan, i) ∧ FirstGreatest vs i := by
  induction vs using List.reverseRecOn with
  | nil => exact absurd rfl hne
  | append_singleton vs v ih =>
    rw [List.zipIdx_append, List.foldl_append]
    rcases eq_or_ne vs [] with rfl | hvs
    · exact ⟨0, rfl, firstGreatest_singleton (hfin v (by simp))⟩
    · obtain ⟨i, hbest, hi⟩ := ih hvs (fun x hx => hfin x (List.mem_append_left _ hx))
      refine ⟨_, ?_, firstGreatest_snoc hfin hi⟩
      rw [hbest, Nat.zero_add]
      change (if vlt (vs.getD i .nan) v then some (v, vs.length) else some (vs.getD i .nan, i)) = _
      split
      · simp [List.getD]
      · rw [List.getD_append _ _ _ _ hi.1]

/-- Among finite scores the choice is the first greatest (R174). -/
theorem best_firstGreatest {vs : List Val} (hne : vs ≠ []) (hfin : vs.any vNonfin = false) :
    ∃ i, best (fun _ => true) vs = some i ∧ FirstGreatest vs i := by
  obtain ⟨i, hbest, hi⟩ := bestStep_foldl hne (fun x hx => by simpa using List.any_eq_false.mp hfin x hx)
  exact ⟨i, by rw [best_all, hbest]; rfl, hi⟩

/-- A token with a NaN or infinite score gives a blank record in every rank (R175). -/
theorem choose_nonfinite {k : Nat} {ws : List Nat} (h : (ws.map (decodeFmt 0)).any vNonfin = true) :
    choose k ws = ((List.range k).map (fun r => { pos := 0, dropped := false, valid := false, rank := r, expert := 0, gate := 0 }), true) := by
  unfold choose
  exact if_pos h

/-- With finite scores the first rank is the best expert, with its score as gate (R174). -/
theorem choose_finite {k : Nat} {ws : List Nat} {i : Nat} (h : (ws.map (decodeFmt 0)).any vNonfin = false)
    (hbest : best (fun _ => true) (ws.map (decodeFmt 0)) = some i) : (choose (k + 1) ws).2 = false ∧
      ∃ rest, (choose (k + 1) ws).1 =
        { pos := 0, dropped := false, valid := true, rank := 0, expert := i, gate := ws.getD i 0 } :: rest := by
  unfold choose
  simp only [h, hbest, Bool.false_eq_true, if_false, List.range_succ_eq_map, List.map_cons, if_true]
  exact ⟨trivial, _, rfl⟩

-- Issue and end.

/-- The values of a ROUTE are its word's own fields and the registers they name. -/
theorem routeOf_word (op id : Nat) (t : LTile) (w : BitVec 128) : routeOf op id t ((opRoute op).word w) = routeOf op id t w.toNat := by
  have hfix : (opRoute op).fix = [] := rfl
  simp only [routeOf, cfOf_word hfix, bit_word hfix, bits_word hfix, Nat.reduceLeDiff]

/-- A ROUTE that issues joins the route unit's queue (R65, R89). -/
theorem exec_route {p : Fin 8} {l : Fin 32} {w : BitVec 128} {s : State} {c : Instr} {op : Nat}
    (hc : exec c s = .next (s.withDev (issue (opRoute op) p l w s.dev))) (h : s.dev.issues (opRoute op) p l w = true) :
    exec c s = .next (s.withLt p l { (s.tileAt p l).advance with
      nextOp := (s.tileAt p l).nextOp + 1, rte := (s.tileAt p l).rte ++ [routeOf op (s.tileAt p l).nextOp (s.tileAt p l) w.toNat] }) := by
  rw [exec_unit hc rfl h, ← routeOf_word, modLt_setLt]; rfl

/-- An operation that reads handles which serve, with no update of one to be awaited, goes ahead (R226, R346). -/
theorem whenRead_ready {d : Device} {p : Nat} {rs ws : List Nat} (hu : rs.any (d.part p).updating = false)
    (hr : d.reachAll p (rs ++ ws) = true) (code : Nat) (f : Device → Device) : whenRead d p rs ws code f = f d := by
  simp only [whenRead, whenReached, hu, hr, Bool.false_eq_true, if_false, if_true]

/-- ROUTE_DONE of a tile in service, with what it reads at hand and no error met (R226, R346, R371). -/
theorem exec_routeDone {p : Fin 8} {l : Fin 32} {s : State} {o : RouteOp} {os : List RouteOp} (hq : (s.dev.lt p l).rte = o :: os)
    (hin : (s.dev.hostOf p l).any s.dev.tileOut = false) (hu : o.handles.any (s.dev.part p).updating = false)
    (hr : s.dev.reachAll p o.handles = true) : exec (.routeDone p ⟨l, .none, none⟩) s = .next (s.withDev (routeFinish p l o s.dev)) := by
  change Host.Outcome.next (s.withDev (routeDone p ⟨l, .none, none⟩ s.dev)) = _
  simp only [routeDone, hin, hq, Bool.false_eq_true, if_false]
  rw [whenRead_ready hu (by rwa [List.append_nil])]
  simp only [routeEnd, metWord, metBy_none, findMet, tileFound_none]
  rfl

/-- A route operation that faults nothing completes (R66). -/
theorem routeFinish_complete {p l : Nat} {o : RouteOp} {os : List RouteOp} {d : Device} (hq : (d.lt p l).rte = o :: os)
    (hok : (runRoute p l o (d.setLt p l { d.lt p l with rte := os })).2 = none) :
    routeFinish p l o d = complete (runRoute p l o (d.setLt p l { d.lt p l with rte := os })).1 p l o.id o.cf := by
  have hd : d.modLt p l (fun t => { t with rte := t.rte.drop 1 }) = d.setLt p l { d.lt p l with rte := os } := by
    unfold Device.modLt; simp only [hq, List.drop_succ_cons, List.drop_zero]
  simp only [routeFinish, hd, hok]

/-- Settles O18: the unit by `exec_route` and `exec_routeDone`, the choice by `choose_nonfinite`, `choose_finite` and `best_firstGreatest`. -/
theorem routeChoosesTheGreatest : Obligations.RouteChoosesTheGreatest := by
  unfold Obligations.RouteChoosesTheGreatest
  refine ⟨?unit, ?choice⟩
  case unit =>
    intro p l w s t queued
    refine ⟨exec_route rfl, exec_route rfl, exec_route rfl, exec_route rfl, ?_⟩
    intro o os hq hin hu hr r hok
    rw [exec_routeDone hq hin hu hr, routeFinish_complete hq hok]
  case choice =>
    intro k ws hk _ hne vs
    refine ⟨fun hnon => ?nonfinite, fun hfin => ?finite⟩
    case nonfinite =>
      rw [choose_nonfinite hnon]
      refine ⟨rfl, fun c hc => ?_⟩
      obtain ⟨r, -, rfl⟩ := List.mem_map.mp hc
      exact ⟨rfl, rfl, rfl⟩
    case finite =>
      obtain ⟨i, hbest, hi, hmax, hfirst⟩ := best_firstGreatest (by simpa [vs] using hne) hfin
      obtain ⟨k, rfl⟩ : ∃ n, k = n + 1 := ⟨k - 1, by omega⟩
      obtain ⟨hflag, rest, hrec⟩ := choose_finite (k := k) hfin hbest
      have hlen : vs.length = ws.length := List.length_map _
      exact ⟨hflag, _, rest, hrec, rfl, hlen ▸ hi, rfl, fun j hj => hmax j (hlen ▸ hj), hfirst⟩

end Sys2Proof.Machine
end

section
/-! SUPPORT. Completing an operation, said once for every quantity that it leaves alone: a completion posts, and a post writes counters, blocks and
posts of logical tiles, partitions, power domains, ports and registers, and nothing else (R48, R49, R53 to R56, R66, R342 to R346). -/
namespace Sys2Proof.Machine

/-- A quantity of the device that none of a post's own writes touches. -/
structure PostKeeps {γ : Type} (π : Device → γ) : Prop where
  wr : ∀ d f v, π (d.wr f v) = π d
  dom : ∀ d n f, π (d.modDom n f) = π d
  port : ∀ d n f, π (d.modPort n f) = π d
  part : ∀ d p P, π (d.setPart p P) = π d
  tile : ∀ d p l c b q, π (d.setLt p l { d.lt p l with ctr := c, block := b, posts := q }) = π d

namespace PostKeeps
variable {γ : Type} {π : Device → γ} (h : PostKeeps π)
include h

theorem startExit (d : Device) (n c : Nat) : π (startExit d n c) = π d := by
  unfold Machine.startExit
  dsimp only
  split
  · rw [h.port, apply_ite π]
    simp only [h.wr, h.dom, ite_self]
  · simp only [apply_ite π, h.wr, h.dom, ite_self]

theorem wakeOne (d : Device) (n c : Nat) : π (wakeOne d n c) = π d := by
  unfold Machine.wakeOne
  simp only [apply_ite π, h.dom, h.startExit, ite_self]

theorem wakeDom (d : Device) (n c : Nat) : π (wakeDom d n c) = π d := by
  unfold Machine.wakeDom
  dsimp only
  rw [h.wakeOne, apply_ite π, foldl_keeps π _ (fun d _ => h.wakeOne d _ _), ite_self]

theorem recordFault (d : Device) (p : Nat) (c : Cause) : π (recordFault d p c) = π d := by
  unfold Machine.recordFault
  dsimp only
  split
  · rfl
  · rw [apply_ite π, h.part, Machine.wakeTiles, foldl_keeps π _ (fun d _ => h.wakeDom d _ _), h.part, ite_self]

theorem tilesFault (d : Device) (p : Nat) (ls : List Nat) (c : Cause) : π (tilesFault d p ls c) = π d := by
  have hhalt (e : Device) (l : Nat) : π (e.modLt p l (fun t => { t with block := .halted })) = π e := h.tile e p l _ _ _
  unfold Machine.tilesFault
  dsimp only
  rw [apply_ite π, foldl_keeps π _ hhalt, h.recordFault, ite_self]

theorem tileFault (d : Device) (p l : Nat) (c : Cause) : π (tileFault d p l c) = π d := h.tilesFault d p [l] c

theorem slotTrack (d : Device) (p : Nat) : π (slotTrack d p) = π d := by
  unfold Machine.slotTrack Machine.setPool Device.modPart
  simp only [apply_ite π, h.part, h.wr, ite_self]

theorem bumpCounter (d : Device) (src : List Nat) (p l c n : Nat) : π (bumpCounter d src p l c n) = π d := by
  unfold Machine.bumpCounter
  dsimp only
  rw [apply_ite π, h.tilesFault, h.slotTrack, h.tile d p l _ _ _, ite_self]

theorem post (d : Device) (src : List Nat) (p l c n : Nat) : π (post d src p l c n) = π d := by
  unfold Machine.post
  split
  · rfl
  · split
    · exact h.bumpCounter _ _ _ _ _ _
    · rw [apply_ite π, h.bumpCounter, h.wakeDom, h.dom, ite_self]

theorem complete (d : Device) (p l id : Nat) (cf : CF) : π (complete d p l id cf) = π d := by
  unfold Machine.complete
  cases cf with
  | none => exact h.tile d p l _ _ _
  | some c => exact (h.post _ _ _ _ _ _).trans (h.tile d p l _ _ _)

end PostKeeps

/-- The gather leases are none of a post's business (R224). -/
theorem leases_postKeeps : PostKeeps Device.leases where
  wr _ _ _ := rfl
  dom _ _ _ := rfl
  port _ _ _ := rfl
  part _ _ _ := rfl
  tile _ _ _ _ _ _ := rfl

/-- What a post leaves alone of a logical tile: everything but its counters, its block and its posts. -/
theorem lt_postKeeps {γ : Type} (g : LTile → γ) (hg : ∀ t c b q, g { t with ctr := c, block := b, posts := q } = g t) (p l : Nat) :
    PostKeeps (fun d => g (d.lt p l)) where
  wr _ _ _ := rfl
  dom _ _ _ := rfl
  port _ _ _ := rfl
  part _ _ _ := rfl
  tile d p' l' c b q := by
    by_cases hk : ltKey p l = ltKey p' l'
    · have hlt (e : Device) : e.lt p l = e.lt p' l' := by unfold Device.lt; rw [hk]
      simp only [hlt, lt_setLt_same, hg]
    · rw [lt_setLt_other d _ hk]

end Sys2Proof.Machine
end

section
/-! PROOF. MOVE operations join their engine and complete (R65, R78 to R80, R119, R226, R371). -/
namespace Sys2Proof.Machine

/-- The values of a MOVE are its word's own fields and the registers they name. -/
theorem moveOf_word (kind id : Nat) (t : LTile) (w : BitVec 128) : moveOf kind id t ((opMove kind).word w) = moveOf kind id t w.toNat := by
  have hfix : (opMove kind).fix = [] := rfl
  simp only [moveOf, cfOf_word hfix, bits_word hfix, Nat.reduceLeDiff]

/-- A MOVE that issues joins its engine's queue, and the engine is armed where its next operation is a MOVE.WIN (R65, R78, R80). -/
theorem exec_move {p : Fin 8} {l : Fin 32} {w : BitVec 128} {s : State} {c : Instr} {kind : Nat}
    (hc : exec c s = .next (s.withDev (issue (opMove kind) p l w s.dev))) (h : s.dev.issues (opMove kind) p l w = true) :
    exec c s = .next (s.withDev (armEngine (s.dev.setLt p l ((s.tileAt p l).issued.setQueue (bits w.toNat 26 24)
      ((s.tileAt p l).queue (bits w.toNat 26 24) ++ [moveOf kind (s.tileAt p l).nextOp (s.tileAt p l) w.toNat]))) p l (bits w.toNat 26 24))) := by
  have hfix : (opMove kind).fix = [] := rfl
  rw [exec_unit hc rfl h, ← moveOf_word, ← bits_word hfix w (show 12 ≤ 24 by decide)]
  simp only [moveAct, lt_setLt_same, setLt_setLt, issued_queue]
  rfl

-- Leases stay.

theorem leases_touch (d : Device) (p l : Nat) (x : Loc) (n : Nat) : (d.touch p l x n).leases = d.leases := by
  unfold Device.touch Device.scramble
  split
  · split <;> rfl
  · rfl

theorem leases_writeAt (d : Device) (p l : Nat) (x : Loc) (bs : List Byte) : (d.writeAt p l x bs).leases = d.leases := by
  unfold Device.writeAt Device.hWrite Device.hStore
  split
  · rfl
  · dsimp only; split <;> rfl

theorem leases_atSource (m : MoveOp) (p l r : Nat) (d : Device) : (m.atSource p l r d).leases = d.leases := by
  unfold MoveOp.atSource MoveOp.atIndex
  rw [leases_touch, apply_ite Device.leases, leases_touch, ite_self]

theorem leases_moveRows (p l : Nat) (m : MoveOp) (n r : Nat) (d : Device) : (moveRows p l m n r d).1.leases = d.leases := by
  induction n generalizing r d with
  | zero => rfl
  | succ n ih =>
    unfold moveRows
    split
    · rfl
    · next e he => rw [ih, moveRow_ok he, leases_touch, leases_writeAt, leases_atSource]

theorem leases_armEngine (d : Device) (p l e : Nat) : (armEngine d p l e).leases = d.leases := by
  have hfault (f : Device) (id : Nat) (c : Cause) : (tileFault (endOp f p l id) p l c).leases = f.leases :=
    (leases_postKeeps.tileFault _ _ _ _).trans (leases_postKeeps.complete _ _ _ _ _)
  unfold armEngine
  dsimp only
  split
  · split
    · rfl
    · split
      · rw [hfault]; rfl
      · split
        · exact leases_touch _ _ _ _ _
        · rw [hfault]; exact leases_touch _ _ _ _ _
  · rfl

-- The end of a MOVE.

section
variable {p l e : Nat} {m : MoveOp} {q : List MoveOp} {d : Device}

/-- A MOVE of rows outside a lease that faults nothing completes, and its engine goes on (R66, R79). -/
theorem moveFinish_rows (hq : (d.lt p l).queue e = m :: q) (hlease : m.lease = 0) (hlen : 0 < m.len)
    (hok : (moveRows p l m m.rows 0 (d.setLt p l ((d.lt p l).setQueue e q))).2 = none) : moveFinish p l e m d =
      armEngine (complete (moveRows p l m m.rows 0 (d.setLt p l ((d.lt p l).setQueue e q))).1 p l m.id m.cf) p l e := by
  have hd : d.modLt p l (fun t => t.setQueue e ((t.queue e).drop 1)) = d.setLt p l ((d.lt p l).setQueue e q) := by
    simp only [Device.modLt, hq, List.drop_succ_cons, List.drop_zero]
  simp only [moveFinish, hd, leaseAct, hlease, if_true, Nat.ne_of_gt hlen, if_false, hok]

/-- A MOVE at the head of an engine that no walk holds, on a tile in service, whose stacks serve and are its partition's own and whose
source no update is to be awaited of, ends (R119, R226, R317, R346, R371). -/
theorem moveComplete_ready (hq : (d.lt p l).queue e = m :: q) (hkind : m.kind < 4) (hheld : (d.part p).engineHeld l e = false)
    (hin : (d.hostOf p l).any d.tileOut = false) (hu : (d.part p).updating (locOf m.as).h = false)
    (hh : ∀ h ∈ m.handles, d.foreignStack p h = none ∧ (h = 0 ∨ d.reach p h = true)) :
    moveComplete p l e (fun _ d => d) .none d = moveFinish p l e m d := by
  have hown : m.handles.findSome? (fun h => d.foreignStack p h) = none := List.findSome?_eq_none_iff.mpr (fun h hm => (hh h hm).1)
  have hreach : d.reachAll p ([(locOf m.as).h] ++ [(locOf m.ad).h]) = true :=
    List.all_eq_true.mpr (fun h hm => by simpa using (hh h hm).2)
  have hend : moveEnd p l e m .none d = moveFinish p l e m d := by
    rw [moveEnd, tileFound_none]; rfl
  simp only [moveComplete, hin, hq, hheld, Nat.ne_of_lt hkind, hown, Bool.false_eq_true, if_false]
  rw [whenRead_ready (by simp [hu]) hreach, hend]

/-- A MOVE that leaves the leases alone holds nothing else back. -/
theorem moveDone_of_leases {f : Device} (hf : moveComplete p l e (fun _ d => d) .none d = f) (hl : f.leases = d.leases) :
    moveDone p l e none .none d = f := by
  have hdone : moveDone p l e none .none d = if f.leases = d.leases then f else unleash f p := by rw [← hf]; rfl
  rw [hdone, if_pos hl]

end

/-- Settles O10: issue by `exec_move`, the end by `moveComplete_ready` and `moveFinish_rows`, for no step of it touches a lease. -/
theorem movesJoinTheirEngineAndComplete : Obligations.MovesJoinTheirEngineAndComplete := by
  unfold Obligations.MovesJoinTheirEngineAndComplete
  refine ⟨?issue, ?done⟩
  case issue =>
    intro p l w s t e queued
    exact ⟨exec_move rfl, exec_move rfl, exec_move rfl, exec_move rfl, exec_move rfl⟩
  case done =>
    intro p l e s m q t hq hkind hlease hlen hheld hin hu hh d hok
    have hend : moveComplete p l e (fun _ d => d) .none s.dev =
        armEngine (complete (moveRows p l m m.rows 0 d).1 p l m.id m.cf) p l e := by
      rw [moveComplete_ready hq hkind hheld hin hu hh, moveFinish_rows hq hlease hlen hok]
    change Host.Outcome.next (s.withDev (moveDone p l e none .none s.dev)) = _
    rw [moveDone_of_leases hend]
    rw [leases_armEngine, leases_postKeeps.complete, leases_moveRows]
    rfl

end Sys2Proof.Machine
end

section
/-! PROOF. Operations of the arrays join their queue (R81 to R85, R151). -/
namespace Sys2Proof.Machine

/-- The group an MMA names is a field of its word. -/
theorem agOf_word {o : Op} (hfix : o.fix = []) (w : BitVec 128) : agOf (o.word w) = bits w.toNat 27 24 := bits_word hfix w (by decide)

/-- The values of a pass are its word's own fields and the registers they name. -/
theorem passOf_word (conv : Bool) (id : Nat) (t : LTile) (w : BitVec 128) :
    passOf conv id t ((opPass conv).word w) = passOf conv id t w.toNat := by
  have hfix : (opPass conv).fix = [] := rfl
  simp only [passOf, agOf, cfOf_word hfix, bits_word hfix, Nat.reduceLeDiff]

/-- The values of a walk are its word's own fields and the registers they name. -/
theorem walkOf_word (t : LTile) (wid l : Nat) (w : BitVec 128) : walkOf t wid l (opWalk.word w) = walkOf t wid l w.toNat := by
  simp only [walkOf, bits_word (o := opWalk) rfl, Nat.reduceLeDiff]

/-- A pass is queued with what its word and registers name before it is handed over (R82, R83). -/
theorem exec_pass {p : Fin 8} {l : Fin 32} {w : BitVec 128} {s : State} {c : Instr} {conv : Bool}
    (hc : exec c s = .next (s.withDev (issue (opPass conv) p l w s.dev))) (h : s.dev.issues (opPass conv) p l w = true) :
    exec c s = .next (s.withDev (pushArr p l (.pass (passOf conv (s.tileAt p l).nextOp (s.tileAt p l) w.toNat))
      (s.dev.setLt p l (s.tileAt p l).issued))) := by
  rw [exec_unit hc rfl h, lt_setLt_same, passOf_word]; rfl

/-- A walk that no other walk of its mask waits for this tile to join is a new one of the partition (R85). -/
theorem walkAct_new {id p l w : Nat} {d : Device} (hcnt : (walkOf (d.lt p l) (d.part p).walkNo l w).cnt ≠ 0)
    (hnew : ∀ x ∈ (d.part p).walks, x.mask = (walkOf (d.lt p l) (d.part p).walkNo l w).mask → l ∈ x.joined) :
    walkAct id p l w d = pushArr p l (.walk id (d.part p).walkNo (cfOf w)) (d.modPart p (fun P =>
      { P with walkNo := P.walkNo + 1, walks := P.walks ++ [walkOf (d.lt p l) (d.part p).walkNo l w] })) := by
  have hnone : (d.part p).walks.find? (fun x => decide (x.mask = (walkOf (d.lt p l) (d.part p).walkNo l w).mask) && !x.joined.contains l)
      = none := by
    refine List.find?_eq_none.mpr (fun x hx => ?_)
    simpa using hnew x hx
  simp only [walkAct, hnone, enterWalk, hcnt, if_false]
  rfl

/-- Settles O12: each operation is queued with fields of its word and registers as they stand before it is handed over. -/
theorem arrayOperationsQueue : Obligations.ArrayOperationsQueue := by
  unfold Obligations.ArrayOperationsQueue
  intro p l w s t u ag
  refine ⟨fun h => ?opens, exec_pass rfl, exec_pass rfl, fun h => ?closes, ?walk⟩
  case opens =>
    rw [exec_unit (o := opOpen) rfl rfl h]
    simp only [agOf_word (o := opOpen) rfl, bits_word (o := opOpen) rfl, bit_word (o := opOpen) rfl, Nat.reduceLeDiff, lt_setLt_same,
      issued_areg, modLt_setLt, issued_ags]
    rfl
  case closes =>
    rw [exec_unit (o := opClose) rfl rfl h]
    simp only [agOf_word (o := opClose) rfl, bits_word (o := opClose) rfl, cfOf_word (o := opClose) rfl, Nat.reduceLeDiff, lt_setLt_same,
      issued_areg, modLt_setLt, issued_ags]
    rfl
  case walk =>
    intro v h hcnt hnew
    have hv : walkOf ((s.dev.setLt p l t.issued).lt p l) ((s.dev.setLt p l t.issued).part p).walkNo l (opWalk.word w) = v := by
      rw [lt_setLt_same, walkOf_word]; rfl
    rw [exec_unit (o := opWalk) rfl rfl h, walkAct_new (by rw [hv]; exact hcnt) (by rw [hv]; exact hnew), hv,
      cfOf_word (o := opWalk) rfl]
    rfl

end Sys2Proof.Machine
end

section
/-! PROOF. MMA.CLOSE writes a group behind a handle and frees it (R84, R152). -/
namespace Sys2Proof.Machine

/-- An arrays' queue with nothing in it goes on with nothing. -/
theorem drain_idle {p l : Nat} {d : Device} (h : (d.lt p l).arr = []) : drain p l d = d := by
  have harr : drainArr p l 64 d = d := by
    unfold drainArr
    simp only [h, List.drop_nil]
  have hnext : (d.lt p l).nextPass = none := by
    unfold LTile.nextPass
    simp only [h, List.drop_nil, List.takeWhile_nil, List.findSome?_nil]
  rw [drain, harr]
  simp only [castNext, hnext]

/-- The device once a close has written its bytes behind the handle at AD, freed its group and given the gauge its flag (R84, R91, R152). -/
def Device.closeWritten (d : Device) (p l id ag : Nat) (x : Loc) (g : Group) : Device :=
  let e := freeGroup p l ag ((d.setLt p l { d.lt p l with arr := [] }).hWrite p x.h x.pos (g.bytes ++ trailer g.bias g.recomp g.gauge))
  if g.gauge then setFlag e p l id else e

section
variable {p l id ag : Nat} {ad : Word} {cf : CF} {g : Group} {d : Device}

/-- The close at the head of the queue ends: nothing stops it, no link binds its group, and its handle serves (R108, R162, R346, R371). -/
theorem closeDone_ready (harr : (d.lt p l).arr = [.close id ag ad cf]) (hrun : (d.part p).stopping = false)
    (hin : (d.hostOf p l).any d.tileOut = false) (hg : (d.lt p l).group ag = some g) (hfree : d.boundLink p l ag = none)
    (hown : d.foreignStack p (locOf ad).h = none) (hr : d.reach p (locOf ad).h = true) :
    closeDone p l d = closeFinish p l id ag ad cf g d := by
  have hreach : d.reachAll p [(locOf ad).h] = true := by simp [Device.reachAll, hr]
  simp only [closeDone, hrun, hin, Bool.or_self, Bool.false_eq_true, if_false, harr, hg, hfree, hown, whenReached, hreach, if_true]

/-- Writing behind a handle leaves every logical tile alone. -/
theorem lt_hWrite (d : Device) (p h off : Nat) (bs : List Byte) (q k : Nat) : (d.hWrite p h off bs).lt q k = d.lt q k := by
  unfold Device.hWrite Device.hStore
  dsimp only
  split <;> rfl

/-- A close behind a handle writes and completes (R66, R84). -/
theorem closeFinish_handle (harr : (d.lt p l).arr = [.close id ag ad cf]) (hg : (d.lt p l).group ag = some g) (hh : (locOf ad).h ≠ 0)
    (hok : d.writeFault p (locOf ad) (r84Bytes g.acc g.m) = none) :
    closeFinish p l id ag ad cf g d = drain p l (complete (d.closeWritten p l id ag (locOf ad) g) p l id cf) := by
  have hd : d.modLt p l (fun t => { t with arr := t.arr.drop 1 }) = d.setLt p l { d.lt p l with arr := [] } := by
    simp only [Device.modLt, harr, List.drop_succ_cons, List.drop_nil]
  have hf : (d.setLt p l { d.lt p l with arr := [] }).writeFault p (locOf ad) (r84Bytes g.acc g.m) = none := hok
  have hgroup : ((d.setLt p l { d.lt p l with arr := [] }).lt p l).group ag = some g := by rw [lt_setLt_same]; exact hg
  simp only [closeFinish, hd, hf, touch_handle _ p l _ hh, hgroup, Option.getD_some, writeAt_handle _ p l _ hh]
  rfl

/-- The bytes a close writes are the only ones of memory it touches. -/
theorem mems_closeWritten (x : Loc) : (d.closeWritten p l id ag x g).mems =
    ((d.setLt p l { d.lt p l with arr := [] }).hWrite p x.h x.pos (g.bytes ++ trailer g.bias g.recomp g.gauge)).mems := by
  unfold Device.closeWritten
  dsimp only
  split <;> rfl

/-- Its logical tile has an empty arrays' queue, and neither the group nor entries of it in the pass record. -/
theorem lt_closeWritten (x : Loc) : (d.closeWritten p l id ag x g).lt p l =
    { (({ d.lt p l with arr := [] } : LTile).setGroup ag none) with
      passes := (d.lt p l).passes.filter (fun q => decide (q.ag ≠ ag)) } := by
  have hlt (e : Device) : (setFlag e p l id).lt p l = e.lt p l := rfl
  unfold Device.closeWritten
  simp only [apply_ite (fun e : Device => e.lt p l), hlt, ite_self, freeGroup, lt_modLt_same, lt_hWrite, lt_setLt_same]

end

/-- What a completion leaves alone of a logical tile's arrays: their queue, their groups and the pass record. -/
theorem arrays_complete (d : Device) (p l id : Nat) (cf : CF) :
    ((complete d p l id cf).lt p l).arr = (d.lt p l).arr ∧ ((complete d p l id cf).lt p l).groups = (d.lt p l).groups ∧
      ((complete d p l id cf).lt p l).passes = (d.lt p l).passes :=
  ⟨(lt_postKeeps (·.arr) (fun _ _ _ _ => rfl) p l).complete d p l id cf, (lt_postKeeps (·.groups) (fun _ _ _ _ => rfl) p l).complete d p l id cf,
    (lt_postKeeps (·.passes) (fun _ _ _ _ => rfl) p l).complete d p l id cf⟩

/-- Settles O14, by `closeDone_ready` and `closeFinish_handle`; the completion leaves the memories and the arrays alone. -/
theorem closeWritesTheGroup : Obligations.CloseWritesTheGroup := by
  unfold Obligations.CloseWritesTheGroup
  intro p l s id ag ad cf g t x bs harr hrun hin hg hfree hh hown hr hok
  let e := s.dev.closeWritten p l id ag x g
  have hlt : e.lt p l = _ := lt_closeWritten x
  obtain ⟨hearr, hegroups, hepasses⟩ := arrays_complete e p l id cf
  have hmems : (complete e p l id cf).mems = _ := (mems_complete e p l id cf).trans (mems_closeWritten x)
  have hmem := (congrArg Prod.fst hmems).trans (hWrite_mem _ _ _ _ _)
  have hspad := (congrArg Prod.snd hmems).trans (hWrite_spad _ _ _ _ _)
  have hdone : exec (.mmaCloseDone p l) s = .next (s.withDev (complete e p l id cf)) := by
    change Host.Outcome.next (s.withDev (closeDone p l s.dev)) = _
    rw [closeDone_ready harr hrun hin hg hfree hown hr, closeFinish_handle harr hg hh hok, drain_idle (by rw [hearr, hlt]; rfl)]
  refine ⟨_, hdone, ?read, fun a ha => ?frame, hspad, ?group, ?record⟩
  case read => exact (congrArg (fun m => mread m (hKey p x.h x.pos) bs.length) hmem).trans (mread_mwrite _ _ _)
  case frame => exact (congrArg (mget · a) hmem).trans (mget_mwrite_other _ _ ha)
  case group => rw [LTile.group, hegroups, hlt]; simp only [LTile.setGroup, tget_tset_same]
  case record =>
    rw [LTile.record, hepasses, hlt, List.filter_filter]
    exact List.filter_eq_nil_iff.mpr (fun q _ => by simp)

end Sys2Proof.Machine
end

section
/-! PROOF. UPD.GAUGE and UPD.APPLY (R91, R205). -/
namespace Sys2Proof.Machine

/-- Descriptors are judged by the partition and the bytes behind its handles alone. -/
theorem takeDescs_setLt (d : Device) (p q l : Nat) (t : LTile) (bs : List (List Byte)) (ts : List UDesc) :
    takeDescs (d.setLt q l t) p bs ts = takeDescs d p bs ts := by
  induction bs generalizing ts with
  | nil => rfl
  | cons b bs ih =>
    have hfault : descFault (d.setLt q l t) p b ts = descFault d p b ts := rfl
    simp only [takeDescs, hfault, ih]

/-- With no message waiting in the pool no sum is tried again. -/
theorem takeSums_none {p : Nat} {d : Device} (h : (d.part p).early = []) :
    takeSums p d = d.modPart p (fun P => { P with early := [] }) := by
  simp only [takeSums, h, List.filter_nil, List.foldl_nil, Device.modPart]

/-- An issued UPD.APPLY has its descriptors in the scratchpad (R91). -/
theorem locOf_of_issues_apply {p : Fin 8} {l : Fin 32} {w : BitVec 128} {s : State} (h : s.dev.issues opApply p l w = true) :
    (locOf ((s.tileAt p l).areg (bits w.toNat 27 24))).h = 0 := by
  simp only [Device.issues, Bool.and_eq_true] at h
  obtain ⟨⟨-, hcheck⟩, -⟩ := h
  have hspad : (s.tileAt p l).isSpad (bits (opApply.word w) 27 24) = true := (Bool.and_eq_true _ _ ▸ hcheck : _ ∧ _).1
  rw [bits_word (o := opApply) rfl w (by decide), LTile.isSpad, decide_eq_true_eq] at hspad
  rw [locOf_spad hspad]

/-- The device once a logical tile's UPD.APPLY has handed over the step's descriptors, with no sum waiting in the pool (R205). -/
def Device.applied (d : Device) (p l : Nat) (o : OpenOp) (ts : List UDesc) : Device :=
  ((d.modPart p (fun P => { P with descs := ts })).modLt p l (fun t => { t with upd := t.upd ++ [o] })).modPart p
    (fun P => { P with early := [] })

/-- A UPD.APPLY whose descriptors stand in the scratchpad below the partial-sum region and all pass is waiting (R205). -/
theorem applyAct_ok {id p l w n : Nat} {x : Loc} {d : Device} {ts : List UDesc} (hcount : ((d.lt p l).sreg (bits w 33 28)).toNat = n)
    (hloc : locOf ((d.lt p l).areg (bits w 27 24)) = x) (hn : 0 < n) (hh : x.h = 0) (hb : x.bad = false)
    (hlow : x.pos + 64 * n ≤ psumBase) (hcontrib : (d.part p).contrib = false) (hearly : (d.part p).early = [])
    (hok : takeDescs d p ((List.range n).map (fun i => d.spRead p l (x.pos + 64 * i) 64)) (d.part p).descs = .ok ts) :
    applyAct id p l w d = d.applied p l { id := id, kind := 0, au := 0, cf := cfOf w } ts := by
  have hread (i : Nat) : d.readAt p l (x.plus (64 * i)) 64 = d.spRead p l (x.pos + 64 * i) 64 := readAt_spad d p l 64 hh
  simp only [applyAct, hcount, hloc, Nat.ne_of_gt hn, if_false, readFault_low hh hb hlow, hread, touch_outside d p l _ _ (.inl hlow),
    hcontrib, Bool.false_eq_true, hok]
  rw [takeSums_none (by simp [hearly])]
  rfl

/-- Settles O23: UPD.GAUGE writes its logical tile alone; UPD.APPLY by `applyAct_ok`. -/
theorem updateInstructions : Obligations.UpdateInstructions := by
  unfold Obligations.UpdateInstructions
  intro p l w s t u
  refine ⟨?gauge, ?apply⟩
  case gauge =>
    intro o h
    rw [exec_unit (o := opGauge) rfl rfl h]
    simp only [gaugeAct, modLt_setLt, issued_sreg, issued_areg, issued_upd, bits_word (o := opGauge) rfl, cfOf_word (o := opGauge) rfl,
      Nat.reduceLeDiff]
    rfl
  case apply =>
    intro o n x bs ts h hn hb hlow hcontrib hearly hok
    let d := s.dev.setLt p l t.issued
    have hlt : d.lt p l = t.issued := lt_setLt_same _ _ _ _
    have hword {hi lo : Nat} (hle : 12 ≤ lo) : bits (opApply.word w) hi lo = bits w.toNat hi lo := bits_word rfl w hle
    have hcount : ((d.lt p l).sreg (bits (opApply.word w) 33 28)).toNat = n := by rw [hlt, hword (by decide)]; rfl
    have hloc : locOf ((d.lt p l).areg (bits (opApply.word w) 27 24)) = x := by rw [hlt, hword (by decide)]; rfl
    have hbs : (List.range n).map (fun i => d.spRead p l (x.pos + 64 * i) 64) = bs :=
      List.map_congr_left (fun i _ => spRead_setLt (d := s.dev) (t := t.issued) rfl _ _)
    have hact : applyAct t.nextOp p l (opApply.word w) d = d.applied p l o ts := by
      rw [applyAct_ok hcount hloc hn (locOf_of_issues_apply h) hb hlow hcontrib hearly (by rw [hbs, takeDescs_setLt]; exact hok),
        cfOf_word (o := opApply) rfl]
    refine ⟨d.applied p l o ts, ?_, ?_, ?_, rfl, rfl⟩
    · rw [exec_unit (o := opApply) rfl rfl h, hact]
    · simp [Device.applied]
    · simp [Device.applied, hlt]

end Sys2Proof.Machine
end

section
/-! PROOF. Array current (R92, R109, R110, R121): the statement fails on a state whose handle table places a handle on a stack that no device has. -/
namespace Sys2Proof.Machine

/-- The stack number at which PWR_DOM[32 + x], at 0x20100 + 8 * (32 + x), and RAS_LOG_SEQ, at 0x600010, are one register. -/
def seqStack : Nat := 0xBBFC2

/-- A handle placed on that stack alone. -/
def seqHandle : HEntry :=
  { cls := 1, access := 0, localLt := 0, size := 65536, place := { spread := false, stack := seqStack, list := [], segs := [] } }

/-- A window pass of group 0 heads the queue; its engine streams from the handle. -/
def seqTile : LTile :=
  { LTile.reset with
    arr := [.pass { id := 1, ag := 0, fa := 1, fb := 1, bsz := 0, kch := 1, aa := 0, ab := 0,
                     conv := some 0, win := none, first := true, cf := none }],
    groups := [(0, some { oid := 0, m := 1, acc := 0, init := false, ai := 0, bias := 0, recomp := 0, gauge := false, sums := [] })],
    armed := [(0, some { id := 0, as := BitVec.ofNat 64 (5 * 2 ^ 32), ai := 0, used := false })] }

/-- Tile 0 is ON at full array current, in a gap; NEXT_SEQ reads 1, so the handle's stack does not read as ON, and the next record has SEQ 3. -/
def seqDevice : Device :=
  { Device.reset with
    regs := [((fDom 0).addr, 0), (fNextSeq.addr, 1)], seqNv := 3, lts := [(0, seqTile)],
    parts := [(0, { Part.reset with handles := [(5, some seqHandle)] })],
    tiles := [(0, { PTile.reset with part := some 0, hosted := [0], level := 4, gap := 0 })] }

/-- The machine with that device. -/
def seqState : State := { State.reset with dev := seqDevice }

/-- A mismatch that the tension ops of a step meet (R121). -/
def seqMismatch : TensionFind := { array := 0, group := 0 }

theorem exec_tensionLevelStep (p : Fin 8) (x : TensionOps) (s : State) :
    exec (.tensionLevelStep p x) s = .next (s.withDev (tensionStep p x.lt x.bad s.dev)) := rfl

/-- States that differ in the device alone answer the same only with the same device. -/
theorem dev_of_next {s : State} {d e : Device}
    (h : (Host.Outcome.next (s.withDev d) : Host.Outcome State Fault Refusal) = .next (s.withDev e)) : d = e :=
  congrArg State.dev (Host.Outcome.next.inj h)

/-- Every hypothesis of the step down holds: no pass waits, for the stack of the pass's stream does not read as ON. -/
theorem seqDevice_inGap : seqDevice.hostOf 0 0 = some 0 ∧ (seqDevice.tile 0).run = 0 ∧ seqDevice.domOn 0 = true ∧
    seqDevice.arraysOut 0 = false ∧ seqDevice.arraysBusy 0 0 = false ∧ seqDevice.passWaits 0 0 = false ∧
    (seqDevice.tile 0).holdCyc = 0 ∧ (seqDevice.tile 0).ramping = false := by decide +kernel

/-- The record of the mismatch sets NEXT_SEQ to 4: the stack then reads as ON, the pass waits, and the level stays where it is. -/
theorem gap_tensionStep_seqDevice : ((tensionStep (0 : Fin 8) (0 : Fin 32) [seqMismatch] seqState.dev).tile 0).gap = 0 := by decide +kernel

/-- Refutes O8: in TENSION_LEVEL_STEP with no pass waiting the gap does not grow where the record of a mismatch writes the register that the
stack of the next pass's stream reads as its power state. No device has that stack; the statement asks for every state. -/
theorem not_tensionCommands : ¬ Obligations.TensionCommands := by
  unfold Obligations.TensionCommands
  intro hall
  obtain ⟨hhost, hrun, hon, hin, hidle, hwaits, hhold, hramp⟩ := seqDevice_inGap
  obtain ⟨-, -, -, -, hstep⟩ := hall 0 0 0 seqState 0 hhost
  obtain ⟨d, hexec, hgap, -⟩ := (hstep [seqMismatch] hrun hon hin hidle).1 hwaits hhold hramp
  rw [exec_tensionLevelStep] at hexec
  have hd := dev_of_next hexec
  rw [← hd, gap_tensionStep_seqDevice] at hgap
  exact absurd hgap (by decide)

end Sys2Proof.Machine
end

section
/-! SUPPORT. What an error record and a fault change of a partition: its work items, whether its step stops, and which of its logical tiles
are halted (R53 to R56, R368, R372). -/
namespace Sys2Proof.Machine

/-- The tables of the partitions and of the logical tiles, which no wake and no error record touches. -/
def Device.tables (d : Device) : Tab Part × Tab LTile := (d.parts, d.lts)

section
variable (d : Device)

@[simp] theorem tables_wr (f : Fld) (v : Nat) : (d.wr f v).tables = d.tables := rfl
@[simp] theorem tables_inc (f : Fld) (n : Nat) : (d.inc f n).tables = d.tables := rfl
@[simp] theorem tables_modTile (t : Nat) (f : PTile → PTile) : (d.modTile t f).tables = d.tables := rfl
@[simp] theorem tables_modDom (n : Nat) (f : Dom → Dom) : (d.modDom n f).tables = d.tables := rfl
@[simp] theorem tables_modPort (n : Nat) (f : Port → Port) : (d.modPort n f).tables = d.tables := rfl

theorem tables_startExit (n c : Nat) : (startExit d n c).tables = d.tables := by
  unfold startExit
  simp only [apply_ite Device.tables, tables_modPort, tables_modDom, tables_wr, ite_self]

theorem tables_wakeOne (n c : Nat) : (wakeOne d n c).tables = d.tables := by
  unfold wakeOne
  simp only [apply_ite Device.tables, tables_modDom, tables_startExit, ite_self]

theorem tables_wakeDom (n c : Nat) : (wakeDom d n c).tables = d.tables := by
  unfold wakeDom
  simp only [tables_wakeOne, apply_ite Device.tables, foldl_keeps Device.tables _ (fun d k => tables_wakeOne d (74 + k) 11), ite_self]

theorem tables_wakeTiles (p c : Nat) : (wakeTiles d p c).tables = d.tables :=
  foldl_keeps Device.tables _ (fun d t => tables_wakeDom d t c) _ _

theorem tables_refuseDom (n r : Nat) : (refuseDom d n r).tables = d.tables := by
  unfold refuseDom
  simp only [apply_ite Device.tables, tables_modDom, ite_self]

theorem tables_addRecord (r : ERec) : (addRecord d r).tables = d.tables := by
  unfold addRecord
  dsimp only
  simp only [apply_ite Device.tables, tables_inc, tables_wr, ite_self]
  split
  · simp only [apply_ite Device.tables, tables_refuseDom, tables_wr, ite_self]; rfl
  · rfl

theorem tables_requestCheck (r : ERec) : (requestCheck d r).tables = d.tables := by
  unfold requestCheck
  simp only [apply_ite Device.tables, tables_inc, verdictRec, tables_addRecord]
  exact (ite_eq_left_iff.mpr fun _ => ite_eq_left_iff.mpr fun _ => rfl)

theorem tables_errorCheck (r : ERec) : (errorCheck d r).tables = d.tables :=
  (tables_requestCheck _ _).trans (tables_addRecord _ _)

end

/-- A partition is an entry of the table of partitions alone. -/
theorem part_of_tables {d e : Device} (h : e.tables = d.tables) (p : Nat) : e.part p = d.part p :=
  congrArg (fun t : Tab Part × Tab LTile => tget Part.reset t.1 p) h

/-- A logical tile is an entry of the table of logical tiles alone. -/
theorem lt_of_tables {d e : Device} (h : e.tables = d.tables) (p l : Nat) : e.lt p l = d.lt p l := lt_of_lts (congrArg Prod.snd h) p l

/-- Device `e` is what records and faults in partition `p` may make of device `d`. -/
structure Faulted (p : Nat) (d e : Device) : Prop where
  mems : e.mems = d.mems
  part : ∃ ws b, e.part p = { d.part p with wis := ws, stopping := b }
  tile : ∀ l, ∃ b, e.lt p l = { d.lt p l with block := b }

namespace Faulted
variable {p : Nat} {d e f : Device}

theorem of_tables (hm : e.mems = d.mems) (ht : e.tables = d.tables) : Faulted p d e where
  mems := hm
  part := ⟨(d.part p).wis, (d.part p).stopping, part_of_tables ht p⟩
  tile l := ⟨(d.lt p l).block, lt_of_tables ht p l⟩

theorem refl (d : Device) : Faulted p d d := of_tables rfl rfl

theorem trans (h : Faulted p d e) (g : Faulted p e f) : Faulted p d f where
  mems := g.mems.trans h.mems
  part := by
    obtain ⟨_, _, he⟩ := h.part
    obtain ⟨ws, b, hf⟩ := g.part
    exact ⟨ws, b, by rw [hf, he]⟩
  tile l := by
    obtain ⟨_, he⟩ := h.tile l
    obtain ⟨b, hf⟩ := g.tile l
    exact ⟨b, by rw [hf, he]⟩

theorem recordFault (d : Device) (p : Nat) (c : Cause) : Faulted p d (recordFault d p c) := by
  have hset (b : Bool) : Faulted p d (d.setPart p { (d.part p).modRunning (WorkItem.blame c) with stopping := b }) :=
    ⟨rfl, ⟨_, b, part_setPart_same _ _ _⟩, fun l => ⟨(d.lt p l).block, rfl⟩⟩
  unfold Machine.recordFault
  dsimp only
  split
  · exact refl d
  · split
    · exact hset (d.part p).stopping
    · exact (hset true).trans (of_tables (mems_wakeTiles _ _ _) (tables_wakeTiles _ _ _))

theorem halt (d : Device) (p l : Nat) : Faulted p d (d.modLt p l (fun t => { t with block := .halted })) where
  mems := rfl
  part := ⟨(d.part p).wis, (d.part p).stopping, rfl⟩
  tile k := by
    by_cases hk : k = l
    · subst hk; exact ⟨.halted, lt_modLt_same _ _ _ _⟩
    · exact ⟨(d.lt p k).block, lt_modLt_other d p _ hk⟩

theorem foldl {α : Type} {g : Device → α → Device} (h : ∀ d a, Faulted p d (g d a)) (as : List α) (d : Device) :
    Faulted p d (as.foldl g d) := by
  induction as generalizing d with
  | nil => exact refl d
  | cons a as ih => exact (h d a).trans (ih _)

theorem tilesFault (d : Device) (p : Nat) (ls : List Nat) (c : Cause) : Faulted p d (tilesFault d p ls c) := by
  unfold Machine.tilesFault
  dsimp only
  split
  · exact (recordFault d p c).trans (foldl (fun d l => halt d p l) ls _)
  · exact recordFault d p c

theorem tileFault (d : Device) (p l : Nat) (c : Cause) : Faulted p d (tileFault d p l c) := tilesFault d p [l] c

theorem errorCheck (d : Device) (p : Nat) (r : ERec) : Faulted p d (errorCheck d r) :=
  of_tables (mems_errorCheck d r) (tables_errorCheck d r)

theorem ueFault (d : Device) (p : Nat) (ls : List Nat) (r : ERec) : Faulted p d (ueFault d p ls r) :=
  (errorCheck d p _).trans (tilesFault _ p ls .ue)

theorem ite {c : Prop} [Decidable c] (he : Faulted p d e) (hf : Faulted p d f) : Faulted p d (if c then e else f) := by
  split
  · exact he
  · exact hf

theorem residueRec (d : Device) (p l t gid : Nat) (b : RowFind) : Faulted p d (residueRec d p l t gid b) := by
  have hcount : Faulted p d (if b.weight then d else d.inc (fReplays t)) := ite (refl d) (of_tables (mems_inc _ _ _) (tables_inc _ _ _))
  unfold Machine.residueRec
  exact hcount.trans (ite (ueFault _ p [l] _) (errorCheck _ p _))

/-- The mismatches of a pass leave records, and faults where a replay does not heal them (R121). -/
theorem residueRecs (d : Device) (p l t gid : Nat) (bs : List RowFind) : Faulted p d (residueRecs d p l t gid bs) :=
  foldl (fun d b => residueRec d p l t gid b) bs d

/-- What it leaves alone of a logical tile: everything but its block. -/
theorem lt_keeps {γ : Type} (h : Faulted p d e) (g : LTile → γ) (hg : ∀ t b, g { t with block := b } = g t) (l : Nat) :
    g (e.lt p l) = g (d.lt p l) := by
  obtain ⟨b, he⟩ := h.tile l
  rw [he, hg]

/-- What it leaves alone of the partition: everything but its work items and whether its step stops. -/
theorem part_keeps {γ : Type} (h : Faulted p d e) (g : Part → γ) (hg : ∀ P ws b, g { P with wis := ws, stopping := b } = g P) :
    g (e.part p) = g (d.part p) := by
  obtain ⟨ws, b, he⟩ := h.part
  rw [he, hg]

end Faulted

end Sys2Proof.Machine
end

section
/-! PROOF. A pass begins at the flip and adds to its group when done (R98, R101, R105, R106, R108, R110, R121, R152). -/
namespace Sys2Proof.Machine

-- What the steps of a pass leave alone.

theorem lt_openRegion (d : Device) (p l : Nat) : (d.openRegion p l).lt p l = { d.lt p l with psFree := some d.free } :=
  lt_modLt_same _ _ _ _

/-- Addressing a location writes of a logical tile's state its groups and how its partial-sum region reads, and nothing else (R106). -/
theorem lt_touch (d : Device) (p l : Nat) (x : Loc) (n : Nat) : (d.touch p l x n).lt p l =
    { d.lt p l with groups := ((d.touch p l x n).lt p l).groups, psFree := ((d.touch p l x n).lt p l).psFree } := by
  have hfree (e : Device) (k : Nat) : ({ e with free := k } : Device).lt p l = e.lt p l := rfl
  unfold Device.touch Device.scramble
  split
  · split
    · rfl
    · simp only [lt_modLt_same, hfree, lt_modPart, lt_openRegion]
  · rfl

/-- The start of a gap changes the physical tile alone (R109). -/
theorem gapStart_keeps (d : Device) (p l : Nat) : (gapStart d p l).mems = d.mems ∧ (gapStart d p l).tables = d.tables := by
  unfold gapStart
  split
  · exact ⟨rfl, rfl⟩
  · split
    · exact ⟨rfl, rfl⟩
    · exact ⟨mems_modTile _ _ _, tables_modTile _ _ _⟩

/-- Counting the stall of a pass writes a register (Table 4-11). -/
theorem countStall_keeps (d : Device) (t : Nat) (x : LTile) (q : Pass) :
    (countStall d t x q).mems = d.mems ∧ (countStall d t x q).tables = d.tables := by
  unfold countStall
  split
  · exact ⟨mems_inc _ _ _, tables_inc _ _ _⟩
  · exact ⟨mems_inc _ _ _, tables_inc _ _ _⟩

/-- The end of a gap changes the physical tile and its count of tension cycles alone (R109). -/
theorem endGap_keeps (t : Nat) (d : Device) : (endGap t d).mems = d.mems ∧ (endGap t d).tables = d.tables := by
  unfold endGap addTension
  dsimp only
  rw [mems_modTile, mems_inc, tables_modTile, tables_inc]
  exact ⟨rfl, rfl⟩

-- The flip.

/-- A pass on no window stream, as it stands once begun. -/
def Pass.plain (q : Pass) : Pass := { q with win := none }

/-- Logical tile `t` once pass `q` of its arrays' queue, behind `n` passes begun, broadcasts with the weights `w` (R101, R102). -/
def LTile.flip (t : LTile) (n : Nat) (q : Pass) (w : WSet) : LTile :=
  { t with begun := t.begun ++ [⟨q.plain, w⟩], wact := some w, wsh := none, flips := t.flips + 1, wide := q.wide,
           arr := t.arr.take n ++ ArrOp.pass q.plain :: t.arr.drop (n + 1) }

/-- The device once a pass has begun on tile `t`: the pass is counted, its logical tile, `x` before its weights were read, flips, and the gap
before it is over. -/
def Device.flipped (d : Device) (p l t : Nat) (x : LTile) (q : Pass) (w : WSet) : Device :=
  let e := (countStall d t x q).modLt p l (fun y => y.flip x.begun.length q w)
  if x.begun.length = 0 then endGap t e else e

section
variable {p l t : Nat} {q : Pass} {w : WSet} {d : Device}

theorem lt_flipped (d : Device) (p l t : Nat) (x : LTile) (q : Pass) (w : WSet) :
    (d.flipped p l t x q w).lt p l = (d.lt p l).flip x.begun.length q w := by
  have hgap (e : Device) : (endGap t e).lt p l = e.lt p l := lt_of_tables (endGap_keeps t e).2 p l
  have hcount : (countStall d t x q).lt p l = d.lt p l := lt_of_tables (countStall_keeps d t x q).2 p l
  unfold Device.flipped
  simp only [apply_ite (fun e : Device => e.lt p l), hgap, lt_modLt_same, hcount, ite_self]

theorem mems_flipped (d : Device) (p l t : Nat) (x : LTile) (q : Pass) (w : WSet) : (d.flipped p l t x q w).mems = d.mems := by
  unfold Device.flipped
  simp only [apply_ite Device.mems, (endGap_keeps t _).1, mems_modLt, (countStall_keeps d t x q).1, ite_self]

/-- The flip itself changes neither the groups nor a byte of the scratchpads. -/
theorem flipped_keeps (d : Device) (p l t : Nat) (x : LTile) (q : Pass) (w : WSet) :
    ((d.flipped p l t x q w).lt p l).groups = (d.lt p l).groups ∧ (d.flipped p l t x q w).spad = d.spad :=
  ⟨by rw [lt_flipped]; rfl, congrArg Prod.snd (mems_flipped d p l t x q w)⟩

/-- A pass whose weights are cast on begins with them (R101). -/
theorem beginPass_cast (hconv : q.conv = none) (hw : (d.lt p l).wsh = some w) (hop : w.op = q.id) :
    beginPass p l t q d = drain p l (d.flipped p l t (d.lt p l) q w) := by
  simp only [beginPass, hconv, hw, hop, decide_true, if_true, Option.getD_some, Device.flipped, LTile.flip, Pass.plain]

/-- A pass whose weights are not cast on casts them on as it begins (R101, R106). -/
theorem beginPass_castsOn (hconv : q.conv = none) (hw : (d.lt p l).wsh = none) :
    beginPass p l t q d = drain p l ((d.touch p l (locOf q.ab) (planeBytes q.fb q.bsz 1024 q.k)).flipped p l t (d.lt p l) q
      ((d.touch p l (locOf q.ab) (planeBytes q.fb q.bsz 1024 q.k)).castOn p l q)) := by
  simp only [beginPass, hconv, hw, Bool.false_eq_true, if_false, Device.flipped, LTile.flip, Pass.plain]

/-- The flip begins the next pass of the queue, at full array current, with no drop check of the arrays due, in a work item that is not
stopped (R101, R108, R110, R121). -/
theorem weightFlip_ready (hq : (d.lt p l).headPass = some q) (ht : d.arraysOf p l = some t) (hlevel : (d.tile t).level = 4)
    (hrun : (d.part p).stopping = false) (hdue : d.checkDue t = false) (hready : d.passReady p l q = true) (hconv : q.conv = none) :
    weightFlip p l d = beginPass p l t q d := by
  simp only [weightFlip, hq, ht, hrun, hdue, hready, hlevel, hconv, Bool.or_self, Bool.not_true, Bool.false_eq_true, if_false, ne_eq,
    not_true_eq_false, Option.bind_none]

end

-- The end of a pass.

/-- Bytes read at a location depend on both memories and on how the partial-sum region reads (R106). -/
theorem readAt_congr {d e : Device} {p l : Nat} (hm : e.mems = d.mems) (hps : (e.lt p l).psFree = (d.lt p l).psFree) (x : Loc) (n : Nat) :
    e.readAt p l x n = d.readAt p l x n := by
  obtain ⟨hmem, hspad⟩ := Prod.mk.inj hm
  have hxor (off : Nat) (bs : List Byte) : (e.lt p l).spXor off bs = (d.lt p l).spXor off bs := by
    induction bs generalizing off with
    | nil => rfl
    | cons b bs ih => simp only [LTile.spXor, LTile.spMask, hps, ih]
  unfold Device.readAt Device.spRead Device.hRead
  rw [hmem, hspad, hxor]

/-- The sums of a pass depend on what it reads alone (R98). -/
theorem passSums_congr {d e : Device} {p l : Nat} (hm : e.mems = d.mems) (hps : (e.lt p l).psFree = (d.lt p l).psFree)
    (g : Group) (q : Pass) (wrd : Rd) (skip : List Nat) : e.passSums p l g q wrd skip = d.passSums p l g q wrd skip := by
  have hread : e.readAt p l = d.readAt p l := funext fun x => funext fun n => readAt_congr hm hps x n
  unfold Device.passSums Device.passA Device.winDesc Device.reader
  rw [hread]

/-- The link that binds a group depends on the partition's links and on the MMA.OPEN of the group alone (R162). -/
theorem boundLink_congr {d e : Device} {p l ag : Nat} {g g' : Group} (hlinks : (e.part p).links = (d.part p).links)
    (hd : (d.lt p l).group ag = some g) (he : (e.lt p l).group ag = some g') (ho : g'.oid = g.oid) :
    e.boundLink p l ag = d.boundLink p l ag := by
  simp only [Device.boundLink, hlinks, hd, he, ho]

section
variable {p l h : Nat} {d : Device} {q : Pass} {w : WSet} {g : Group} {bad : List RowFind}

/-- The device with a pass recorded and its group's sums `g` (R105, R152). -/
def Device.added (d : Device) (p l : Nat) (q : Pass) (g : Group) : Device :=
  d.modLt p l (fun t => { t with passes := t.passes ++ [q] }.setGroup q.ag (some g))

theorem lt_added (d : Device) (p l : Nat) (q : Pass) (g : Group) :
    (d.added p l q g).lt p l = { d.lt p l with passes := (d.lt p l).passes ++ [q] }.setGroup q.ag (some g) := lt_modLt_same _ _ _ _

theorem group_added (d : Device) (p l : Nat) (q : Pass) (g : Group) : ((d.added p l q g).lt p l).group q.ag = some g := by
  rw [lt_added, LTile.group, LTile.setGroup, tget_tset_same]

/-- A pass of a group that no cable binds writes its sums, and recomputes nothing where none overflowed (R105, R154). -/
theorem passResult_fits (hfree : (d.added p l q g).boundLink p l q.ag = none) : passResult p l q g false d = d.added p l q g := by
  rw [Device.added] at hfree ⊢
  simp only [passResult, hfree, Bool.not_false, Bool.true_or, if_true]

/-- The device once the last operation of a logical tile's arrays' queue, the oldest pass begun, is over, and a gap begins (R109). -/
def Device.passLeft (d : Device) (p l : Nat) : Device :=
  gapStart (d.modLt p l (fun t => { t with arr := [], begun := t.begun.drop 1 })) p l

theorem lt_passLeft (d : Device) (p l : Nat) : (d.passLeft p l).lt p l = { d.lt p l with arr := [], begun := (d.lt p l).begun.drop 1 } :=
  (lt_of_tables (gapStart_keeps _ _ _).2 p l).trans (lt_modLt_same _ _ _ _)

theorem leavePass_last {o : ArrOp} (harr : (d.lt p l).arr = [o]) : leavePass p l d = d.passLeft p l := by
  have hd : gapStart (d.modLt p l (fun t => { t with arr := t.arr.drop 1, begun := t.begun.drop 1 })) p l = d.passLeft p l := by
    simp only [Device.passLeft, Device.modLt, harr, List.drop_succ_cons, List.drop_nil]
  rw [leavePass, hd, drain_idle (by rw [lt_passLeft])]

/-- A pass that completes as the last of the queue leaves the groups, the record and the memories alone. -/
theorem passLeft_complete (d : Device) (p l id : Nat) (cf : CF) :
    ((complete d p l id cf).passLeft p l).mems = d.mems ∧ ∃ t, ((complete d p l id cf).passLeft p l).lt p l = t ∧
      t.arr = [] ∧ t.begun = (d.lt p l).begun.drop 1 ∧ t.groups = (d.lt p l).groups ∧ t.passes = (d.lt p l).passes := by
  obtain ⟨-, hgroups, hpasses⟩ := arrays_complete d p l id cf
  have hbegun : ((complete d p l id cf).lt p l).begun = (d.lt p l).begun := (lt_postKeeps (·.begun) (fun _ _ _ _ => rfl) p l).complete d p l id cf
  exact ⟨(gapStart_keeps _ _ _).1.trans (mems_complete d p l id cf), _, lt_passLeft _ _ _, rfl, congrArg (List.drop 1) hbegun, hgroups, hpasses⟩

/-- The pass at the end of the queue, whose operands fault nothing and whose activations lie below the partial-sum region, leaves its records,
joins the record, adds to its group and completes (R98, R105, R121, R152). -/
theorem passRun_last (hg : (d.lt p l).group q.ag = some g) (hwin : q.win = none) (hfree : d.boundLink p l q.ag = none)
    (hfault : d.passFault p l g.m q = none) (hlow : (locOf q.aa).pos + planeBytes q.fa q.bsz g.m q.k ≤ psumBase)
    (hfits : (d.passSums p l g q w.reader (rowsLost bad)).2 = false) :
    passRun p l h ⟨q, w⟩ g ⟨bad, .none, none⟩ d = leavePass p l (complete ((residueRecs d p l h 0 bad).added p l q
      { g with sums := (d.passSums p l g q w.reader (rowsLost bad)).1 }) p l q.id q.cf) := by
  have hrecs := Faulted.residueRecs d p l h 0 bad
  generalize he : residueRecs d p l h 0 bad = e at hrecs
  have hlinks : (e.part p).links = (d.part p).links := hrecs.part_keeps (·.links) (fun _ _ _ => rfl)
  have heg : (e.lt p l).group q.ag = some g := (hrecs.lt_keeps (LTile.group · q.ag) (fun _ _ => rfl) l).trans hg
  have hefree : e.boundLink p l q.ag = none := (boundLink_congr hlinks hg heg rfl).trans hfree
  have hsums : e.passSums p l g q w.reader (rowsLost bad) = d.passSums p l g q w.reader (rowsLost bad) :=
    passSums_congr hrecs.mems (hrecs.lt_keeps (·.psFree) (fun _ _ => rfl) l) _ _ _ _
  generalize d.passSums p l g q w.reader (rowsLost bad) = r at hsums hfits
  have hafree : (e.added p l q { g with sums := r.1 }).boundLink p l q.ag = none :=
    (boundLink_congr (d := e) (e := e.added p l q { g with sums := r.1 }) rfl heg (group_added _ _ _ _ _) rfl).trans hefree
  have hstale : e.passStale p l q.ag = false := by simp only [Device.passStale, hefree]
  simp only [passRun, findMet, tileFound_none, hfree, findUe, Bool.false_eq_true, if_false, hfault, hwin,
    touch_outside d p l _ _ (.inl hlow), hg, Option.getD_some, he, hsums, hfits, hstale, Bool.false_and, passResult_fits hafree]

/-- ARRAY_PASS_DONE writes the results of the oldest pass begun, where no walk runs a unit on the tile, which is in service, and the handles
of the group's initial values serve (R105, R346, R371). -/
theorem passDone_ready {unit : Walk → UProg → UnitInfo} (hbegun : (d.lt p l).begun = [⟨q, w⟩]) (hhost : d.hostOf p l = some h)
    (hin : d.tileOut h = false) (hg : (d.lt p l).group q.ag = some g) (hwalk : ∀ v ∈ (d.part p).walks, ∀ u ∈ v.prog, u.lt ≠ l)
    (hrows : rowsFit d h g.m bad = true) (hreach : d.reachAll p g.initHandles = true) :
    passDone unit p l ⟨bad, .none, none⟩ d = passRun p l h ⟨q, w⟩ g ⟨bad, .none, none⟩ d := by
  have hnone : (d.part p).walks.findSome? (fun v => (v.prog.find? (fun u => decide (u.lt = l) && u.runs)).map (fun u => (v, u))) = none := by
    refine List.findSome?_eq_none_iff.mpr (fun v hv => ?_)
    rw [Option.map_eq_none_iff, List.find?_eq_none]
    intro u hu
    simp [hwalk v hv u hu]
  simp only [passDone, hhost, Option.any_some, hin, Bool.false_eq_true, if_false, hnone, passWrite, hbegun, hg, hrows, if_true, whenReached,
    hreach, metWord, metBy_none]

end

/-- Settles O13: the flip by `weightFlip_ready` and `beginPass_cast` or `beginPass_castsOn`, the end of the pass by `passDone_ready` and
`passRun_last`; what the pass's records and its completion leave alone gives the rest. -/
theorem passesBeginAndAdd : Obligations.PassesBeginAndAdd := by
  unfold Obligations.PassesBeginAndAdd
  refine ⟨?flip, ?done⟩
  case flip =>
    intro p l s q h t begins hq ht hlevel hrun hdue hready hconv
    have hexec : exec (.weightFlip p l) s = .next (s.withDev (beginPass p l h q s.dev)) :=
      congrArg (fun d => Host.Outcome.next (s.withDev d)) (weightFlip_ready hq ht hlevel hrun hdue hready hconv)
    have hbegins {w : WSet} {e : Device} (hbegin : beginPass p l h q s.dev = drain p l (e.flipped p l h t q w))
        (hlt : e.lt p l = { t with groups := (e.lt p l).groups, psFree := (e.lt p l).psFree }) (hmem : e.mem = s.dev.mem) :
        begins w (e.flipped p l h t q w) := by
      have hflip : (e.flipped p l h t q w).lt p l = _ := (lt_flipped _ _ _ _ _ _ _).trans (congrArg (LTile.flip · _ _ _) hlt)
      refine ⟨by rw [hexec, hbegin], ?_, ?_, ?_, ?_, ?_, (congrArg Prod.fst (mems_flipped _ _ _ _ _ _ _)).trans hmem⟩ <;>
        rw [hflip] <;> rfl
    refine ⟨fun w hw hop => ⟨_, hbegins (beginPass_cast hconv hw hop) rfl rfl, flipped_keeps _ _ _ _ _ _ _⟩,
      fun hw => ⟨_, hbegins (beginPass_castsOn hconv hw) (lt_touch _ _ _ _ _) (touch_mem _ _ _ _ _), fun hlow => ?_⟩⟩
    rw [touch_outside _ _ _ _ _ (.inl hlow)]
    exact flipped_keeps _ _ _ _ _ _ _
  case done =>
    intro p l s q w g h bad t sums harr hbegun hhost hin hg hwin hwalk hrows hreach hfree hfault hlow hfits
    have hrecs := Faulted.residueRecs s.dev p l h 0 bad
    let e := residueRecs s.dev p l h 0 bad
    let a := e.added p l q { g with sums := sums.1 }
    have ha : a.lt p l = _ := lt_added _ _ _ _ _
    have harr' : (a.lt p l).arr = [.pass q] :=
      (congrArg LTile.arr ha).trans ((hrecs.lt_keeps (·.arr) (fun _ _ => rfl) l).trans harr)
    have hbegun' : (a.lt p l).begun = [⟨q, w⟩] :=
      (congrArg LTile.begun ha).trans ((hrecs.lt_keeps (·.begun) (fun _ _ => rfl) l).trans hbegun)
    have hpasses' : (a.lt p l).passes = t.passes ++ [q] :=
      (congrArg LTile.passes ha).trans (congrArg (· ++ [q]) (hrecs.lt_keeps (·.passes) (fun _ _ => rfl) l))
    have hdone : passDone Walk.unitOf p l ⟨bad, .none, none⟩ s.dev = (complete a p l q.id q.cf).passLeft p l := by
      rw [passDone_ready hbegun hhost hin hg hwalk hrows hreach, passRun_last hg hwin hfree hfault hlow hfits]
      exact leavePass_last ((arrays_complete a p l q.id q.cf).1.trans harr')
    obtain ⟨hmems, _, rfl, hdarr, hdbegun, hdgroups, hdpasses⟩ := passLeft_complete a p l q.id q.cf
    have hmem := hmems.trans hrecs.mems
    exact ⟨_, congrArg (fun d => Host.Outcome.next (s.withDev d)) hdone,
      (congrArg (tget none · q.ag) hdgroups).trans (group_added e p l q _), hdpasses.trans hpasses', hdarr,
      hdbegun.trans (congrArg (List.drop 1) hbegun'), congrArg Prod.fst hmem, congrArg Prod.snd hmem⟩

end Sys2Proof.Machine
end

section
/-! PROOF. Grouped walks deal their units and complete (R85, R108, R110, R116, R119). -/
namespace Sys2Proof.Machine

-- The walks of a partition.

/-- A walk that stands in a partition has the number it is found by. -/
theorem wid_of_walk {P : Part} {wid : Nat} {w : Walk} (h : P.walk wid = some w) : w.wid = wid :=
  of_decide_eq_true (List.find?_some (p := fun w : Walk => decide (w.wid = wid)) h)

/-- A partition none of whose walks has a number has no walk of it. -/
theorem walk_eq_none {P : Part} {wid : Nat} (h : wid ∉ P.walks.map (·.wid)) : P.walk wid = none := by
  refine List.find?_eq_none.mpr (fun v hv => ?_)
  have hne : v.wid ≠ wid := fun heq => h (heq ▸ List.mem_map_of_mem hv)
  simpa using hne

/-- A change to the walks of one number that keeps it is found under that number. -/
theorem walk_modWalk (d : Device) (p wid : Nat) {f : Walk → Walk} (hf : ∀ w, (f w).wid = w.wid) :
    ((modWalk d p wid f).part p).walk wid = ((d.part p).walk wid).map f := by
  have hwid (w : Walk) : (if w.wid = wid then f w else w).wid = w.wid := by
    split
    · exact hf w
    · rfl
  rw [modWalk, part_modPart_same]
  unfold Part.walk
  rw [List.find?_map]
  have hcomp : (fun w : Walk => decide (w.wid = wid)) ∘ (fun w => if w.wid = wid then f w else w) = fun w => decide (w.wid = wid) :=
    funext fun w => by simp only [Function.comp_apply, hwid]
  rw [hcomp]
  cases hw : (d.part p).walks.find? (fun w => decide (w.wid = wid)) with
  | none => rfl
  | some w => rw [Option.map_some, Option.map_some, if_pos (wid_of_walk hw)]

-- The deal.

section
variable {p l h id wid : Nat} {cf : CF} {k : Walk} {d : Device}

theorem walkHead_of_arr {os : List ArrOp} (harr : (d.lt p l).arr = .walk id wid cf :: os) : (d.lt p l).walkHead = some (id, wid, cf) := by
  simp only [LTile.walkHead, harr]

/-- What the arrays of tile `h` count as a unit goes to them: its stalls, and a gap that it ends (R109, Table 4-11). -/
def Device.dealCount (d : Device) (p l h n : Nat) : Device :=
  let e := unitStalls p l h n d
  if e.arraysBusy p l then e else endGap h e

theorem dealCount_keeps (d : Device) (p l h n : Nat) : (d.dealCount p l h n).mems = d.mems ∧ (d.dealCount p l h n).tables = d.tables := by
  have hstalls : (unitStalls p l h n d).mems = d.mems ∧ (unitStalls p l h n d).tables = d.tables := by
    unfold unitStalls
    exact ⟨mems_inc _ _ _, tables_inc _ _ _⟩
  unfold Device.dealCount
  dsimp only
  split
  · exact hstalls
  · exact ⟨(endGap_keeps h _).1.trans hstalls.1, (endGap_keeps h _).2.trans hstalls.2⟩

/-- A walk whose first unit left is dealt to logical tile `l` (R116). -/
def Walk.dealt (w : Walk) (l : Nat) (u : GUnit) (us : List GUnit) : Walk :=
  { w with units := us, prog := w.prog ++ [⟨l, u, w.passes u, 0, [], false⟩] }

/-- GRP_UNIT_DEAL of a walk that runs deals the next unit, at full array current, to a tile that has at most one in progress (R110, R116). -/
theorem unitDeal_ready {u : GUnit} {us : List GUnit} (harr : (d.lt p l).arr = [.walk id wid cf]) (hwalk : (d.part p).walk wid = some k)
    (hstart : k.started = true) (hrun : (d.part p).stopping = false) (hh : d.arraysOf p l = some h) (hdue : d.checkDue h = false)
    (hlevel : (d.tile h).level = 4) (hunits : k.units = u :: us) (hroom : (k.prog.filter (fun x => decide (x.lt = l))).length ≤ 1) :
    unitDeal p l d = modWalk (d.dealCount p l h (k.passes u)) p wid (Walk.dealt · l u us) := by
  have hdeal : unitDeal p l d = dealUnit p l h k d := by
    simp only [unitDeal, walkHead_of_arr harr, hh, hwalk, hstart, if_true]
  rw [hdeal, dealUnit]
  simp only [hunits, hrun, hdue, hlevel, Bool.or_self, ne_eq, not_true_eq_false, decide_false, Bool.false_eq_true, if_false, wid_of_walk hwalk]
  split
  next hmine => exact absurd hroom (by simp [hmine])
  next => rfl

-- The end of a walk.

/-- The device with none of a walk's units in progress. -/
def Device.unitsDone (d : Device) (p wid : Nat) : Device := modWalk d p wid (fun w => { w with prog := [] })

/-- The device once the last operation of logical tile `l`'s arrays' queue, operation `id` of a walk of it alone, completes, with none of the
walk's units in progress (R85). -/
def Device.walkCompleted (d : Device) (p l id wid : Nat) (cf : CF) : Device :=
  complete ((d.unitsDone p wid).modLt p l (fun t => { t with arr := [] })) p l id cf

/-- Its arrays' queue is empty. -/
theorem arr_walkCompleted (d : Device) (p l id wid : Nat) (cf : CF) : ((d.walkCompleted p l id wid cf).lt p l).arr = [] := by
  rw [Device.walkCompleted, (arrays_complete _ p l id cf).1, lt_modLt_same]

/-- A walk of one tile, with every unit dealt and none in progress, completes there; a gap begins if the tile ran passes to the end (R85, R109). -/
theorem leaveWalk_last (busy : List Nat) (harr : (d.lt p l).arr = [.walk id wid cf]) (hwalk : (d.part p).walk wid = some k) :
    leaveWalk p wid busy (d.unitsDone p wid) l =
      if busy.contains l then gapStart (d.walkCompleted p l id wid (if k.failed then none else cf)) p l
      else d.walkCompleted p l id wid (if k.failed then none else cf) := by
  have harr' : ((d.unitsDone p wid).lt p l).arr = [.walk id wid cf] := harr
  have hwalk' : ((d.unitsDone p wid).part p).walk wid = some { k with prog := [] } :=
    (walk_modWalk d p wid (f := fun w => { w with prog := [] }) (fun _ => rfl)).trans (congrArg (Option.map _) hwalk)
  have hleft : (d.unitsDone p wid).modLt p l (fun t => { t with arr := t.arr.drop 1 }) =
      (d.unitsDone p wid).modLt p l (fun t => { t with arr := [] }) := by
    simp only [Device.modLt, harr', List.drop_succ_cons, List.drop_nil]
  simp only [leaveWalk, hwalk', Option.any_some, walkHead_of_arr harr', if_true, hleft]
  refine drain_idle ?_
  rw [apply_ite (fun e : Device => (e.lt p l).arr), lt_of_tables (gapStart_keeps _ _ _).2, ite_self]
  exact arr_walkCompleted _ _ _ _ _ _

/-- GRP_WALK_DONE completes a walk with every unit dealt, in a work item that is not stopped, while the arrays of its one tile are in service
(R85, R108, R121, R371). -/
theorem walkDone_ready (harr : (d.lt p l).arr = [.walk id wid cf]) (hwalk : (d.part p).walk wid = some k) (hstart : k.started = true)
    (hrun : (d.part p).stopping = false) (hunits : k.units = []) (hprog : k.prog = []) (hmask : maskLts k.mask = [l])
    (hh : d.hostOf p l = some h) (hin : d.arraysOut h = false) : walkDone p l d = walkFinish p k d := by
  simp only [walkDone, walkHead_of_arr harr, hwalk, hstart, hunits, hrun, hmask, hprog, hh, hin, List.any_cons, List.any_nil, Option.any_some,
    List.isEmpty_nil, Bool.not_true, Bool.or_self, Bool.false_eq_true, if_false]
  exact whenRead_ready rfl rfl 4 _

/-- A walk of one tile that has no unit in progress leaves the tile, then the partition, and frees the tile's engines (R85, R119). -/
theorem walkFinish_one (hwalk : (d.part p).walk wid = some k) (hprog : k.prog = []) (hmask : maskLts k.mask = [l]) : walkFinish p k d =
    armEngine (armEngine ((leaveWalk p wid ([l].filter (d.arraysBusy p)) (d.unitsDone p wid) l).modPart p
      (fun P => { P with walks := P.walks.filter (fun v => decide (v.wid ≠ wid)) })) p l 6) p l 7 := by
  simp only [walkFinish, finishUnits, hprog, hmask, List.filter_nil, List.foldl_nil, List.foldl_cons, wid_of_walk hwalk, Device.unitsDone]

/-- The completion of an operation on a tile that is ON and in service adds 1 to the counter of its completion field (R48, R49, R66, R346). -/
theorem ctr_complete (hrun : (d.part p).isRunning = true) (hh : d.hostOf p l = some h) (hon : d.domOn h = true) (hin : d.tileOut h = false)
    {c : Nat} (hc : (tget 0 (d.lt p l).ctr c).toNat < 0xFFFFFFFF) :
    (tget 0 ((complete d p l id (some c)).lt p l).ctr c).toNat = (tget 0 (d.lt p l).ctr c).toNat + 1 := by
  let e := d.modLt p l (fun t => { t with posts := t.posts.map (fun q => { q with waits := q.waits.filter (· ≠ id) }) })
  have hlt : e.lt p l = _ := lt_modLt_same _ _ _ _
  have hctr : (e.lt p l).ctr = (d.lt p l).ctr := by rw [hlt]
  have hpost : complete d p l id (some c) = bumpCounter e [l] p l c 1 := post_serving (d := e) hrun hh hon hin [l] c 1
  rw [hpost, lt_bumpCounter [l] (by rw [hctr]; omega), tget_tset_same, BitVec.toNat_ofNat, hctr]
  exact Nat.mod_eq_of_lt (by omega)

theorem ctr_walkCompleted (hrun : (d.part p).isRunning = true) (hh : d.hostOf p l = some h) (hon : d.domOn h = true)
    (hin : d.tileOut h = false) {c : Nat} (hc : (tget 0 (d.lt p l).ctr c).toNat < 0xFFFFFFFF) :
    (tget 0 ((d.walkCompleted p l id wid (some c)).lt p l).ctr c).toNat = (tget 0 (d.lt p l).ctr c).toNat + 1 := by
  let e := (d.unitsDone p wid).modLt p l (fun t => { t with arr := [] })
  have hlt : e.lt p l = { d.lt p l with arr := [] } := lt_modLt_same _ _ _ _
  have hctr : (e.lt p l).ctr = (d.lt p l).ctr := by rw [hlt]
  have hwork : (e.part p).isRunning = true := by
    change ((d.unitsDone p wid).part p).isRunning = true
    rw [Device.unitsDone, modWalk, part_modPart_same]
    exact hrun
  rw [← hctr] at hc ⊢
  exact ctr_complete (d := e) hwork hh hon hin hc

end

-- What an engine that is armed, or whose MOVE.WIN faults, leaves alone.

/-- The bytes behind handles, the arrays' queue and the counters of a logical tile, and the numbers of the walks of its partition. -/
def Device.walkView (d : Device) (p l : Nat) : Mem × List ArrOp × Tab (BitVec 32) × List Nat :=
  (d.mem, (d.lt p l).arr, (d.lt p l).ctr, (d.part p).walks.map (·.wid))

section
variable {p l : Nat}

theorem walkView_touch (d : Device) (x : Loc) (n : Nat) : (d.touch p l x n).walkView p l = d.walkView p l := by
  have hlt := lt_touch d p l x n
  have hwids : ((d.touch p l x n).part p).walks.map (·.wid) = (d.part p).walks.map (·.wid) := by
    have hspoil (P : Part) : (P.walks.map (Walk.spoil l)).map (·.wid) = P.walks.map (·.wid) := by rw [List.map_map]; rfl
    have hfree (e : Device) (k : Nat) : ({ e with free := k } : Device).part p = e.part p := rfl
    have hopen : (d.openRegion p l).part p = d.part p := rfl
    unfold Device.touch Device.scramble
    split
    · split
      · rfl
      · simp only [part_modLt, hfree, part_modPart_same, hspoil, hopen]
    · rfl
  simp only [Device.walkView, touch_mem, congrArg LTile.arr hlt, congrArg LTile.ctr hlt, hwids]

theorem walkView_fault (d : Device) (id : Nat) (c : Cause) : (tileFault (endOp d p l id) p l c).walkView p l = d.walkView p l := by
  have hfault := Faulted.tileFault (endOp d p l id) p l c
  have hend : (endOp d p l id).lt p l = _ := lt_modLt_same _ _ _ _
  have harr := (hfault.lt_keeps (·.arr) (fun _ _ => rfl) l).trans (congrArg LTile.arr hend)
  have hctr := (hfault.lt_keeps (·.ctr) (fun _ _ => rfl) l).trans (congrArg LTile.ctr hend)
  have hwids := hfault.part_keeps (fun P => P.walks.map (·.wid)) (fun _ _ _ => rfl)
  have hmem : (tileFault (endOp d p l id) p l c).mem = d.mem := congrArg Prod.fst hfault.mems
  unfold Device.walkView
  rw [hmem, harr, hctr, hwids]
  rfl

/-- A MOVE leaves the queue of its engine. -/
theorem walkView_setQueue {d e : Device} (h : e.walkView p l = d.walkView p l) (k : Nat) (q : List MoveOp) :
    (e.setLt p l ((d.lt p l).setQueue k q)).walkView p l = d.walkView p l := by
  simp only [Device.walkView, Prod.mk.injEq] at h
  obtain ⟨hmem, -, -, hwids⟩ := h
  simp only [Device.walkView, setLt_mem, lt_setLt_same, part_setLt, hmem, hwids, LTile.setQueue]

theorem walkView_armEngine (d : Device) (p l e : Nat) : (armEngine d p l e).walkView p l = d.walkView p l := by
  have harm (f : Device) (x : Option Window) : (f.modLt p l (fun t => { t with armed := tput e x t.armed })).walkView p l = f.walkView p l := by
    simp only [Device.walkView, lt_modLt_same, modLt_mem, part_modLt]
  unfold armEngine
  dsimp only
  split
  · split
    · rfl
    · split
      · rw [walkView_fault, walkView_setQueue rfl]
      · split
        · rw [harm, walkView_touch]
        · rw [walkView_fault, walkView_setQueue (walkView_touch _ _ _)]
  · rfl

end

-- What the end of a walk leaves.

section
variable {p l h id wid : Nat} {cf : CF} {k : Walk} {d : Device}

/-- A walk of one tile that is over: the tile's arrays' queue is empty, the walk is gone, its completion counts, and memory stays (R85, R119). -/
theorem walkFinish_view (harr : (d.lt p l).arr = [.walk id wid cf]) (hwalk : (d.part p).walk wid = some k) (hprog : k.prog = [])
    (hmask : maskLts k.mask = [l]) : ∃ ws, wid ∉ ws ∧ (walkFinish p k d).walkView p l =
      (d.mem, [], ((d.walkCompleted p l id wid (if k.failed then none else cf)).lt p l).ctr, ws) := by
  let c := d.walkCompleted p l id wid (if k.failed then none else cf)
  have hc : c.mems = d.mems := mems_complete _ _ _ _ _
  have hgap := leaveWalk_last ([l].filter (d.arraysBusy p)) harr hwalk
  let e := leaveWalk p wid ([l].filter (d.arraysBusy p)) (d.unitsDone p wid) l
  have he : e.mems = c.mems ∧ e.tables = c.tables := by
    change (leaveWalk _ _ _ _ _).mems = _ ∧ (leaveWalk _ _ _ _ _).tables = _
    rw [hgap]
    split
    · exact gapStart_keeps _ _ _
    · exact ⟨rfl, rfl⟩
  have hlt : e.lt p l = c.lt p l := lt_of_tables he.2 p l
  have hmem : e.mem = d.mem := congrArg Prod.fst (he.1.trans hc)
  refine ⟨((e.part p).walks.filter (fun v => decide (v.wid ≠ wid))).map (·.wid), by simp, ?_⟩
  rw [walkFinish_one hwalk hprog hmask, walkView_armEngine, walkView_armEngine]
  change (e.mem, (e.lt p l).arr, (e.lt p l).ctr, ((e.modPart p _).part p).walks.map (·.wid)) = _
  rw [part_modPart_same, hmem, hlt, arr_walkCompleted]

end

/-- Settles O15: the deal by `unitDeal_ready`, the end by `walkDone_ready` and what `walkFinish_view` says the walk leaves. -/
theorem walksDealAndComplete : Obligations.WalksDealAndComplete := by
  unfold Obligations.WalksDealAndComplete
  intro p l s id wid h cf k t harr hwalk hstart hrun hhost
  refine ⟨fun u us hh hdue hlevel hunits hroom => ?deal, fun hunits hprog hmask hin => ?done⟩
  case deal =>
    obtain ⟨hmems, htables⟩ := dealCount_keeps s.dev p l h (k.passes u)
    refine ⟨_, congrArg (fun d => Host.Outcome.next (s.withDev d)) (unitDeal_ready harr hwalk hstart hrun hh hdue hlevel hunits hroom),
      ?_, congrArg Prod.snd htables, congrArg Prod.fst hmems, congrArg Prod.snd hmems⟩
    rw [walk_modWalk _ _ _ (f := (Walk.dealt · l u us)) (fun _ => rfl), part_of_tables htables, hwalk]
    rfl
  case done =>
    obtain ⟨ws, hgone, hview⟩ := walkFinish_view harr hwalk hprog hmask
    simp only [Device.walkView, Prod.mk.injEq] at hview
    obtain ⟨hmem, hdarr, hctr, hws⟩ := hview
    refine ⟨walkFinish p k s.dev, congrArg (fun d => Host.Outcome.next (s.withDev d))
      (walkDone_ready harr hwalk hstart hrun hunits hprog hmask hhost hin), hdarr, ?gone, hmem, fun c hcf hok hwork hon hbelow => ?posts⟩
    case gone => exact walk_eq_none (hws ▸ hgone)
    case posts =>
      rw [hctr, hok, hcf]
      exact ctr_walkCompleted hwork hhost hon (Bool.or_eq_false_iff.mp hin).2 hbelow

end Sys2Proof.Machine
end

section
/-! SUPPORT. The links of a partition: how one is found and replaced, and when one that starts or hears a segment leaves the arrays alone
(R157, R160, R162). -/
namespace Sys2Proof.Machine

/-- The first element that a test names, once another that it names stands in its place. -/
theorem find?_replaceFirst {α : Type} {f : α → Bool} {a b : α} {as : List α} (h : as.find? f = some a) (hb : f b = true) :
    (replaceFirst f (fun _ => b) as).find? f = some b := by
  induction as with
  | nil => cases h
  | cons c as ih =>
    cases hc : f c with
    | true => simp [replaceFirst, hc, hb]
    | false =>
      rw [List.find?_cons_of_neg (by simp [hc])] at h
      simp [replaceFirst, hc, ih h]

/-- A link that joins those of a partition is found by its operation, which no other has. -/
theorem link_append_new {P : Part} {k : Link} (h : ∀ y ∈ P.links, ¬ (y.lt = k.lt ∧ y.op = k.op)) (fs : List (Bool × Nat × Nat)) :
    ({ P with links := P.links ++ [k], formed := fs } : Part).link k.lt k.op = some k := by
  have hnone : P.links.find? (fun y => decide (y.lt = k.lt) && decide (y.op = k.op)) = none :=
    List.find?_eq_none.mpr (fun y hy => by simpa using h y hy)
  simp [Part.link, List.find?_append, hnone]

/-- A relay link that holds a segment of the running sum. -/
def Link.keeping (k : Link) (s : Nat) (vs : List Word) : Link := { k with got := tput s vs k.got }

section
variable {d : Device} {p l op : Nat} {k : Link}

/-- A link replaced by one of the same operation is found as it has become. -/
theorem link_setLink {k' : Link} (h : (d.part p).link k.lt k.op = some k') : ((setLink d p k).part p).link k.lt k.op = some k := by
  rw [setLink, part_modPart_same]
  exact find?_replaceFirst h (by simp)

/-- A bound group whose array does not hold it takes no starting values yet (R162). -/
theorem relayLoad_unheld (hk : (d.part p).link l op = some k) (hg : d.linkGroup p k = none) : relayLoad d p l op = d := by
  simp only [relayLoad, hk, hg]

/-- A link that awaits its group, or the running sum, does nothing as it starts (R160, R162). -/
theorem linkStart_waiting (hk : (d.part p).link l op = some k) (hzero : k.zero = false)
    (hwait : (k.relay = true ∧ d.linkGroup p k = none) ∨ (k.fan = false ∧ k.relay = false ∧ k.this ≠ 0)) : linkStart d p l op = d := by
  rcases hwait with ⟨hrelay, hg⟩ | ⟨hfan, hrelay, hthis⟩
  · simp only [linkStart, hk, hrelay, hzero, if_true, Bool.false_eq_true, if_false, relayLoad_unheld hk hg]
  · simp [linkStart, hk, hrelay, hfan, hthis]

/-- A relay link whose group the arrays do not hold keeps a segment of the running sum (R162). -/
theorem linkSeg_unheld (hk : (d.part p).link k.lt k.op = some k) (hrelay : k.relay = true) (hzero : k.zero = false)
    (hg : d.linkGroup p k = none) (s mbNext : Nat) (check : Bool) (vs : List Word) :
    linkSeg d p k.lt k.op s mbNext check vs = setLink d p (k.keeping s vs) := by
  have hkept : ((setLink d p (k.keeping s vs)).part p).link k.lt k.op = some (k.keeping s vs) := link_setLink (k := k.keeping s vs) hk
  have hload : relayLoad (setLink d p (k.keeping s vs)) p k.lt k.op = setLink d p (k.keeping s vs) := relayLoad_unheld hkept hg
  unfold linkSeg
  rw [hk]
  dsimp only
  rw [if_pos hrelay, if_neg (by simp [hzero])]
  exact hload

/-- Link 0 of a cable whose group the arrays do not hold takes up a higher epoch, and no more yet (R167, step 3). -/
theorem linkRestart_unheld (hrelay : k.relay = true) (hzero : k.zero = false) (hfan : k.fan = false) (hg : d.linkGroup p k = none)
    (epoch : Nat) (bias : Int) : linkRestart d p k epoch bias = setLink d p (k.renew epoch bias) := by
  have hgroup : (setLink d p (k.renew epoch bias)).linkGroup p (k.renew epoch bias) = none := hg
  unfold linkRestart
  dsimp only
  rw [if_pos (by simp [Link.renew, hrelay, hzero, hfan]), hgroup]

end

end Sys2Proof.Machine
end

section
/-! PROOF. Messages of a cable reach their link (R165 to R167, R206). -/
namespace Sys2Proof.Machine

theorem exec_seg (m : CableMsg) (s : State) : exec (.seg m) s = .next (s.withDev (segMsg m s.dev)) := rfl
theorem exec_restart (m : CableMsg) (s : State) : exec (.restart m) s = .next (s.withDev (restartArrive m s.dev)) := rfl
theorem exec_finish (m : CableMsg) (s : State) : exec (.finish m) s = .next (s.withDev (finishArrive m s.dev)) := rfl
theorem exec_held (m : CableMsg) (s : State) : exec (.held m) s = .next (s.withDev (heldArrive m s.dev)) := rfl

/-- A link that has taken over what a segment of its epoch says of the running sum: VOID, the gauge flag and, on a cable, the bias (R166). -/
def Link.hearing (k : Link) (m : CableMsg) : Link :=
  { k with void := k.void || bit m.flags.toNat 3, gauge := k.gauge || bit m.flags.toNat 2,
           bias := if k.fan then k.bias else m.bias.toInt }

theorem bias_hearing {k : Link} (hfan : k.fan = false) (m : CableMsg) : (k.hearing m).bias = m.bias.toInt := if_neg (by simp [hfan])

section
variable {m : CableMsg} {d : Device} {k : Link}

/-- A SEG for a link goes to it (R166). -/
theorem segMsg_of_linkFor (hdest : m.dest ≠ 0xFFFF#16) (hfor : (d.part m.part.val).linkFor m = some k) :
    segMsg m d = segArrive d m.part.val k m := by
  simp only [segMsg, hdest, if_false, hfor]

theorem link_hearing {p : Nat} (hk : (d.part p).link k.lt k.op = some k) (m : CableMsg) :
    ((setLink d p (k.hearing m)).part p).link k.lt k.op = some (k.hearing m) := link_setLink (k := k.hearing m) hk

/-- A relay link whose group the arrays do not hold takes over what a new segment of its epoch says, and keeps its values (R162, R166). -/
theorem segArrive_unheld {p : Nat} (hagree : k.agrees m = true) (hfit : k.fits m = true) (hk : (d.part p).link k.lt k.op = some k)
    (hfan : k.fan = false) (hrelay : k.relay = true) (hzero : k.zero = false) (hhalt : k.halt = false) (hepoch : m.epoch.toNat = k.epoch)
    (hdone : k.done.contains m.seg.toNat = false) (hgot : tget [] k.got m.seg.toNat = []) (hg : d.linkGroup p k = none) :
    segArrive d p k m = setLink (setLink d p (k.hearing m)) p ((k.hearing m).keeping m.seg.toNat m.values) := by
  have hopen : ¬ (k.halt || k.done.contains m.seg.toNat || decide (tget [] k.got m.seg.toNat ≠ [])) = true := by
    simp only [hhalt, hdone, hgot]; decide
  simp only [segArrive, hagree, hfit, hepoch, lt_self_iff_false, decide_false, Bool.not_true, Bool.false_and, Bool.or_self,
    Bool.false_eq_true, if_false, hk]
  refine (if_neg (by simp [hfan])).trans ((if_neg hopen).trans ?_)
  exact linkSeg_unheld (k := k.hearing m) (link_hearing hk m) hrelay hzero hg m.seg.toNat m.mbNext.toNat true m.values

/-- FINISH completes a link that is not the final one (R165). -/
theorem finishArrive_agreeing (hfor : (d.part m.part.val).linkFor m = some k) (hagree : k.agrees m = true) (hfinal : k.this ≠ k.final) :
    finishArrive m d =
      setLink d m.part.val { k with fin := true, delivered := true, void := k.void || bit m.flags.toNat 3 } := by
  simp only [finishArrive, hfor, hagree, hfinal, Bool.not_true, Bool.false_eq_true, if_false]

/-- RESTART makes link 0, whose group the arrays do not hold, take up the higher epoch (R167). -/
theorem restartArrive_unheld (hfor : (d.part m.part.val).linkFor m = some k) (hagree : k.agrees m = true) (hfan : k.fan = false)
    (hthis : k.this = 0) (hrelay : k.relay = true) (hzero : k.zero = false) (hepoch : k.epoch < m.epoch.toNat)
    (hg : d.linkGroup m.part.val k = none) (hvoids : (d.part m.part.val).voids = []) :
    restartArrive m d = setLink d m.part.val
      (({ k with void := k.void || bit m.flags.toNat 3 } : Link).renew m.epoch.toNat m.bias.toInt) := by
  unfold restartArrive
  dsimp only
  rw [hfor]
  dsimp only
  rw [if_neg (by simp [hagree]), if_pos (by simp [hthis, hepoch])]
  unfold restartLink
  rw [hvoids, List.foldl_nil]
  exact linkRestart_unheld (k := { k with void := k.void || bit m.flags.toNat 3 }) hrelay hzero hfan hg _ _

end

/-- Settles O20: each message by what its arrival makes of the link it is for. -/
theorem cableMessagesReachTheirLink : Obligations.CableMessagesReachTheirLink := by
  unfold Obligations.CableMessagesReachTheirLink
  intro m s k p P
  refine ⟨?seg, ?finish, ?held, ?restart⟩
  case seg =>
    intro hdest hfor hagree hfit hk hfan hrelay hzero _ hhalt hepoch hdone hgot hg
    refine ⟨_, (k.hearing m).keeping m.seg.toNat m.values, ?_,
      link_setLink (k := (k.hearing m).keeping m.seg.toNat m.values) (link_hearing hk m), tget_tput_same _ _ _ _, rfl,
      bias_hearing hfan m, rfl, rfl, rfl⟩
    rw [exec_seg, segMsg_of_linkFor hdest hfor,
      segArrive_unheld hagree hfit hk hfan hrelay hzero hhalt hepoch hdone hgot hg]
  case finish =>
    intro hfor hagree hfinal
    rw [exec_finish, finishArrive_agreeing hfor hagree hfinal]
  case held =>
    intro hfind hagree
    have harrive : heldArrive m s.dev = setLink s.dev p { k with fin := true } := by
      unfold heldArrive
      dsimp only
      rw [hfind]
      exact if_pos hagree
    rw [exec_held, harrive]
  case restart =>
    intro hfor hagree hfan hthis hrelay hzero hepoch hg hvoids
    rw [exec_restart, restartArrive_unheld hfor hagree hfan hthis hrelay hzero hepoch hg hvoids]

end Sys2Proof.Machine
end

section
/-! PROOF. XCHG.CABLE and XCHG.FAN form a link, XCHG.SKEIN starts an exchange (R106, R157 to R162, R181 to R183, R425). -/
namespace Sys2Proof.Machine

theorem exec_xchgCable (p : Fin 8) (l : Fin 32) (w : BitVec 128) (s : State) :
    exec (.xchgCable p l w) s = .next (s.withDev (issue (opLink false) p l w s.dev)) := rfl
theorem exec_xchgFan (p : Fin 8) (l : Fin 32) (w : BitVec 128) (s : State) :
    exec (.xchgFan p l w) s = .next (s.withDev (issue (opLink true) p l w s.dev)) := rfl
theorem exec_xchgSkein (p : Fin 8) (l : Fin 32) (w : BitVec 128) (s : State) :
    exec (.xchgSkein p l w) s = .next (s.withDev (issue opSkein p l w s.dev)) := rfl

-- Links.

/-- XCHG.CABLE and XCHG.FAN differ in their opcode's FAN alone. -/
theorem exec_link (fan : Bool) (p : Fin 8) (l : Fin 32) (w : BitVec 128) (s : State) :
    exec (if fan then .xchgFan p l w else .xchgCable p l w) s = .next (s.withDev (issue (opLink fan) p l w s.dev)) := by
  cases fan with
  | false => exact exec_xchgCable p l w s
  | true => exact exec_xchgFan p l w s

/-- A link is as its word's own fields give it. -/
theorem linkOf_word (fan : Bool) (id : Nat) (t : LTile) (step : Nat) (w : BitVec 128) (b es : List Byte) :
    linkOf fan id t step ((opLink fan).word w) b es = linkOf fan id t step w.toNat b es := by
  have hfix : (opLink fan).fix = [] := rfl
  simp only [linkOf, cfOf_word hfix, bits_word hfix, Nat.reduceLeDiff]

/-- The link that a descriptor in the scratchpad and its entries give, bound to the group open now (R157, R162). -/
def Device.linkRead (d : Device) (fan : Bool) (id p l w : Nat) (b es : List Byte) : Link :=
  let k : Link := { linkOf fan id (d.lt p l) (d.part p).step w b es with lt := l }
  { k with gid := ((tget none (d.lt p l).ags k.ag).map (·.1)).getD 0, descH := 0 }

/-- A device with one more link formed, whose operation waits in the exchange queue (R157). -/
def Device.linked (d : Device) (p l : Nat) (k : Link) : Device :=
  (d.modPart p (fun P => { P with links := P.links ++ [k], formed := (k.fan, k.cable, k.this) :: P.formed })).modLt p l
    (fun t => { t with xch := t.xch ++ [{ id := k.op, kind := if k.fan then 2 else 1, au := 0, cf := k.cf }] })

/-- With no message waiting in the pool none is taken up by a link. -/
theorem takeEarly_none {p : Nat} {d : Device} (h : (d.part p).early = []) (k : Link) :
    takeEarly p k d = d.modPart p (fun P => { P with early := [] }) := by
  simp only [takeEarly, h, List.filter_nil, List.foldl_nil, Device.modPart]

/-- What a partition keeps of its peers: its own number, the devices whose OPEN it awaits and those that are lost (R295, R304). -/
def Part.peering (P : Part) : Nat × List (Nat × List (Bool × Msg)) × List Nat := (P.devId, P.peerWait, P.fataled)

/-- Whether devices of a link have refused their flow depends on the flow contexts and on what the partition keeps of its peers (R296). -/
theorem refusedBy_congr {d e : Device} {p : Nat} (hflows : e.flows = d.flows) (hpeers : (e.part p).peering = (d.part p).peering) (k : Link) :
    e.refusedBy p k = d.refusedBy p k := by
  simp only [Part.peering, Prod.mk.injEq] at hpeers
  obtain ⟨hid, hwait, hlost⟩ := hpeers
  simp only [Device.refusedBy, Device.refusedOf, Device.peerFlow, hflows, hid, hwait, hlost]

/-- A descriptor is judged by the partition and the open groups of its logical tile alone (R159). -/
theorem linkLegal_setLt {d : Device} {p l : Nat} {t : LTile} (h : t.ags = (d.lt p l).ags) (k : Link) (b es : List Byte) :
    linkLegal (d.setLt p l t) p l k b es = linkLegal d p l k b es := by
  simp only [linkLegal, part_setLt, lt_setLt_same, h]
  rfl

/-- Whether the arrays hold the group of a link depends on the groups of its logical tile alone. -/
theorem linkGroup_congr {d e : Device} {p : Nat} {k : Link} (h : (e.lt p k.lt).groups = (d.lt p k.lt).groups) :
    e.linkGroup p k = d.linkGroup p k := by
  simp only [Device.linkGroup, LTile.group, h]

section
variable {d : Device} {p l : Nat} {k : Link}

theorem part_linked : (d.linked p l k).part p =
    { d.part p with links := (d.part p).links ++ [k], formed := (k.fan, k.cable, k.this) :: (d.part p).formed } := by
  rw [Device.linked, part_modLt, part_modPart_same]

theorem flows_linked : (d.linked p l k).flows = d.flows := rfl

theorem lt_linked : (d.linked p l k).lt p l =
    { d.lt p l with xch := (d.lt p l).xch ++ [{ id := k.op, kind := if k.fan then 2 else 1, au := 0, cf := k.cf }] } := by
  rw [Device.linked, lt_modLt_same, lt_modPart]

end

/-- What a link that has been formed does at once: it starts, takes up what waited for it, and meets the devices that have refused, stopped
or been lost (R166, R170, R296, R304, R425). -/
def Device.linkGoesOn (d : Device) (p : Nat) (k : Link) : Device :=
  let e := takeEarly p k (linkStart d p k.lt k.op)
  let f := (e.refusedBy p k).foldl (fun d dev => peerLost d p dev) e
  let g := (f.part p).voids.foldl (fun d dev => settleLink p dev k d) f
  (g.part p).fataled.foldl (fun d dev => loseLink p dev k d) g

/-- A link that awaits its group or the running sum, with no message waiting for it and no device lost, waits. -/
theorem linkGoesOn_waiting {p : Nat} {k : Link} {d : Device} (hk : (d.part p).link k.lt k.op = some k) (hzero : k.zero = false)
    (hwait : (k.relay = true ∧ d.linkGroup p k = none) ∨ (k.fan = false ∧ k.relay = false ∧ k.this ≠ 0))
    (hearly : (d.part p).early = []) (hvoids : (d.part p).voids = []) (hlost : (d.part p).fataled = []) (hrefused : d.refusedBy p k = []) :
    d.linkGoesOn p k = d.modPart p (fun P => { P with early := [] }) := by
  have hstill : (d.modPart p (fun P => { P with early := [] })).refusedBy p k = d.refusedBy p k :=
    refusedBy_congr (modPart_flows _ _ _) (by rw [part_modPart_same]; rfl) k
  simp only [Device.linkGoesOn, linkStart_waiting hk hzero hwait, takeEarly_none hearly, hstill, hrefused, List.foldl_nil,
    part_modPart_same, hvoids, hlost]

section
variable {fan : Bool} {id p l w : Nat} {x : Loc} {b es : List Byte} {k : Link} {d : Device}

/-- A link whose descriptor stands in the scratchpad below the partial-sum region and passes is formed (R157 to R162). -/
theorem linkAct_legal (hloc : locOf ((d.lt p l).areg (bits w 35 32)) = x) (hh : x.h = 0) (hbad : x.bad = false)
    (hb : d.spRead p l x.pos 64 = b) (hn : fld b 6 2 ≤ 4096) (hes : d.spRead p l (x.pos + 64) (8 * fld b 6 2) = es)
    (hlow : x.pos + 64 + 8 * fld b 6 2 ≤ psumBase) (hk : d.linkRead fan id p l w b es = k) (hlegal : linkLegal d p l k b es = true) :
    linkAct fan takeEarly id p l w d = (d.linked p l k).linkGoesOn p k := by
  have hhead : x.pos + 64 ≤ psumBase := by omega
  have hentries : (x.plus 64).pos + 8 * fld b 6 2 ≤ psumBase := hlow
  have hread : d.readAt p l x 64 = b := (readAt_spad d p l 64 hh).trans hb
  have hreads : d.readAt p l (x.plus 64) (8 * fld b 6 2) = es := (readAt_spad d p l _ (show (x.plus 64).h = 0 from hh)).trans hes
  subst hk
  unfold linkAct
  simp only [hloc, readFault_low hh hbad hhead, touch_outside d p l x 64 (.inl hhead), hread, hn, if_true,
    readFault_low (x := x.plus 64) hh hbad hentries, touch_outside d p l (x.plus 64) _ (.inl hentries), hreads, hh]
  exact if_neg (show ¬ (!linkLegal d p l (d.linkRead fan id p l w b es) b es) = true by simp [hlegal])

/-- A link that a descriptor gives and that awaits its group or the running sum is formed, and waits (R157, R160, R162). -/
theorem linkGoesOn_linked (hk : d.linkRead fan id p l w b es = k) (hnew : ∀ y ∈ (d.part p).links, ¬ (y.lt = l ∧ y.op = id))
    (hwait : (k.relay = true ∧ d.linkGroup p k = none) ∨ (fan = false ∧ k.relay = false ∧ k.this ≠ 0))
    (hearly : (d.part p).early = []) (hvoids : (d.part p).voids = []) (hlost : (d.part p).fataled = []) (hrefused : d.refusedBy p k = []) :
    (d.linked p l k).linkGoesOn p k = (d.linked p l k).modPart p (fun P => { P with early := [] }) := by
  have hlt : k.lt = l := by rw [← hk]; rfl
  have hop : k.op = id := by rw [← hk]; rfl
  have hfan : k.fan = fan := by rw [← hk]; rfl
  have hzero : k.zero = false := by rw [← hk]; rfl
  have hlink : ((d.linked p l k).part p).link k.lt k.op = some k := by
    rw [part_linked]; exact link_append_new (by rw [hlt, hop]; exact hnew) _
  have hgroup : (d.linked p l k).linkGroup p k = d.linkGroup p k := linkGroup_congr (by rw [hlt, lt_linked])
  have hsame : (d.linked p l k).refusedBy p k = d.refusedBy p k :=
    refusedBy_congr flows_linked (by rw [part_linked]; rfl) k
  refine linkGoesOn_waiting hlink hzero (by rw [hgroup, hfan]; exact hwait) ?_ ?_ ?_ ?_
  · rw [part_linked]; exact hearly
  · rw [part_linked]; exact hvoids
  · rw [part_linked]; exact hlost
  · rw [hsame]; exact hrefused

end

-- Exchanges.

/-- Addressing a location writes of a partition its walks, and nothing else (R106). -/
theorem part_touch (d : Device) (p l : Nat) (x : Loc) (n : Nat) :
    (d.touch p l x n).part p = { d.part p with walks := ((d.touch p l x n).part p).walks } := by
  have hfree (e : Device) (k : Nat) : ({ e with free := k } : Device).part p = e.part p := rfl
  have hopen : (d.openRegion p l).part p = d.part p := rfl
  unfold Device.touch Device.scramble
  split
  · split
    · rfl
    · simp only [part_modLt, hfree, part_modPart_same, hopen]
  · rfl

/-- Addressing places leaves alone what a partition keeps beside its walks. -/
theorem part_touchAll {γ : Type} (g : Part → γ) (hg : ∀ P ws, g { P with walks := ws } = g P) (d : Device) (p l : Nat)
    (xs : List (Loc × Nat)) : g ((d.touchAll p l xs).part p) = g (d.part p) :=
  foldl_keeps (fun d : Device => g (d.part p)) _ (fun d x => by rw [part_touch, hg]) _ _

/-- An exchange before its plan is read. -/
def LTile.blankExch (t : LTile) (id l w step : Nat) : Exch :=
  { lt := l, op := id, cf := cfOf w, mode := bits w 49 48, exch := (t.sreg (bits w 47 42)).toNat, step := step, plan := [], ents := [],
    planAt := 0, srcs := [], slist := [], tagsAt := 0, slot := 0, sentTo := [] }

/-- A device with one more exchange, whose operation waits in the exchange queue, once it has addressed the rows it sends (R106, R181). -/
def Device.exchanging (d : Device) (p l id : Nat) (cf : CF) (e : Exch) (rows : List (Loc × Nat)) : Device :=
  let f := (d.modPart p (fun P => { P with exchs := P.exchs ++ [e] })).modLt p l
    (fun t => { t with xch := t.xch ++ [{ id := id, kind := 0, au := 0, cf := cf }] })
  f.touchAll p l (reached f p rows)

/-- The values of an XCHG.SKEIN are its word's own fields and the registers they name. -/
theorem skeinAct_word (id p l : Nat) (w : BitVec 128) (d : Device) : skeinAct id p l (opSkein.word w) d = skeinAct id p l w.toNat d := by
  have hfix : opSkein.fix = [] := rfl
  simp only [skeinAct, bits_word hfix, cfOf_word hfix, Nat.reduceLeDiff]

/-- An XCHG.SKEIN whose plan and send list pass, with no device refused or stopped, starts its exchange and sends, and where no row faults
takes up what waited for it (R181 to R183). -/
theorem skeinAct_sends {id p l w fmt bsz db : Nat} {d f : Device} {t : LTile} {blank e0 e : Exch} {xs : List (Loc × Nat)}
    {out : List OutSkein} (ht : d.lt p l = t) (hblank : t.blankExch id l w (d.part p).step = blank)
    (hxs : skeinSpans d p l (t.sreg (bits w 41 36)).toNat blank (t.areg (bits w 35 32)) (locOf (t.areg (bits w 27 24))) = xs)
    (hf : d.touchAll p l xs = f) (hplan : readPlan f p l blank.mode (t.areg (bits w 35 32)) blank = .ok e0)
    (hsend : skeinsOf f p l blank.mode blank.exch (t.sreg (bits w 41 36)).toNat (locOf (t.areg (bits w 27 24))) = .ok (out, fmt, bsz, db))
    (hrefused : f.refusedOf p (out.map (·.dev) ++ e0.srcs.map (·.dev)) = []) (hvoids : (f.part p).voids = [])
    (hsent : (f.part p).voidSent = false)
    (he : { e0 with sentTo := out.map (·.dev), reads := spanHandles (xs ++ rowSpans fmt bsz db out) } = e)
    (hok : (sendSkeins p l blank.mode blank.exch fmt bsz db out (f.exchanging p l id (cfOf w) e (rowSpans fmt bsz db out))).2 = none) :
    skeinAct id p l w d = takeSkeins p
      (sendSkeins p l blank.mode blank.exch fmt bsz db out (f.exchanging p l id (cfOf w) e (rowSpans fmt bsz db out))).1 := by
  subst ht hblank hxs hf he
  unfold skeinAct
  extract_lets t mode exch n at_ x blank xs f
  have hplan : readPlan f p l mode at_ blank = .ok e0 := hplan
  have hsend : skeinsOf f p l mode exch n x = .ok (out, fmt, bsz, db) := hsend
  have hrefused : f.refusedOf p (out.map (·.dev) ++ e0.srcs.map (·.dev)) = [] := hrefused
  have hvoids : (f.part p).voids = [] := hvoids
  have hsent : ¬ (f.part p).voidSent = true := ne_true_of_eq_false hsent
  rw [hplan]
  dsimp only
  rw [hsend]
  dsimp only
  rw [hrefused, List.foldl_nil, hvoids, List.foldl_nil, if_neg hsent]
  split
  · rename_i h
    exact absurd (h.symm.trans hok) (by simp)
  · rfl

/-- Settles O19: a link by `linkAct_legal`, which forms it, and `linkGoesOn_linked`, by which it then waits; an exchange by
`skeinAct_sends`. -/
theorem linksAndExchangesStart : Obligations.LinksAndExchangesStart := by
  unfold Obligations.LinksAndExchangesStart
  refine ⟨?link, ?skein⟩
  case link =>
    intro p l w s fan t x b n es P k0 k h hh hbad hlow hn hlegal hearly hvoids hlost hrefused hnew hwait
    let d := s.dev.setLt p l t.issued
    have hlt : d.lt p l = t.issued := lt_setLt_same _ _ _ _
    have hword {hi lo : Nat} (hle : 12 ≤ lo) : bits ((opLink fan).word w) hi lo = bits w.toNat hi lo := bits_word rfl w hle
    have hloc : locOf ((d.lt p l).areg (bits ((opLink fan).word w) 35 32)) = x := by rw [hlt, hword (by decide)]; rfl
    have hread (off n : Nat) : d.spRead p l off n = s.dev.spRead p l off n := spRead_setLt (by rfl) off n
    have hk : d.linkRead fan t.nextOp p l ((opLink fan).word w) b es = k := by
      unfold Device.linkRead
      rw [hlt, linkOf_word]
      rfl
    have hgroup : d.linkGroup p k = s.dev.linkGroup p k := linkGroup_congr (show (d.lt p l).groups = _ by rw [hlt]; rfl)
    have hform := linkAct_legal (fan := fan) (id := t.nextOp) hloc hh hbad (hread _ _) hn (hread _ _) hlow hk
      ((linkLegal_setLt (d := s.dev) (t := t.issued) rfl k b es).trans hlegal)
    rw [linkGoesOn_linked hk hnew (by rw [hgroup]; exact hwait) hearly hvoids hlost hrefused] at hform
    refine ⟨(d.linked p l k).modPart p (fun P => { P with early := [] }), ?_, ?_, ?_, ?_, rfl, rfl, rfl⟩
    · rw [exec_unit (o := opLink fan) (exec_link fan p l w s) rfl h, hform]
    · rw [part_modPart_same, part_linked]; rfl
    · rw [part_modPart_same, part_linked]; rfl
    · rw [lt_modPart, lt_linked, hlt]; rfl
  case skein =>
    intro p l w s e0 out fmt bsz db t d0 mode exch n x blank xs d h hplan hsend hrefused hvoids hsent e d1 r hr
    have hlt : d0.lt p l = t.issued := lt_setLt_same _ _ _ _
    rw [exec_unit (exec_xchgSkein p l w s) rfl h, skeinAct_word,
      skeinAct_sends (d := s.dev.setLt p l t.issued) hlt rfl rfl rfl hplan hsend hrefused
        ((part_touchAll Part.voids (fun _ _ => rfl) d0 p l xs).trans hvoids)
        ((part_touchAll Part.voidSent (fun _ _ => rfl) d0 p l xs).trans hsent) rfl hr]
    rfl

end Sys2Proof.Machine
end

section
/-! SUPPORT. The gauge round of a partition: what decides its step, and the updates, commits, posts and faults that leave the round alone
(R210 to R213, R219, R226). -/
namespace Sys2Proof.Machine

/-- The gauge round of a partition: the result of its step and the messages it holds. -/
def Part.round (P : Part) : Option GaugeRes × List GaugeMsg := (P.result, P.gauges)

/-- The gauge round of partition `p`. -/
def Device.round (p : Nat) (d : Device) : Option GaugeRes × List GaugeMsg := (d.part p).round

section
variable (d : Device) (p : Nat)

/-- A change to the partition that leaves its round alone. -/
theorem round_modPart {f : Part → Part} (h : ∀ P, (f P).round = P.round := by intro; rfl) : (d.modPart p f).round p = d.round p := by
  unfold Device.round; rw [part_modPart_same, h]

theorem round_sendKeeps : SendKeeps (Device.round p) := part_sendKeeps Part.round p (fun _ _ _ => rfl) (fun _ _ => rfl)

theorem Faulted.round {d e : Device} {p : Nat} (h : Faulted p d e) : e.round p = d.round p :=
  h.part_keeps Part.round (fun _ _ _ => rfl)

theorem round_of_tables {d e : Device} (h : e.tables = d.tables) : e.round p = d.round p :=
  congrArg Part.round (part_of_tables h p)

theorem round_slotTrack : (slotTrack d p).round p = d.round p := by
  have hstall (e : Device) : (e.modPart p (fun P => { P with stalled := true })).round p = e.round p := round_modPart e p
  have hpool (js : List Nat) : (setPool d p js).round p = d.round p :=
    round_modPart d p (f := fun P => { P with pool := js })
  unfold slotTrack
  simp only [apply_ite (Device.round p), hstall, hpool, ite_self]

theorem round_bumpCounter (src : List Nat) (l c n : Nat) : (bumpCounter d src p l c n).round p = d.round p := by
  unfold bumpCounter
  dsimp only
  split
  · exact (Faulted.tilesFault d p src _).round
  · exact round_slotTrack _ p

theorem round_post (src : List Nat) (l c n : Nat) : (post d src p l c n).round p = d.round p := by
  unfold post
  split
  · rfl
  · split
    · exact round_bumpCounter _ _ _ _ _ _
    · split
      · exact round_bumpCounter _ _ _ _ _ _
      · exact round_of_tables p (tables_wakeDom _ _ _)

theorem round_complete (l id : Nat) (cf : CF) : (complete d p l id cf).round p = d.round p := by
  unfold complete
  cases cf with
  | none => rfl
  | some c => exact round_post _ _ _ _ _ _

theorem round_hStore (h off : Nat) (bs : List Byte) : (d.hStore p h off bs).round p = d.round p := by
  unfold Device.hStore
  dsimp only
  split
  · rfl
  · exact round_modPart _ p

theorem round_writeAt (l : Nat) (x : Loc) (bs : List Byte) : (d.writeAt p l x bs).round p = d.round p := by
  unfold Device.writeAt
  split
  · rfl
  · exact (round_modPart _ p).trans (round_hStore _ _ _ _ _)

theorem round_touch (l : Nat) (x : Loc) (n : Nat) : (d.touch p l x n).round p = d.round p := by
  unfold Device.round; rw [part_touch]; rfl

/-- Handing a result to a logical tile's UPD.GAUGE and UPD.APPLY leaves the round alone. -/
theorem round_finishUpd (r : GaugeRes) (l : Nat) : (finishUpd r p l d).round p = d.round p := by
  unfold finishUpd
  dsimp only
  refine foldl_keeps (Device.round p) _ (fun d o => ?_) _ _
  split
  · exact round_complete _ _ _ _ _
  · split
    · exact (Faulted.tileFault _ p l _).round.trans (round_complete _ _ _ _ _)
    · rw [round_complete, round_touch, round_writeAt]

-- The commit of a step.

theorem round_hdrWrite (h off n v : Nat) : (hdrWrite d p h off n v).round p = d.round p := round_hStore _ _ _ _ _

theorem round_landParked : (landParked p d).round p = d.round p := by
  unfold landParked
  refine foldl_keeps (Device.round p) _ (fun d q => ?_) _ _
  split
  · exact (round_modPart _ p).trans (round_hStore _ _ _ _ _)
  · rfl

theorem round_endItem (w : WorkItem) : (endItem d p w).round p = d.round p := by
  unfold endItem sendWiStatus
  rw [apply_ite (Device.round p), (round_sendKeeps p).sendHost, ite_self]
  exact round_modPart _ p

theorem round_releaseFinal : (releaseFinal d p).round p = d.round p := by
  unfold releaseFinal
  dsimp only
  rw [foldl_keeps (Device.round p) _ (fun d w => round_endItem d p w)]
  exact round_modPart _ p

theorem round_wakeUpd (x : Nat) : (wakeUpd d p x).round p = d.round p := by
  refine round_of_tables p ?_
  unfold wakeUpd
  simp only [apply_ite Device.tables, tables_wakeDom, tables_inc, ite_self]

theorem round_commitStep (s : Nat) (job : BitVec 32) : (commitStep d p s job).round p = d.round p := by
  have hflip (d : Device) (x : Nat × Nat) :
      (hdrWrite (bumpGen (hdrWrite d p x.2 0x55 1 (1 - fld (d.shardHdr p x.2) 0x55 1)) p x.2) p x.2 0x48 4 s).round p = d.round p := by
    rw [bumpGen, round_hdrWrite, round_hdrWrite, round_hdrWrite]
  have hlast (e : Device) : (e.wr (fLastCommit p) s).round p = e.round p := rfl
  unfold commitStep
  dsimp only
  rw [round_releaseFinal]
  simp only [apply_ite (Device.round p), hlast, ite_self]
  exact (round_modPart _ p).trans (foldl_keeps (Device.round p) _ hflip _ _)

theorem round_commitReady (n : Nat) : (commitReady p n d).round p = d.round p := by
  induction n generalizing d with
  | zero => rfl
  | succ n ih =>
    unfold commitReady
    split
    · rfl
    · simp only [apply_ite (Device.round p), ih, round_commitStep, foldl_keeps (Device.round p) _ (fun d x => round_wakeUpd d p x), ite_self]

theorem round_stageAll : (stageAll p d).round p = d.round p := by
  have hstage (d : Device) (u : ShardUpd) : (stageBlock p u d).round p = d.round p := by
    have hset (x : Nat) (bs : List Staged) : (setStaged d x bs).round p = d.round p := rfl
    unfold stageBlock
    simp only [apply_ite (Device.round p), hset, ite_self]
  exact (foldl_keeps (Device.round p) _ hstage _ _).trans (round_landParked d p)

/-- The updates of a committed step begin and leave the round alone. -/
theorem round_startUpdates (r : GaugeRes) : (startUpdates r p d).round p = d.round p := by
  have hdoms (d : Device) (ns : List Nat) (k : Nat) : (refuseDoms d ns k).round p = d.round p :=
    congrArg Part.round (part_refuseDoms d ns k p)
  have hpend (d : Device) : (setPending d p).round p = d.round p := rfl
  have hcount (d : Device) (q : Nat × Nat) : (d.inc (fParked q.2)).round p = d.round p := rfl
  unfold startUpdates
  dsimp only
  rw [round_stageAll, round_commitReady, hpend, hdoms, round_modPart, foldl_keeps (Device.round p), round_landParked, round_modPart,
    foldl_keeps (Device.round p) _ hcount]
  exact fun d x => round_modPart _ p

theorem round_skipAdvance (s : Nat) : (skipAdvance d p s).round p = d.round p := by
  unfold skipAdvance
  dsimp only
  rw [apply_ite (Device.round p), round_modPart, ite_self]

end

/-- A partition whose step has its result: of the messages it holds, those of the next step stay (R210). -/
def Part.decided (P : Part) (r : GaugeRes) : Part :=
  { P with result := some r, gauges := P.gauges.filter (fun m => decide (P.step < m.step.toNat)) }

/-- The device with the result of its step kept, told by the GAUGE registers and handed to the logical tiles (R211, R212). -/
def Device.judged (d : Device) (p : Nat) (r : GaugeRes) : Device :=
  let e := d.modPart p (·.decided r)
  let e := ((((e.wr (fGaugeStep p) r.step).wr (fGaugeFlagged p) r.flagged).wr (fGaugeCause p) r.firstCause).wr (fGaugeOut p)
    r.outcome.code).wr (fGaugeNorm p) r.norm.toNat
  (List.range (d.part p).ltCount).foldl (fun e l => finishUpd r p l e) e

/-- What a result does to the step: a commit begins the updates, a skip drops the parked sums, and a cause of another device (`peer`) is a
fault of this one (R213, R223, Table 2-12). -/
def Device.acted (d : Device) (p : Nat) (r : GaugeRes) (peer : Bool) : Device :=
  let e := d.modPart p (fun P => { P with parked := P.parked.filter (·.due) })
  match r.outcome with
  | .commit => startUpdates r p d
  | .skipData => skipAdvance e p r.step
  | .skipFault =>
    if peer then recordFault e p .peerFault else e

theorem round_judged (d : Device) (p : Nat) (r : GaugeRes) :
    (d.judged p r).round p = (some r, (d.part p).gauges.filter (fun m => decide ((d.part p).step < m.step.toNat))) := by
  unfold Device.judged
  dsimp only
  rw [foldl_keeps (Device.round p) _ (fun d l => round_finishUpd d p r l)]
  exact congrArg Part.round (part_modPart_same d p (·.decided r))

theorem round_acted (d : Device) (p : Nat) (r : GaugeRes) (peer : Bool) : (d.acted p r peer).round p = d.round p := by
  unfold Device.acted
  dsimp only
  split
  · exact round_startUpdates d p r
  · exact (round_skipAdvance _ p _).trans (round_modPart d p)
  · rw [apply_ite (Device.round p), (Faulted.recordFault _ p _).round, ite_self]
    exact round_modPart d p

section
variable {p : Nat} {d : Device} {ms : List GaugeMsg}

/-- The step is decided once the device has contributed and every device's message is there. -/
theorem tryDecide_complete (hms : (List.range (d.part p).devCount).filterMap (d.part p).gaugeOf = ms)
    (hcontrib : (d.part p).contrib = true) (hall : ms.length = (d.part p).devCount) (hrun : (d.part p).isRunning = true)
    (hres : (d.part p).result = none) :
    (tryDecide p d).round p =
      (some (gaugeOutcome (d.part p).step ms), (d.part p).gauges.filter (fun m => decide ((d.part p).step < m.step.toNat))) := by
  have hgo : ¬ (!(d.part p).contrib || (d.part p).result.isSome || decide (ms.length ≠ (d.part p).devCount) || !(d.part p).isRunning) = true := by
    simp [hcontrib, hall, hrun, hres]
  have hdecide : tryDecide p d = (d.judged p (gaugeOutcome (d.part p).step ms)).acted p (gaugeOutcome (d.part p).step ms)
      (ms.any (fun m => decide (m.cause ≠ 0) && decide (m.srcDev.toNat ≠ (d.part p).devId))) := by
    unfold tryDecide
    dsimp only
    rw [hms, if_neg hgo]
    rfl
  rw [hdecide, round_acted, round_judged]

end
end Sys2Proof.Machine
end

section
/-! PROOF. The gauge round (R91, R209 to R211). -/
namespace Sys2Proof.Machine

-- GAUGE_CONTRIBUTION.

theorem exec_gaugeContribution (p : Fin 8) (un : List (BitVec 16)) (s : State) :
    exec (.gaugeContribution ⟨p, none, un⟩) s = .next (s.withDev (gaugeContribution p (un.map (·.toNat)) s.dev)) := rfl

/-- The message a device contributes with, once its gradients are read as they stand on `e` (R210). -/
def Device.contribution (d e : Device) (p : Nat) : GaugeMsg :=
  let P := d.part p
  { part := Fin.ofNat 8 p, flags := BitVec.ofNat 8 ((if (deviceNorm e p).2 then 1 else 0) + (if P.cause.code = 0 then 0 else 2)),
    cause := BitVec.ofNat 8 P.cause.code, step := BitVec.ofNat 32 P.step, jobId := P.jobId, srcDev := BitVec.ofNat 12 P.devId,
    norm2 := BitVec.ofNat 64 (encodeFmt 9 (deviceNorm e p).1), limit := BitVec.ofNat 64 (d.rd (fLimit p)) }

section
variable {p : Nat} {un : List Nat} {d : Device}

theorem gaugeContribution_waits (h : d.canContribute p un = false) : gaugeContribution p un d = d := by
  simp [gaugeContribution, h]

/-- A poisoned gradient faults the work item (R60, R267). -/
theorem gaugeContribution_faults {c : Cause} (h : d.canContribute p un = true) (hs : (d.part p).stopping = false)
    (hreach : d.reachAll p (d.part p).normReads = true) (hbad : (withParked d p).gradFault p = some c) :
    gaugeContribution p un d = recordFault d p c := by
  simp [gaugeContribution, h, hs, hreach, hbad]

/-- Where no message waits, dropping those that wait changes nothing. -/
theorem modPart_early {e : Device} {f : Part → Part} (h : (f (e.part p)).early = []) :
    (e.modPart p f).modPart p (fun P => { P with early := [] }) = e.modPart p f := by
  have hsame : { f (e.part p) with early := [] } = f (e.part p) := by rw [← h]
  have hset : (e.modPart p f).modPart p (fun P => { P with early := [] }) = (e.modPart p f).setPart p { f (e.part p) with early := [] } := by
    rw [← part_modPart_same e p f]; rfl
  rw [hset, hsame]
  exact congrArg (fun t => ({ e with parts := t } : Device)) (tput_tput _ _ _ _)

/-- With no sum waiting the device marks its contribution and tells every device of the job. -/
theorem gaugeContribution_sends (h : d.canContribute p un = true)
    (hready : (d.part p).stopping = true ∨ (d.reachAll p (d.part p).normReads = true ∧ (withParked d p).gradFault p = none))
    (hearly : (d.part p).early = []) :
    gaugeContribution p un d = (List.range (d.part p).devCount).foldl
      (fun e v => sendPeer e p v (.gauge (d.contribution (withParked d p) p))) (d.modPart p (fun P => { P with contrib := true })) := by
  have hreads : (!(d.part p).stopping && !d.reachAll p (d.part p).normReads) = false := by
    rcases hready with hs | ⟨hreach, -⟩
    · simp [hs]
    · simp [hreach]
  have hgood : (if (d.part p).stopping then none else (withParked d p).gradFault p) = none := by
    rcases hready with hs | ⟨-, hgood⟩
    · simp [hs]
    · simp [hgood]
  unfold gaugeContribution
  simp only [h, hreads, hgood, Bool.not_true, Bool.false_eq_true, if_false]
  rw [takeSums_none (by simp [hearly]), modPart_early (by simp [hearly])]
  rfl

/-- Bit 0 of the contribution's flags is the gauge flag, bit 1 says that there is a cause. -/
theorem flags_contribution (d e : Device) (p : Nat) :
    bit (d.contribution e p).flags.toNat 0 = (deviceNorm e p).2 ∧
      bit (d.contribution e p).flags.toNat 1 = decide ((d.part p).cause.code ≠ 0) := by
  unfold Device.contribution
  dsimp only
  cases (deviceNorm e p).2 <;> by_cases hc : (d.part p).cause.code = 0 <;> simp [hc] <;> decide

end

-- GAUGE.

theorem exec_gauge (m : GaugeMsg) (s : State) : exec (.gauge m) s = .next (s.withDev (gaugeMsg m s.dev)) := rfl

/-- Does a partition hold a GAUGE message (R210)? It is of the open job and of this step, while that is not decided, or the next, from a
device of the job that has sent none for that step. -/
def Part.takes (P : Part) (m : GaugeMsg) : Prop :=
  P.job.isSome = true ∧ P.jobId = m.jobId ∧ m.srcDev.toNat < P.devCount ∧
    ((m.step.toNat = P.step ∧ P.result = none) ∨ m.step.toNat = P.step + 1) ∧
    ∀ g ∈ P.gauges, ¬ (g.step = m.step ∧ g.srcDev = m.srcDev)

/-- The reasons to drop a GAUGE message, as the device checks them. -/
def Part.drops (P : Part) (m : GaugeMsg) : Bool :=
  P.job.isNone || decide (P.jobId ≠ m.jobId) || decide (P.devCount ≤ m.srcDev.toNat) || decide (m.step.toNat < P.step) ||
  decide (P.step + 1 < m.step.toNat) || (decide (m.step.toNat = P.step) && P.result.isSome) ||
  P.gauges.any (fun g => decide (g.step = m.step) && decide (g.srcDev = m.srcDev))

/-- A message is held where nothing drops it. -/
theorem takes_iff (P : Part) (m : GaugeMsg) : P.takes m ↔ P.drops m = false := by
  have hstep : ((m.step.toNat = P.step ∧ P.result = none) ∨ m.step.toNat = P.step + 1) ↔
      (P.step ≤ m.step.toNat ∧ m.step.toNat ≤ P.step + 1 ∧ (m.step.toNat = P.step → P.result = none)) := by
    constructor
    · rintro (⟨hnow, hres⟩ | hnext)
      · exact ⟨by omega, by omega, fun _ => hres⟩
      · exact ⟨by omega, by omega, fun hnow => by omega⟩
    · rintro ⟨hge, hle, hres⟩
      rcases Nat.lt_or_ge P.step m.step.toNat with hlt | hge'
      · exact .inr (by omega)
      · exact .inl ⟨by omega, hres (by omega)⟩
  unfold Part.takes Part.drops
  rw [hstep]
  simp [Option.isSome_iff_ne_none, and_assoc]

/-- The device with a GAUGE message held. -/
def Device.gauging (d : Device) (m : GaugeMsg) : Device := d.modPart m.part.val (fun P => { P with gauges := P.gauges ++ [m] })

theorem gaugeMsg_eq (m : GaugeMsg) (d : Device) :
    gaugeMsg m d = if (d.part m.part).drops m then d else tryDecide m.part (d.gauging m) := rfl

theorem gaugeMsg_dropped {m : GaugeMsg} {d : Device} (h : ¬ (d.part m.part).takes m) : gaugeMsg m d = d := by
  rw [takes_iff, Bool.not_eq_false] at h
  rw [gaugeMsg_eq, if_pos h]

theorem gaugeMsg_held {m : GaugeMsg} {d : Device} (h : (d.part m.part).takes m) : gaugeMsg m d = tryDecide m.part (d.gauging m) := by
  rw [takes_iff] at h
  rw [gaugeMsg_eq, if_neg (by simp [h])]

/-- The step stays open while the device has not contributed, a message is missing, no work item runs or there is a result. -/
theorem tryDecide_open {p : Nat} {d : Device}
    (h : (d.part p).contrib = false ∨ ((List.range (d.part p).devCount).filterMap (d.part p).gaugeOf).length ≠ (d.part p).devCount ∨
      (d.part p).isRunning = false ∨ (d.part p).result.isSome = true) : tryDecide p d = d := by
  unfold tryDecide
  dsimp only
  rw [if_pos]
  simp only [Bool.or_eq_true, Bool.not_eq_true', decide_eq_true_eq]
  rcases h with h | h | h | h
  · exact .inl (.inl (.inl h))
  · exact .inl (.inr h)
  · exact .inr h
  · exact .inl (.inl (.inr h))

-- The outcome.

/-- A value's place on the extended number line, infinities at its ends. -/
def Val.place : Val → WithBot (WithTop ℚ)
  | .inf true => ⊥
  | .inf false => (⊤ : WithTop ℚ)
  | v => ((v.real : WithTop ℚ) : WithBot (WithTop ℚ))

/-- Comparing values that are not NaN compares their places. -/
theorem vlt_eq_place {a b : Val} (ha : a ≠ .nan) (hb : b ≠ .nan) : vlt a b = decide (a.place < b.place) := by
  match a, b with
  | .nan, _ => exact absurd rfl ha
  | _, .nan => exact absurd rfl hb
  | .inf n, .inf k => cases n <;> cases k <;> simp [vlt, Val.place]
  | .inf n, .fin k i f => cases n <;> simp [vlt, Val.place]
  | .fin n m e, .inf true => simp [vlt, Val.place]
  | .fin n m e, .inf false => exact (decide_eq_true (WithBot.coe_lt_coe.mpr (WithTop.coe_lt_top _))).symm
  | .fin n m e, .fin k i f => rw [vlt_eq_real rfl rfl]; simp [Val.place]

/-- The lower of a limit so far and one more, which counts for nothing where it is NaN (R211). -/
def lower (a l : Val) : Val := if vlt l a then l else a

theorem lower_ne_nan {a : Val} (l : Val) (ha : a ≠ .nan) : lower a l ≠ .nan := by
  unfold lower
  split
  · rename_i h
    rintro rfl
    exact absurd h (by simp [vlt])
  · exact ha

theorem vlt_nan (a : Val) : vlt a .nan = false := by cases a <;> rfl

/-- What exceeds the lower of two limits exceeds one of them. -/
theorem vlt_lower {a : Val} (l v : Val) (ha : a ≠ .nan) : vlt (lower a l) v = (vlt a v || vlt l v) := by
  by_cases hl : l = .nan
  · subst hl; simp [lower, vlt]
  by_cases hv : v = .nan
  · subst hv; simp only [vlt_nan, Bool.or_false]
  have hplace : (lower a l).place = min a.place l.place := by
    unfold lower
    rw [vlt_eq_place hl ha]
    split
    · rename_i h; exact (min_eq_right (of_decide_eq_true h).le).symm
    · rename_i h; exact (min_eq_left (not_lt.mp (by simpa using h))).symm
  rw [vlt_eq_place (lower_ne_nan l ha) hv, vlt_eq_place ha hv, vlt_eq_place hl hv, hplace, ← Bool.decide_or]
  simp only [min_lt_iff]

/-- What exceeds the lowest of several limits, and of `a`, exceeds one of them. -/
theorem vlt_lowest (f : GaugeMsg → Val) (ms : List GaugeMsg) {a : Val} (v : Val) (ha : a ≠ .nan) :
    vlt (ms.foldl (fun a m => lower a (f m)) a) v = (vlt a v || ms.any (fun m => vlt (f m) v)) := by
  induction ms generalizing a with
  | nil => simp
  | cons m ms ih => rw [List.foldl_cons, ih (lower_ne_nan _ ha), vlt_lower _ _ ha, List.any_cons, Bool.or_assoc]

/-- Nothing exceeds the greatest limit. -/
theorem vlt_top {v : Val} : vlt (.inf false) v = false := by cases v <;> simp [vlt]

section
variable {step : Nat} {ms : List GaugeMsg}

/-- The sum of the devices' squared norms, in their order (R211). -/
def normSum (ms : List GaugeMsg) : Val := ms.foldl (fun a m => rn64 (vadd a (decodeFmt 9 m.norm2.toNat))) vzero
/-- The limit that a device's message carries (R210). -/
def limitOf (m : GaugeMsg) : Val := decodeFmt 9 m.limit.toNat
/-- Does a device give the step reason to be skipped as data (R211)? -/
def skipsData (ms : List GaugeMsg) : Bool :=
  ms.any (fun m => bit m.flags.toNat 0) || vNonfin (normSum ms) || ms.any (fun m => vlt (limitOf m) (normSum ms))

/-- The outcome of a round: fault before data before commit. -/
theorem outcome_gaugeOutcome (step : Nat) (ms : List GaugeMsg) :
    (gaugeOutcome step ms).outcome =
      if ms.any (fun m => decide (m.cause ≠ 0)) then .skipFault else if skipsData ms then .skipData else .commit := by
  have hlim : vlt (ms.foldl (fun a m => lower a (limitOf m)) (.inf false)) (normSum ms) = ms.any (fun m => vlt (limitOf m) (normSum ms)) := by
    rw [vlt_lowest limitOf ms _ (by simp), vlt_top, Bool.false_or]
  rw [skipsData, ← hlim]
  rfl

theorem firstCause_gaugeOutcome (step : Nat) (ms : List GaugeMsg) :
    (gaugeOutcome step ms).firstCause = ((ms.find? (fun m => decide (m.cause ≠ 0))).map (·.cause.toNat)).getD 0 := rfl

/-- A cause from any device skips the step as a fault, and the first such cause is told. -/
theorem gaugeOutcome_fault (h : ∃ m ∈ ms, m.cause ≠ 0) :
    (gaugeOutcome step ms).outcome = .skipFault ∧ ∃ m ∈ ms, m.cause ≠ 0 ∧ (gaugeOutcome step ms).firstCause = m.cause.toNat := by
  have hany : ms.any (fun m => decide (m.cause ≠ 0)) = true := by simpa using h
  obtain ⟨m, hfind⟩ := Option.isSome_iff_exists.mp ((List.find?_isSome (p := fun m : GaugeMsg => decide (m.cause ≠ 0))).mpr (by simpa using h))
  refine ⟨by rw [outcome_gaugeOutcome, if_pos hany], m, List.mem_of_find?_eq_some hfind, ?_, ?_⟩
  · simpa using List.find?_some hfind
  · rw [firstCause_gaugeOutcome, hfind]; rfl

/-- With no cause from any device the step is skipped as data, or commits. -/
theorem gaugeOutcome_clean (h : ∀ m ∈ ms, m.cause = 0) :
    (gaugeOutcome step ms).firstCause = 0 ∧ (gaugeOutcome step ms).outcome = if skipsData ms then .skipData else .commit := by
  have hany : ms.any (fun m => decide (m.cause ≠ 0)) = false := by simpa using h
  have hfind : ms.find? (fun m => decide (m.cause ≠ 0)) = none := List.find?_eq_none.mpr (by simpa using h)
  exact ⟨by rw [firstCause_gaugeOutcome, hfind]; rfl, by rw [outcome_gaugeOutcome, hany]; rfl⟩

end

/-- Settles O24: GAUGE_CONTRIBUTION by `gaugeContribution_sends`; GAUGE by `takes_iff`, and the round it completes by `tryDecide_complete`; the
outcome by `vlt_lowest`, for what exceeds the lowest limit exceeds one of them. -/
theorem gaugeMessagesAndOutcome : Obligations.GaugeMessagesAndOutcome := by
  unfold Obligations.GaugeMessagesAndOutcome
  refine ⟨⟨?contribution, ?gauge⟩, ?outcome⟩
  case contribution =>
    intro p un s P e can
    refine ⟨fun h => ?_, fun c h hs hreach hbad => ?_, fun h hready hearly => ⟨s.dev.contribution e p, ?_, ?_⟩⟩
    · rw [exec_gaugeContribution, gaugeContribution_waits h]; rfl
    · rw [exec_gaugeContribution, gaugeContribution_faults h hs hreach hbad]
    · rw [exec_gaugeContribution, gaugeContribution_sends h hready hearly]
    · exact ⟨Fin.ext (Nat.mod_eq_of_lt p.isLt), rfl, rfl, rfl, rfl, (flags_contribution _ _ _).1, (flags_contribution _ _ _).2, rfl, rfl⟩
  case gauge =>
    intro m s P taken Q ms
    have hpart : (s.dev.gauging m).part m.part = Q := part_modPart_same _ _ _
    refine ⟨fun h => ?_, fun h hopen => ?_, fun h hcontrib hall hrun hres => ⟨tryDecide m.part (s.dev.gauging m), ?_, ?_⟩⟩
    · rw [exec_gauge, gaugeMsg_dropped h]; rfl
    · rw [exec_gauge, gaugeMsg_held h, tryDecide_open (by rw [hpart]; exact hopen)]; rfl
    · rw [exec_gauge, gaugeMsg_held h]
    · have hround := tryDecide_complete (ms := ms) (by rw [hpart]; rfl) (by rw [hpart]; exact hcontrib) (by rw [hpart]; exact hall)
        (by rw [hpart]; exact hrun) (by rw [hpart]; exact hres)
      rw [hpart] at hround
      exact Prod.ext_iff.mp hround
  case outcome =>
    intro step ms r n2
    refine ⟨gaugeOutcome_fault, fun hclean => ?_⟩
    obtain ⟨hcause, hout⟩ := gaugeOutcome_clean (step := step) hclean
    refine ⟨hcause, fun hskip => ?_, fun hflag hfin hlim => ?_⟩
    · have hdata : skipsData ms = true := by
        simp only [skipsData, Bool.or_eq_true, List.any_eq_true, or_assoc]
        exact hskip
      rw [hout, if_pos hdata]
    · have hdata : skipsData ms = false := by
        simp only [skipsData, Bool.or_eq_false_iff, List.any_eq_false, Bool.not_eq_true]
        exact ⟨⟨hflag, hfin⟩, hlim⟩
      rw [hout, if_neg (by simp [hdata])]

end Sys2Proof.Machine
end

section
/-! SUPPORT. A device that a wake of one stack for an update has left waiting, and what leads to it: the wakes, faults and messages (R342, R344,
R346). -/
namespace Sys2Proof.Machine

/-- The stack number at which PWR_DOM[32 + x], at 0x20100 + 8 * (32 + x), and STK_PURL of stack 0, at 0x300018, are one register. -/
def purlStack : Nat := 0x5BFC3
/-- Its domain number. -/
def purlDom : Nat := 32 + purlStack

/-- A handle placed on that stack alone. -/
def purlHandle : HEntry :=
  { cls := 1, access := 0, localLt := 0, size := 65536, place := { spread := false, stack := purlStack, list := [], segs := [] } }

/-- Does a link wait to deliver its sum of no values at handle 5, where its part stands too? -/
def Link.pending (k : Link) : Prop :=
  k.delivered = false ∧ k.void = false ∧ k.mode = 0 ∧ k.this = k.final ∧ k.s1 = 0 ∧ (locOf k.ad).h = 5 ∧ (locOf k.as).h = 5

/-- A device that has sent nothing and has no flow, whose domains can be woken, with handle 5 on that stack and a link of partition 0 that
waits to deliver there, while the stack's domain is asleep or was woken last by an update. -/
structure Device.Poised (d : Device) : Prop where
  quiet : d.out = []
  noFlow : d.flows = []
  cool : d.thermTrip = false
  aon : d.domOn 79 = true
  handles : (d.part 0).handles = [(5, some purlHandle)]
  link : ∃ k, (d.part 0).links = [k] ∧ k.pending
  asleep : (d.rd (fDom purlDom) = 1 ∨ d.rd (fDom purlDom) = 2) ∨ d.rd (fLastWake purlDom) = 6

/-- The handles and links of a partition. -/
def Part.gist (P : Part) : Tab (Option HEntry) × List Link := (P.handles, P.links)

/-- All that being poised is about, but for the state and the last wake of the stack's domain. -/
def Device.rest (d : Device) : List Out × Tab Flow × Bool × Word × Tab (Option HEntry) × List Link :=
  (d.out, d.flows, d.thermTrip, d.reg 0x20378, (d.part 0).gist)

/-- All that being poised is about. -/
def Device.sight (d : Device) : (List Out × Tab Flow × Bool × Word × Tab (Option HEntry) × List Link) × Word := (d.rest, d.reg 0x300018)

/-- A change of what `rest` shows of nothing leaves a device poised that is asleep. -/
theorem Device.Poised.of_rest {d e : Device} (h : e.Poised) (hrest : e.rest = d.rest)
    (hsleep : (d.rd (fDom purlDom) = 1 ∨ d.rd (fDom purlDom) = 2) ∨ d.rd (fLastWake purlDom) = 6) : d.Poised := by
  simp only [Device.rest, Part.gist, Prod.mk.injEq] at hrest
  obtain ⟨hout, hflows, htherm, hreg, hhandles, hlinks⟩ := hrest
  have haon : e.domOn 79 = d.domOn 79 := congrArg (fun w : Word => decide (bits w.toNat 1 0 = 0)) hreg
  exact ⟨hout ▸ h.quiet, hflows ▸ h.noFlow, htherm ▸ h.cool, haon ▸ h.aon, hhandles ▸ h.handles, hlinks ▸ h.link, hsleep⟩

/-- Devices that look the same are poised alike. -/
theorem Device.Poised.of_sight {d e : Device} (h : e.Poised) (hsight : e.sight = d.sight) : d.Poised := by
  obtain ⟨hrest, hreg⟩ := Prod.ext_iff.mp hsight
  have hreg : e.reg (fDom purlDom).addr = d.reg (fDom purlDom).addr := hreg
  refine h.of_rest hrest ?_
  have hsleep := h.asleep
  simp only [Device.rd, hreg, show (fLastWake purlDom).addr = (fDom purlDom).addr from rfl] at hsleep ⊢
  exact hsleep

section
variable {d : Device}

/-- A poised device has sent nothing. -/
theorem not_poised_emit (o : Out) : ¬ (d.emit o).Poised := fun h => absurd h.quiet (by simp)

-- Changes that being poised is not about.

theorem sight_setPart {p : Nat} {P : Part} (h : P.gist = (d.part p).gist) : (d.setPart p P).sight = d.sight := by
  have hpart := part_setPart_keeps Part.gist h 0
  simp only [Device.sight, Device.rest, hpart]
  rfl

theorem sight_modPart {p : Nat} {f : Part → Part} (h : ∀ P, (f P).gist = P.gist := by intro; rfl) : (d.modPart p f).sight = d.sight :=
  sight_setPart (h _)

/-- A register that is neither the power state of D.AON nor the register of the stack. -/
def Fld.harmless (f : Fld) : Prop := f.addr ≠ 0x20378 ∧ f.addr ≠ 0x300018

theorem sight_wr {f : Fld} (h : f.harmless) (v : Nat) : (d.wr f v).sight = d.sight := by
  have h79 : (d.wr f v).reg 0x20378 = d.reg 0x20378 := reg_setReg_other _ _ h.1.symm
  have hstk : (d.wr f v).reg 0x300018 = d.reg 0x300018 := reg_setReg_other _ _ h.2.symm
  simp only [Device.sight, Device.rest, h79, hstk]
  rfl

theorem sight_inc {f : Fld} (h : f.harmless) (n : Nat := 1) : (d.inc f n).sight = d.sight := sight_wr h _

theorem sight_hStore (p h off : Nat) (bs : List Byte) : (d.hStore p h off bs).sight = d.sight := by
  unfold Device.hStore
  dsimp only
  split
  · rfl
  · exact sight_modPart

theorem sight_writeAt (p l : Nat) (x : Loc) (bs : List Byte) : (d.writeAt p l x bs).sight = d.sight := by
  unfold Device.writeAt Device.hWrite
  split
  · rfl
  · exact (sight_modPart (d := d.hStore p x.h x.pos bs)).trans (sight_hStore _ _ _ _)

theorem sight_touch (p l : Nat) (x : Loc) (n : Nat) : (d.touch p l x n).sight = d.sight := by
  unfold Device.touch Device.scramble
  split
  · split
    · rfl
    · exact sight_modPart (d := d.openRegion p l) (f := fun P => { P with walks := P.walks.map (Walk.spoil l) })
  · rfl

theorem sight_touchAll (p l : Nat) (xs : List (Loc × Nat)) : (d.touchAll p l xs).sight = d.sight :=
  foldl_keeps Device.sight _ (fun _ (x : Loc × Nat) => sight_touch p l x.1 x.2) _ _

theorem sight_writeParts (p l : Nat) (ws : List (Loc × List Byte)) : (writeParts p l ws d).1.sight = d.sight := by
  induction ws generalizing d with
  | nil => rfl
  | cons w ws ih =>
    unfold writeParts
    split
    · rfl
    · rw [ih, sight_touch, sight_writeAt]

theorem hostOf_lt {p l t : Nat} (h : d.hostOf p l = some t) : t < 32 := List.mem_range.mp (List.mem_of_find?_eq_some h)

theorem sight_tileCount {p l : Nat} {f : Nat → Fld} (h : ∀ t < 32, (f t).harmless) (n : Nat := 1) : (tileCount d p l f n).sight = d.sight := by
  unfold tileCount
  split
  · rfl
  · exact sight_inc (h _ (hostOf_lt ‹_›)) n

theorem sight_setFlag (p l id : Nat) : (setFlag d p l id).sight = d.sight := by
  unfold setFlag
  exact sight_modPart (by intro P; split <;> rfl)

-- Wakes.

theorem harmless_dom {n : Nat} (h79 : n ≠ 79) (hstk : n ≠ purlDom) : (fDom n).harmless := by
  simp only [Fld.harmless, fDom, purlDom, purlStack] at *
  omega

theorem harmless_stack {x : Nat} (h : x < 32) : (fTrain x).harmless := by
  simp only [Fld.harmless, fTrain, stkReg]; omega
theorem harmless_port {n : Nat} (h : n < 8) : (fLink n).harmless := by
  simp only [Fld.harmless, fLink]; omega

/-- The exit of a domain other than the two. -/
theorem sight_startExit {n : Nat} (h79 : n ≠ 79) (hstk : n ≠ purlDom) (c : Nat) : (startExit d n c).sight = d.sight := by
  have hdom := harmless_dom h79 hstk
  have hexit : ((((((d.modDom n (fun x => { x with wake := none, refuse := none })).wr (fDom n) 3).wr (fDomStep n) 6).wr (fDomReady n) 0).wr
      (fTarget n) 0).wr (fLastWake n) c).sight = d.sight := by
    rw [sight_wr (f := fLastWake n) hdom, sight_wr (f := fTarget n) hdom, sight_wr (f := fDomReady n) hdom,
      sight_wr (f := fDomStep n) hdom, sight_wr hdom]
    rfl
  have hmod (e : Device) (k : Nat) (f : Port → Port) : (e.modPort k f).sight = e.sight := rfl
  unfold startExit
  dsimp only
  split
  · rename_i hport
    simp only [Bool.and_eq_true, decide_eq_true_eq] at hport
    have hp := harmless_port (n := n - 64) (by omega)
    rw [hmod, apply_ite Device.sight, sight_wr hp, sight_wr (f := fWakeSrc (n - 64)) hp, hexit, ite_self]
  · split
    · rename_i hstack
      simp only [Bool.and_eq_true, decide_eq_true_eq] at hstack
      rw [sight_wr (harmless_stack (by omega)), hexit]
    · exact hexit

/-- The exit of a domain other than D.AON's changes nothing else that being poised is about. -/
theorem rest_startExit {n : Nat} (h79 : n ≠ 79) (c : Nat) : (startExit d n c).rest = d.rest := by
  by_cases hstk : n = purlDom
  · subst hstk
    have hwr (e : Device) (f : Fld) (v : Nat) (h : f.addr = 0x300018) : (e.wr f v).rest = e.rest := by
      have h79 : (e.wr f v).reg 0x20378 = e.reg 0x20378 := reg_setReg_other _ _ (by rw [h]; decide)
      simp only [Device.rest, h79]
      rfl
    unfold startExit
    dsimp only
    rw [if_neg (by decide), if_neg (by simp [purlDom, purlStack]), hwr _ _ _ rfl, hwr _ _ _ rfl, hwr _ _ _ rfl, hwr _ _ _ rfl,
      hwr _ _ _ rfl]
    rfl
  · exact congrArg Prod.fst (sight_startExit h79 hstk c)

/-- A wake that makes a device poised finds it poised: D.AON is not woken, and the stack's domain only where it sleeps. -/
theorem poised_of_wakeOne {n c : Nat} (h : (wakeOne d n c).Poised) : d.Poised := by
  unfold wakeOne at h
  dsimp only at h
  split at h
  · exact h
  rename_i hgo
  simp only [Bool.or_eq_true, decide_eq_true_eq, Bool.not_eq_true', not_or] at hgo
  obtain ⟨⟨hoff, haon⟩, -⟩ := hgo
  split at h
  · split at h
    · exact h
    · split at h
      · exact h
      · split at h
        · exact h
        · exact h.of_sight rfl
  · rename_i hexit
    have h79 : n ≠ 79 := by
      rintro rfl
      exact hoff (by simpa [Device.domOn] using haon)
    by_cases hstk : n = purlDom
    · subst hstk
      have hlt : d.rd (fDom purlDom) < 4 := rd_lt d (fDom purlDom)
      exact h.of_rest (rest_startExit h79 c) (.inl (by omega))
    · exact h.of_sight (sight_startExit h79 hstk c)

/-- A fold of changes none of which makes a device poised. -/
theorem poised_of_foldl {α : Type} {f : Device → α → Device} {as : List α} {d : Device} (h : (as.foldl f d).Poised)
    (hf : ∀ d a, (f d a).Poised → d.Poised) : d.Poised := by
  induction as generalizing d with
  | nil => exact h
  | cons a as ih => exact hf _ _ (ih h)

theorem poised_of_wakeDom {n c : Nat} (h : (wakeDom d n c).Poised) : d.Poised := by
  unfold wakeDom at h
  dsimp only at h
  have h := poised_of_wakeOne h
  split at h
  · exact poised_of_foldl h fun _ _ => poised_of_wakeOne
  · exact h

theorem poised_of_wakeFor {p h c : Nat} (hp : (d.wakeFor p h c).Poised) : d.Poised := poised_of_foldl hp fun _ _ => poised_of_wakeDom
theorem poised_of_wakeAll {p c : Nat} {hs : List Nat} (h : (wakeAll d p hs c).Poised) : d.Poised :=
  poised_of_foldl h fun _ _ => poised_of_wakeFor
theorem poised_of_wakeTiles {p c : Nat} (h : (wakeTiles d p c).Poised) : d.Poised := poised_of_foldl h fun _ _ => poised_of_wakeDom

/-- The registers of the update path and of errors are among those that being poised is not about. -/
theorem harmless_above {f : Fld} (h : 0x500000 ≤ f.addr) : f.harmless := by unfold Fld.harmless; omega
theorem harmless_tierWakes (p : Nat) : (fTierWakes p).harmless := harmless_above (by simp only [fTierWakes]; omega)

theorem poised_of_wakeUpd {p x : Nat} (h : (wakeUpd d p x).Poised) : d.Poised := by
  unfold wakeUpd at h
  split at h
  · exact h
  · have h := poised_of_wakeDom h
    split at h
    · exact h
    · exact h.of_sight (sight_inc (harmless_tierWakes p))

-- Faults and error records.

theorem poised_of_recordFault {p : Nat} {c : Cause} (h : (recordFault d p c).Poised) : d.Poised := by
  have hset (b : Bool) : (d.setPart p { (d.part p).modRunning (WorkItem.blame c) with stopping := b }).sight = d.sight := sight_setPart rfl
  unfold recordFault at h
  dsimp only at h
  split at h
  · exact h
  · split at h
    · exact h.of_sight (hset (d.part p).stopping)
    · exact (poised_of_wakeTiles h).of_sight (hset true)

theorem poised_of_tilesFault {p : Nat} {ls : List Nat} {c : Cause} (h : (tilesFault d p ls c).Poised) : d.Poised := by
  unfold tilesFault at h
  dsimp only at h
  split at h
  · exact poised_of_recordFault (poised_of_foldl h fun _ _ h => h.of_sight rfl)
  · exact poised_of_recordFault h

theorem poised_of_tileFault {p l : Nat} {c : Cause} (h : (tileFault d p l c).Poised) : d.Poised := poised_of_tilesFault h

theorem sight_addRecord (r : ERec) : (addRecord d r).sight = d.sight := by
  have hdoms (e : Device) (n k : Nat) : (refuseDom e n k).sight = e.sight := by
    have hmod (f : Dom → Dom) : (e.modDom n f).sight = e.sight := rfl
    unfold refuseDom
    rw [apply_ite Device.sight, hmod, ite_self]
  unfold addRecord
  dsimp only
  simp only [apply_ite Device.sight, sight_inc (f := fCntCe) (harmless_above (by decide)), sight_inc (f := fCntUe) (harmless_above (by decide)),
    sight_inc (f := fCntFatal) (harmless_above (by decide)), sight_wr (f := fAlert) (harmless_above (by decide)), ite_self]
  split
  · simp only [apply_ite Device.sight, hdoms, ite_self]
    exact sight_wr (harmless_above (by decide)) _
  · exact sight_wr (harmless_above (by decide)) _

theorem sight_setChecks (cs : List Check) : (setChecks d cs).sight = d.sight := by
  unfold setChecks
  dsimp only
  rw [sight_wr (f := fDropQueued) (harmless_above (by decide)), sight_wr (f := fDropRun) (harmless_above (by decide))]
  rfl

theorem sight_errorCheck (r : ERec) : (errorCheck d r).sight = d.sight := by
  unfold errorCheck requestCheck verdictRec
  dsimp only
  split
  · exact sight_addRecord _
  · split
    · rw [sight_inc (harmless_above (by decide)), sight_addRecord, sight_addRecord]
    · rw [sight_setChecks, sight_addRecord]

theorem poised_of_ueFault {p : Nat} {ls : List Nat} {r : ERec} (h : (ueFault d p ls r).Poised) : d.Poised :=
  (poised_of_tilesFault h).of_sight (sight_errorCheck _)

-- Sending: a poised device has sent nothing and has no flow.

theorem not_poised_of_flows (h : d.flows ≠ []) : ¬ d.Poised := fun hp => h hp.noFlow

theorem tput_ne_nil {α : Type} (k : Nat) (v : α) (t : Tab α) : tput k v t ≠ [] := by
  cases t with
  | nil => simp [tput]
  | cons e t => simp only [tput]; split <;> [skip; split] <;> simp

theorem flows_modFlow (i : Nat) (f : Flow → Flow) : (d.modFlow i f).flows ≠ [] := tput_ne_nil _ _ _

theorem flows_pumpFlow (i : Nat) (h : d.flows ≠ []) : (pumpFlow d i).flows ≠ [] := by
  unfold pumpFlow
  dsimp only
  split
  · split <;> exact flows_modFlow _ _
  · exact h

theorem flows_foldl {α : Type} {f : Device → α → Device} (hf : ∀ d a, d.flows ≠ [] → (f d a).flows ≠ []) (as : List α) {d : Device}
    (h : d.flows ≠ []) : (as.foldl f d).flows ≠ [] := by
  induction as generalizing d with
  | nil => exact h
  | cons a as ih => exact ih (hf _ _ h)

theorem flows_crossFabric (p : Nat) : (crossFabric d p).flows = d.flows := by
  unfold crossFabric
  dsimp only
  split
  · rfl
  · rw [foldl_keeps Device.flows (fun d (x : Bool × Msg) => d.emit (.fabric p x.2)) (fun _ _ => rfl)]; rfl

/-- A message queued on a flow leaves the flow's context behind. -/
theorem not_poised_flowSend (i : Nat) (ctrl : Bool) (m : Msg) : ¬ (flowSend d i ctrl m).Poised := by
  refine not_poised_of_flows ?_
  unfold flowSend pump
  dsimp only
  have hflow := flows_pumpFlow i (flows_modFlow (d := d) i (fun f => { f with waiting := f.waiting ++ [(ctrl, m)] }))
  split
  · unfold pumpPeers
    rw [flows_crossFabric]
    exact flows_foldl (fun _ (e : Nat × Flow) => flows_pumpFlow e.1) _ hflow
  · exact hflow

theorem not_poised_sendHost (p : Nat) (flow : BitVec 16) (bs : List Byte) : ¬ (sendHost d p flow bs).Poised := by
  rw [sendHost_eq]
  split
  · exact not_poised_flowSend _ _ _
  · exact not_poised_emit _

theorem poised_of_sendWiStatus {p : Nat} {w : WorkItem} (h : (sendWiStatus d p w).Poised) : d.Poised := by
  unfold sendWiStatus at h
  split at h
  · exact h
  · exact absurd h (not_poised_sendHost _ _ _)

theorem poised_of_peerLost {p dev : Nat} (h : (peerLost d p dev).Poised) : d.Poised := by
  unfold peerLost at h
  split at h
  · exact h
  · exact poised_of_recordFault (h.of_sight sight_modPart)

theorem gist_waitFor (dev : Nat) (m : Msg) (P : Part) : (waitFor dev m P).gist = P.gist := by
  unfold waitFor; split <;> rfl

theorem poised_of_sendPeer {p dev : Nat} {m : Msg} (h : (sendPeer d p dev m).Poised) : d.Poised := by
  have hwait : (d.modPart p (waitFor dev m)).sight = d.sight := sight_modPart (gist_waitFor dev m)
  unfold sendPeer at h
  split at h
  · split at h
    · exact h.of_sight hwait
    · exact absurd h (not_poised_emit _)
  · split at h
    · split at h
      · exact h.of_sight hwait
      · split at h
        · exact h
        · exact poised_of_peerLost h
    · split at h
      · exact h
      · exact absurd h (not_poised_flowSend _ _ _)

-- Links.

theorem harmless_tile {f : Fld} {t off : Nat} (ht : t < 32) (hoff : off < 0x10000) (h : f.addr = tileReg t off) : f.harmless := by
  unfold tileReg at h
  unfold Fld.harmless
  omega

theorem poised_of_sendLink {p i typ : Nat} {k : Link} {m : CableMsg} (h : (sendLink d p k i typ m).Poised) : d.Poised := poised_of_sendPeer h

theorem poised_of_sendFinish {p : Nat} {k : Link} (h : (sendFinish d p k).Poised) : d.Poised :=
  poised_of_foldl h fun _ _ => poised_of_sendLink

theorem poised_of_sendRestart {p : Nat} {k : Link} (h : (sendRestart d p k).Poised) : d.Poised :=
  poised_of_foldl h fun _ _ h => poised_of_sendLink (h.of_sight (sight_tileCount fun _ ht => harmless_tile ht (by decide) rfl))

/-- Does a link that waits replace one that waits? -/
def Device.follows (d : Device) (p : Nat) (k : Link) : Prop :=
  k.pending → ∀ k0, (d.part p).link k.lt k.op = some k0 → k0.pending

theorem follows_of_link {p l op : Nat} {k k' : Link} (h : (d.part p).link l op = some k) (hl : k'.lt = k.lt) (hop : k'.op = k.op)
    (hk : k'.pending → k.pending) : d.follows p k' := by
  intro hpend k0 h0
  have hkey := List.find?_some h
  simp only [Bool.and_eq_true, decide_eq_true_eq] at hkey
  rw [hl, hop, hkey.1, hkey.2, h] at h0
  exact Option.some.inj h0 ▸ hk hpend

end

end Sys2Proof.Machine
end

section
/-! SUPPORT. What links do leads to such a device from such a one alone (R160 to R170, R346). -/
namespace Sys2Proof.Machine

section
variable {d : Device}

/-- What a test finds once what it found first is replaced. -/
theorem eq_of_find?_replaceFirst {α : Type} {f : α → Bool} {a b : α} {as : List α} (hb : f b = true)
    (h : (replaceFirst f (fun _ => b) as).find? f = some a) : a = b := by
  induction as with
  | nil => cases h
  | cons c as ih =>
    cases hc : f c with
    | true => simpa [replaceFirst, hc, hb, eq_comm] using h
    | false => exact ih (by simpa [replaceFirst, hc] using h)

theorem follows_setLink {p : Nat} {k k' : Link} (hl : k'.lt = k.lt) (hop : k'.op = k.op) (hk : k'.pending → k.pending) :
    (setLink d p k).follows p k' := by
  intro hpend k0 h0
  rw [setLink, part_modPart_same, hl, hop] at h0
  exact eq_of_find?_replaceFirst (by simp) h0 ▸ hk hpend

theorem follows_of_not_pending {p : Nat} {k : Link} (h : ¬ k.pending) : d.follows p k := fun hk => absurd hk h

/-- A device is poised before a link is replaced, where the new one waits only if the old one did. -/
theorem poised_of_setLink {p : Nat} {k : Link} (h : (setLink d p k).Poised) (hk : d.follows p k) : d.Poised := by
  by_cases hp : p = 0
  · subst hp
    obtain ⟨k1, hlinks, hpend⟩ := h.link
    have hhandles := h.handles
    simp only [setLink, part_modPart_same] at hlinks hhandles
    refine ⟨h.quiet, h.noFlow, h.cool, h.aon, hhandles, ?_, h.asleep⟩
    match hd : (d.part 0).links with
    | [] => rw [hd] at hlinks; cases hlinks
    | a :: as =>
      rw [hd, replaceFirst] at hlinks
      split at hlinks
      · rename_i hfound
        obtain ⟨rfl, rfl⟩ := List.cons.inj hlinks
        exact ⟨a, rfl, hk hpend a (by simp [Part.link, hd, hfound])⟩
      · obtain ⟨rfl, hnil⟩ := List.cons.inj hlinks
        cases as with
        | nil => exact ⟨a, rfl, hpend⟩
        | cons b as => simp only [replaceFirst] at hnil; split at hnil <;> cases hnil
  · have hkeep : ((setLink d p k).part 0).gist = (d.part 0).gist := by
      rw [setLink, part_modPart_other (h := Ne.symm hp)]
    refine h.of_sight ?_
    simp only [Device.sight, Device.rest, hkeep]
    rfl

theorem follows_of_links {e : Device} {p : Nat} {k : Link} (h : d.follows p k) (hlinks : (e.part p).links = (d.part p).links) : e.follows p k := by
  intro hpend k0 h0
  rw [Part.link, hlinks] at h0
  exact h hpend k0 h0

theorem void_not_pending {k : Link} (h : k.void = true) : ¬ k.pending := fun hp => by simp [hp.2.1] at h
theorem delivered_not_pending {k : Link} (h : k.delivered = true) : ¬ k.pending := fun hp => by simp [hp.1] at h

theorem poised_of_linkOverflow {p : Nat} {k : Link} (h : (linkOverflow d p k).1.Poised) (hk : d.follows p k) : d.Poised := by
  unfold linkOverflow at h
  rw [apply_ite Prod.fst, apply_ite Prod.fst] at h
  split at h
  · exact poised_of_setLink (h.of_sight (sight_setFlag _ _ _)) hk
  · split at h
    · exact poised_of_setLink h (follows_of_not_pending (void_not_pending rfl))
    · exact poised_of_setLink (poised_of_sendRestart h) hk

/-- Values are added: work goes on unless they overflow. -/
theorem poised_of_added {p : Nat} {k : Link} {b : Bool} (h : (if b then linkOverflow d p k else (d, true)).1.Poised) (hk : d.follows p k) :
    d.Poised := by
  split at h
  · exact poised_of_linkOverflow h hk
  · exact h

theorem poised_of_ite {c : Prop} [Decidable c] {a e : Device} (h : (if c then a else e).Poised) (ha : a.Poised → e.Poised) : e.Poised := by
  split at h
  · exact ha h
  · exact h

theorem poised_of_linkFault {p : Nat} {k : Link} {c : Cause} (h : (linkFault d p k c).Poised) : d.Poised :=
  poised_of_setLink (poised_of_tileFault h) (follows_of_not_pending (void_not_pending rfl))

theorem poised_of_deliver {p : Nat} {k : Link} (h : (deliver d p k).Poised) : d.Poised := by
  have hdone {d : Device} {k : Link} (hk : k.delivered = true) (h : (setLink d p k).Poised) : d.Poised :=
    poised_of_setLink h (follows_of_not_pending (delivered_not_pending hk))
  unfold deliver at h
  dsimp only at h
  split at h
  · exact h
  · split at h
    · exact poised_of_wakeAll h
    · split at h
      · split at h
        · exact hdone rfl (poised_of_sendFinish h)
        · split at h
          · exact poised_of_linkFault (poised_of_sendFinish h)
          · exact hdone rfl ((poised_of_sendFinish h).of_sight ((sight_touch ..).trans (sight_writeAt ..)))
      · have h := poised_of_sendFinish h
        split at h
        · exact hdone rfl h
        · exact hdone rfl (poised_of_foldl h fun _ _ => poised_of_sendPeer)

theorem poised_of_finalSeg {p s : Nat} {k : Link} {vs : List Word} (h : (finalSeg d p k s vs).Poised) (hk : d.follows p k) : d.Poised :=
  poised_of_setLink (poised_of_deliver h) hk

theorem poised_of_fanPut {p l op fuel lv j s : Nat} {vs : List Word} (h : (fanPut p l op fuel lv j s vs d).Poised) : d.Poised := by
  induction fuel generalizing d lv j vs with
  | zero => exact h
  | succ fuel ih =>
    unfold fanPut at h
    split at h
    · exact h
    rename_i k hk
    split at h
    · exact h
    have hnext : (setLink d p { k with nodes := k.nodes ++ [(lv, j, s, vs)] }).follows p { k with nodes := k.nodes ++ [(lv, j, s, vs)] } :=
      follows_setLink rfl rfl id
    refine poised_of_setLink (k := { k with nodes := k.nodes ++ [(lv, j, s, vs)] }) ?_ (follows_of_link hk rfl rfl id)
    dsimp only at h
    split at h
    · exact poised_of_finalSeg h hnext
    · split at h
      · exact poised_of_sendLink h
      · split at h
        · exact ih h
        · split at h
          · exact poised_of_added (poised_of_ite h ih) hnext
          · exact h

theorem poised_of_linkOut {p l op s : Nat} {vs : List Word} (h : (linkOut d p l op s vs).Poised) : d.Poised := by
  unfold linkOut at h
  split at h
  · exact h
  rename_i k hk
  have hkeep : d.follows p k := follows_of_link hk rfl rfl id
  split at h
  · exact h
  · split at h
    · exact poised_of_setLink (poised_of_fanPut h) hkeep
    · split at h
      · exact poised_of_finalSeg h hkeep
      · exact poised_of_setLink (poised_of_sendLink h) hkeep

theorem links_touchParts (p l : Nat) (xs : List Nat) (x : Nat → Loc) (n : Nat) :
    ((xs.foldl (fun d j => d.touch p l (x j) n) d).part p).links = (d.part p).links := by
  exact foldl_keeps (fun d : Device => (d.part p).links) _ (fun d j => by rw [part_touch]) _ _

theorem poised_of_linkAdd {p l op s : Nat} {run : List Word} (h : (linkAdd d p l op s run).Poised) : d.Poised := by
  unfold linkAdd at h
  split at h
  · exact h
  rename_i k hk
  have hkeep : d.follows p k := follows_of_link hk rfl rfl id
  split at h
  · exact h
  · split at h
    · exact poised_of_linkOut h
    · split at h
      · exact poised_of_setLink (poised_of_wakeAll h) hkeep
      · split at h
        · exact poised_of_linkFault (poised_of_linkOut h)
        · have h := poised_of_added (poised_of_ite h poised_of_linkOut) (follows_of_links hkeep (links_touchParts _ _ _ _ _))
          exact h.of_sight (foldl_keeps Device.sight _ (fun _ _ => sight_touch _ _ _ _) _ _)

-- Relay links.

theorem poised_of_relayDone {p l op : Nat} (h : (relayDone d p l op).Poised) : d.Poised := by
  unfold relayDone at h
  split at h
  · exact h
  rename_i k hk
  split at h
  · exact h
  · split at h
    · exact poised_of_setLink (poised_of_foldl h fun _ _ => poised_of_linkOut) (follows_of_link hk rfl rfl id)
    · exact h

theorem sight_modLt (p l : Nat) (f : LTile → LTile) : (d.modLt p l f).sight = d.sight := rfl

theorem poised_of_relayReplay {p : Nat} {k : Link} {g : Group} (h : (relayReplay d p k g).Poised) (hk : d.follows p k) : d.Poised := by
  unfold relayReplay at h
  dsimp only at h
  refine poised_of_setLink (k := { k with ready := true }) ?_ hk
  have hnext : (setLink d p { k with ready := true }).follows p { k with ready := true } := follows_setLink rfl rfl id
  have h := poised_of_ite (poised_of_ite h poised_of_relayDone) fun h => h.of_sight (sight_modLt p k.lt _)
  have h := poised_of_added h (follows_of_links hnext rfl)
  exact h.of_sight (sight_modLt p k.lt _)

theorem poised_of_relayLoad {p l op : Nat} (h : (relayLoad d p l op).Poised) : d.Poised := by
  unfold relayLoad at h
  split at h
  · exact h
  rename_i k hk
  have hkeep : d.follows p k := follows_of_link hk rfl rfl id
  split at h
  · exact h
  · split at h
    · exact h
    · split at h
      · exact poised_of_relayReplay h hkeep
      · split at h
        · exact poised_of_setLink (poised_of_relayReplay h (follows_setLink rfl rfl id)) hkeep
        · split at h
          · exact poised_of_relayReplay h hkeep
          · exact h

theorem poised_of_linkSeg {p l op s mbNext : Nat} {check : Bool} {vs : List Word} (h : (linkSeg d p l op s mbNext check vs).Poised) : d.Poised := by
  unfold linkSeg at h
  split at h
  · exact h
  rename_i k hk
  have hkeep : d.follows p k := follows_of_link hk rfl rfl id
  split at h
  · refine poised_of_setLink (k := { k with got := tput s vs k.got }) ?_ hkeep
    split at h
    · exact poised_of_linkOut h
    · exact poised_of_relayLoad h
  · split at h
    · exact poised_of_linkFault (poised_of_linkAdd h)
    · exact poised_of_setLink (poised_of_linkAdd h) hkeep

/-- What a link takes for what it awaits carries VOID. -/
theorem poised_of_settleParts {p : Nat} {src : Link → Nat → Device → Bool} {k : Link} (h : (settleParts p src k d).Poised) : d.Poised := by
  have hvoid {d : Device} {k : Link} (hk : k.void = true) (h : (setLink d p k).Poised) : d.Poised :=
    poised_of_setLink h (follows_of_not_pending (void_not_pending hk))
  unfold settleParts at h
  split at h
  · refine poised_of_foldl h fun d w h => ?_
    split at h
    · refine poised_of_foldl h fun d s h => ?_
      split at h
      · exact h
      · split at h
        · exact h
        · exact hvoid rfl (poised_of_fanPut h)
    · exact h
  · split at h
    · refine poised_of_foldl h fun d s h => ?_
      split at h
      · exact h
      · split at h
        · exact h
        · exact hvoid rfl (poised_of_linkSeg h)
    · exact h

theorem poised_of_resettle {p n : Nat} {src : Link → Nat → Device → Bool} {k0 : Link} (h : (resettle p src k0 n d).Poised) : d.Poised := by
  induction n generalizing d with
  | zero => exact h
  | succ n ih =>
    unfold resettle at h
    split at h
    · exact h
    · split at h
      · exact poised_of_setLink (poised_of_settleParts (ih h)) (follows_of_not_pending (void_not_pending rfl))
      · exact h

theorem poised_of_resettleVoid {p : Nat} {k : Link} (h : (resettleVoid p k d).Poised) : d.Poised := poised_of_resettle h

theorem poised_of_resumeLink {p l op : Nat} (h : (resumeLink p l op d).Poised) : d.Poised := by
  unfold resumeLink at h
  split at h
  · exact h
  rename_i k hk
  have hstall : (if k.stall = [] || !d.readable p [(locOf k.as).h] || !d.enginesAdd p ((d.part p).stacksOf (locOf k.as).h) then d
      else k.stall.foldl (fun d x => linkAdd d p l op x.1 x.2) (setLink d p { k with stall := [] })).Poised := by
    dsimp only at h
    split at h
    · exact h
    · have h := poised_of_resettleVoid h
      exact poised_of_ite h poised_of_deliver
  split at hstall
  · exact hstall
  · exact poised_of_setLink (poised_of_foldl hstall fun _ _ => poised_of_linkAdd) (follows_of_link hk rfl rfl id)

end

end Sys2Proof.Machine
end

section
/-! SUPPORT. So do commits, sums, rows and requests; hence what goes on once it serves finds the stack woken for an update (R264, R346). -/
namespace Sys2Proof.Machine

section
variable {d : Device}

theorem poised_of_resumeLinks {d : Device} (h : (resumeLinks d).Poised) : d.Poised :=
  poised_of_foldl h fun _ _ h => poised_of_foldl h fun _ _ => poised_of_resumeLink

-- Headers, parked sums and commits.

theorem sight_hdrWrite (p h off n v : Nat) : (hdrWrite d p h off n v).sight = d.sight := sight_hStore _ _ _ _

theorem sight_landParked (p : Nat) : (landParked p d).sight = d.sight := by
  refine foldl_keeps Device.sight _ (fun d q => ?_) _ _
  split
  · exact (sight_modPart (d := d.hStore p q.h q.off q.bytes)).trans (sight_hStore _ _ _ _)
  · rfl

theorem poised_of_endItem {p : Nat} {w : WorkItem} (h : (endItem d p w).Poised) : d.Poised :=
  (poised_of_sendWiStatus h).of_sight sight_modPart

theorem poised_of_releaseFinal {p : Nat} (h : (releaseFinal d p).Poised) : d.Poised :=
  (poised_of_foldl h fun _ _ => poised_of_endItem).of_sight sight_modPart

theorem poised_of_commitStep {p s : Nat} {job : BitVec 32} (h : (commitStep d p s job).Poised) : d.Poised := by
  unfold commitStep at h
  refine ((poised_of_ite (poised_of_releaseFinal h) fun h => h.of_sight (sight_wr (harmless_above ?_) s)).of_sight sight_modPart).of_sight
    (foldl_keeps Device.sight _ (fun d x => ?_) _ _)
  · simp only [fLastCommit]; omega
  · rw [sight_hdrWrite, bumpGen, sight_hdrWrite, sight_hdrWrite]

theorem poised_of_commitReady {p n : Nat} (h : (commitReady p n d).Poised) : d.Poised := by
  induction n generalizing d with
  | zero => exact h
  | succ n ih =>
    unfold commitReady at h
    split at h
    · exact h
    · dsimp only at h
      split at h
      · exact h
      · split at h
        · exact poised_of_foldl h fun _ _ => poised_of_wakeUpd
        · exact poised_of_commitStep (ih h)

-- Sums for the update path.

theorem sight_holdSeg (p : Nat) (m : CableMsg) : (holdSeg d p m).sight = d.sight := by
  unfold holdSeg holdEarly
  split
  · rfl
  · exact sight_modPart (d := (d.store p _).2)

theorem sight_modDesc (p shard : Nat) (f : UDesc → UDesc) : (modDesc d p shard f).sight = d.sight := sight_modPart

theorem poised_of_sendHeld {p : Nat} {m : CableMsg} (h : (sendHeld d p m).Poised) : d.Poised := poised_of_sendPeer h

theorem poised_of_landGrad {p off : Nat} {x : UDesc} {bs : List Byte} (h : (landGrad d p x off bs).Poised) : d.Poised := by
  unfold landGrad at h
  split at h
  · exact h.of_sight (sight_hStore _ _ _ _)
  · have h := poised_of_foldl (h.of_sight sight_modPart) fun _ _ => poised_of_wakeUpd
    split at h
    · exact h
    · exact h.of_sight (sight_inc (harmless_above (by simp only [fDeferrals]; omega)))

theorem poised_of_gradSeg {p : Nat} {x : UDesc} {m : CableMsg} (h : (gradSeg d p x m).Poised) : d.Poised := by
  have hdesc {d : Device} {f : UDesc → UDesc} (h : (modDesc d p x.shard f).Poised) : d.Poised := h.of_sight (sight_modDesc _ _ _)
  unfold gradSeg at h
  extract_lets n s fits late at h
  generalize (if late = true then 128 else 0) = room at h
  split at h
  · exact h
  · split at h
    · exact poised_of_foldl (h.of_sight (sight_holdSeg _ _)) fun _ _ => poised_of_wakeUpd
    · split at h
      · exact hdesc (poised_of_sendHeld (poised_of_recordFault h))
      · split at h
        · exact hdesc (poised_of_sendHeld h)
        · split at h
          · exact poised_of_landGrad (poised_of_landGrad (hdesc (poised_of_sendHeld h)))
          · exact poised_of_landGrad (hdesc h)

theorem poised_of_discardSum {p : Nat} {m : CableMsg} (h : (discardSum d p m).Poised) : d.Poised := by
  unfold discardSum at h
  dsimp only at h
  split at h
  · exact h
  · exact ((poised_of_sendHeld h).of_sight (sight_inc (harmless_above (by decide)))).of_sight sight_modPart

theorem poised_of_segUpdate {m : CableMsg} (h : (segUpdate m d).Poised) : d.Poised := by
  unfold segUpdate at h
  dsimp only at h
  split at h
  · exact h
  · split at h
    · exact h.of_sight (sight_holdSeg _ _)
    · split at h
      · exact poised_of_discardSum h
      · split at h
        · exact poised_of_gradSeg h
        · split at h
          · exact poised_of_discardSum h
          · exact h.of_sight (sight_holdSeg _ _)

theorem poised_of_takeSums {p : Nat} (h : (takeSums p d).Poised) : d.Poised := by
  unfold takeSums at h
  refine (poised_of_foldl h fun d e h => ?_).of_sight sight_modPart
  split at h
  · exact poised_of_segUpdate h
  · exact h

-- Rows of exchanges.

theorem sight_modExch (p l op : Nat) (f : Exch → Exch) : (modExch d p l op f).sight = d.sight := sight_modPart

theorem poised_of_skeinUe {p kind : Nat} {x : Exch} (h : (skeinUe d p x kind).Poised) : d.Poised :=
  (poised_of_ueFault h).of_sight rfl

theorem poised_of_landRow {p r : Nat} {x : Exch} {s : SrcIn} {b : List Byte} (h : (landRow p x s b r d).Poised) : d.Poised := by
  have hread {xs : List (Loc × Nat)} (h : (d.touchAll p x.lt xs).Poised) : d.Poised := h.of_sight (sight_touchAll _ _ _)
  have hcount (d : Device) : (tileCount d p x.lt fTagFaults).sight = d.sight :=
    sight_tileCount fun _ ht => harmless_tile ht (by decide) rfl
  unfold landRow at h
  extract_lets n rec_ t e g sb w at h
  split at h
  · exact hread (poised_of_tileFault h)
  · split at h
    · exact hread ((poised_of_skeinUe h).of_sight (hcount _))
    · split at h
      · exact hread (poised_of_tileFault h)
      · refine hread (Device.Poised.of_sight (e := w.1) ?_ (sight_writeParts _ _ _))
        split at h
        · exact poised_of_tileFault h
        · exact h

theorem poised_of_landSource {p l op dev : Nat} (h : (landSource p l op dev d).Poised) : d.Poised := by
  unfold landSource at h
  split at h
  · exact h
  · split at h
    · exact h
    · dsimp only at h
      split at h
      · exact h
      · split at h
        · exact poised_of_wakeAll h
        · exact poised_of_foldl (h.of_sight (sight_modExch _ _ _ _)) fun _ _ => poised_of_landRow

theorem poised_of_landAll {p l op : Nat} (h : (landAll p l op d).Poised) : d.Poised := by
  unfold landAll at h
  split at h
  · exact h
  · exact poised_of_foldl h fun _ _ => poised_of_landSource

-- Requests that wait.

theorem not_poised_itemReply (r : Req) (echo : Nat) (w : WorkItem) : ¬ (itemReply d r echo w).Poised := not_poised_sendHost _ _ _
theorem not_poised_codeReply (r : Req) (code echo : Nat) : ¬ (codeReply d r code echo).Poised := not_poised_sendHost _ _ _

theorem sight_hZero (p h off n : Nat) : (hZero d p h off n).sight = d.sight :=
  sight_modPart (d := { d with mem := mclear d.mem (hKey p h off) n })

theorem sight_zeroResiduals (p h : Nat) : (zeroResiduals d p h).sight = d.sight := by
  unfold zeroResiduals
  dsimp only
  split
  · rw [sight_hZero, sight_hZero]
  · rfl

theorem sight_putStore (p h off : Nat) (bs : List Byte) : (putStore d p h off bs).sight = d.sight := by
  unfold putStore
  dsimp only
  split
  · split
    · rw [sight_zeroResiduals, sight_hdrWrite, sight_hStore]
    · rw [sight_hdrWrite, sight_hStore]
  · exact sight_hStore _ _ _ _

theorem poised_of_putAct {r : Req} {wi : Nat} (h : (putAct r wi d).Poised) : d.Poised := by
  unfold putAct at h
  dsimp only at h
  split at h
  · exact (h.of_sight sight_modPart).of_sight (sight_putStore _ _ _ _)
  · exact absurd h (not_poised_codeReply _ _ _)

theorem not_poised_getAct (r : Req) (bad : Option OffFind) : ¬ (getAct r bad d).Poised := by
  intro h
  unfold getAct at h
  extract_lets p k n off e at h
  split at h
  · exact not_poised_codeReply _ _ _ h
  · exact not_poised_sendHost _ _ _ h

theorem poised_of_accessAct {typ : Nat} {r : Req} {wi : Nat} {bad : Option OffFind} (h : (accessAct typ r wi bad d).2.Poised) : d.Poised := by
  unfold accessAct at h
  extract_lets p P k n at h
  split at h
  · exact absurd h (not_poised_codeReply _ _ _)
  · split at h
    · exact absurd h (not_poised_codeReply _ _ _)
    · split at h
      · dsimp only at h
        split at h
        · exact h
        · exact poised_of_wakeFor h
      · dsimp only at h
        split at h
        · exact absurd h (not_poised_codeReply _ _ _)
        · split at h
          · exact poised_of_putAct h
          · exact absurd h (not_poised_getAct _ _)

theorem poised_of_allocAct {r : Req} (h : (allocAct r d).Poised) : d.Poised := by
  unfold allocAct at h
  dsimp only at h
  split at h
  · exact h
  · exact absurd h (not_poised_codeReply _ _ _)

theorem not_poised_launchAct (r : Req) : ¬ (launchAct r d).Poised := not_poised_itemReply _ _ _

theorem poised_of_abortOne {r : Req} (h : (abortOne r d).Poised) : d.Poised := by
  unfold abortOne at h
  dsimp only at h
  split at h
  · exact h
  · split at h
    · exact absurd (poised_of_foldl h fun _ _ => poised_of_endItem) (not_poised_itemReply _ _ _)
    · split at h
      · exact absurd h (not_poised_itemReply _ _ _)
      · exact absurd h (not_poised_itemReply _ _ _)

theorem not_poised_abortAll (r : Req) : ¬ (abortAll r d).Poised := by
  intro h
  unfold abortAll at h
  dsimp only at h
  split at h
  · exact not_poised_itemReply _ _ _ h
  · exact not_poised_codeReply _ _ _ h

theorem not_poised_idleFlow {p i : Nat} (hd : ¬ d.Poised) : ¬ (idleFlow d p i).Poised := by
  unfold idleFlow
  dsimp only
  split
  · exact not_poised_of_flows (tput_ne_nil _ _ _)
  · exact hd

theorem not_poised_closeAct (r : Req) : ¬ (closeAct r d).Poised := by
  unfold closeAct
  exact not_poised_idleFlow (not_poised_codeReply _ _ _)

theorem poised_of_serve {typ : Nat} {r : Req} {bad : Option OffFind} (h : (serve typ r bad d).2.Poised) : d.Poised := by
  unfold serve at h
  split at h
  · exact poised_of_wakeAll h
  · split at h
    · split at h
      · split at h
        · exact h
        · exact absurd h (not_poised_launchAct r)
      · dsimp only at h
        split at h
        · exact absurd h (not_poised_abortAll r)
        · exact poised_of_abortOne h
      · exact poised_of_allocAct h
      · exact poised_of_accessAct h
      · exact poised_of_accessAct h
      · exact poised_of_accessAct h
      · dsimp only at h
        split at h
        · exact h
        · exact absurd h (not_poised_itemReply _ _ _)
      · exact absurd h (not_poised_closeAct r)
    · exact absurd h (not_poised_codeReply _ _ _)

theorem sight_holdReq (typ : Nat) (r : Req) (taken : Option Nat) (bad : Option OffFind) : (holdReq typ r taken bad d).sight = d.sight :=
  sight_modPart (d := (d.store r.part r.body).2)

theorem poised_of_answered {x : Bool × Device} {typ : Nat} {r : Req} {taken : Option Nat} {bad : Option OffFind}
    (h : (if x.1 then x.2 else holdReq typ r taken bad x.2).Poised) : x.2.Poised := by
  split at h
  · exact h
  · exact h.of_sight (sight_holdReq _ _ _ _)

theorem poised_of_takeReq {typ : Nat} {r : Req} {taken : Option Nat} {bad : Option OffFind} (h : (takeReq typ r taken bad d).Poised) :
    d.Poised := by
  unfold takeReq at h
  dsimp only at h
  by_cases hwaits : d.flowWaits r = true
  · rw [if_pos hwaits] at h
    exact h.of_sight (sight_holdReq _ _ _ _)
  · rw [if_neg hwaits] at h
    cases taken with
    | none => exact poised_of_serve (poised_of_answered h)
    | some wi => exact poised_of_accessAct (poised_of_answered h)

theorem poised_of_retry {p : Nat} (h : (retry d p).Poised) : d.Poised := by
  unfold retry at h
  dsimp only at h
  split at h
  · exact h
  · exact (poised_of_foldl h fun _ _ => poised_of_takeReq).of_sight sight_modPart

/-- What goes on once it serves makes no device poised, after the links have gone on. -/
theorem poised_of_retryAll {d : Device} (h : (retryAll d).Poised) : (resumeLinks d).Poised := by
  refine poised_of_foldl h fun d p h => ?_
  have h := poised_of_foldl (poised_of_retry h) fun _ _ => poised_of_landAll
  exact (poised_of_commitReady (poised_of_takeSums h)).of_sight (sight_landParked p)

end

section
variable {d : Device}

/-- The exit that an access's wake starts is no sleep, and its code not that of an update's. -/
theorem not_poised_startExit : ¬ (startExit d purlDom 4).Poised := by
  intro h
  have hsleep := h.asleep
  unfold startExit at hsleep
  dsimp only at hsleep
  have hok : ∀ f : Nat → Fld, f ∈ [fDom, fDomStep, fDomReady, fTarget, fLastWake] → (f purlDom).ok := by
    simp [Fld.ok, fDom, fDomStep, fDomReady, fTarget, fLastWake]
  have hkeep (e : Device) (f : Nat → Fld) (v : Nat) (hf : f ∈ [fDomStep, fDomReady, fTarget, fLastWake]) :
      (e.wr (f purlDom) v).rd (fDom purlDom) = e.rd (fDom purlDom) :=
    rd_wr_apart _ _ _ _ (hok _ (by simp_all)) (hok _ (by simp)) (by
      simp only [List.mem_cons, List.not_mem_nil, or_false] at hf
      rcases hf with rfl | rfl | rfl | rfl <;> simp [Fld.apart, fDom, fDomStep, fDomReady, fTarget, fLastWake])
  rw [if_neg (by simp [purlDom, purlStack]), if_neg (by simp [purlDom, purlStack]), rd_wr_same _ _ _ (hok _ (by simp)), hkeep _ fLastWake _ (by simp),
    hkeep _ fTarget _ (by simp), hkeep _ fDomReady _ (by simp), hkeep _ fDomStep _ (by simp), rd_wr_same _ _ _ (hok _ (by simp))] at hsleep
  revert hsleep
  decide

/-- Handle 5 stands on that stack alone. -/
theorem stacksOf_purl (hd : d.Poised) : (d.part 0).stacksOf 5 = [purlStack] := by
  simp [Part.stacksOf, Part.entry, hd.handles, tget, purlHandle]

/-- Handle 5 serves nothing while the stack's domain is not ON. -/
theorem reachAll_purl (hd : d.Poised) (hasleep : d.rd (fDom purlDom) ≠ 0) : d.reachAll 0 [5] = false := by
  have hoff : d.domOn (32 + purlStack) = false := decide_eq_false hasleep
  simp [Device.reachAll, Device.reach, stacksOf_purl hd, hoff]

/-- A wake for an access to handle 5 starts the exit of the stack's domain. -/
theorem wakeAll_purl (hd : d.Poised) (hasleep : d.rd (fDom purlDom) = 1 ∨ d.rd (fDom purlDom) = 2) :
    wakeAll d 0 [5] 4 = startExit d purlDom 4 := by
  have hwake : wakeAll d 0 [5] 4 = wakeDom d purlDom 4 := by
    simp only [wakeAll, Device.wakeFor, List.foldl_cons, List.foldl_nil, stacksOf_purl hd, purlDom]
  rw [hwake, wakeDom, if_neg (by simp [purlDom, purlStack]), wakeOne, if_neg, if_neg]
  · omega
  · have hnot : d.rd (fDom purlDom) ≠ 0 := by omega
    simp [hd.aon, hd.cool, hnot]

/-- A link that waits wakes the stack for an access, so that its domain no more sleeps and was not woken by an update. -/
theorem not_poised_of_pending {k : Link} (hd : d.Poised) (hlink : (d.part 0).link k.lt k.op = some k) (hk : k.pending)
    (hwake : d.rd (fLastWake purlDom) ≠ 6) : ¬ (resumeLink 0 k.lt k.op d).Poised := by
  intro h
  obtain ⟨hdeliv, hvoid, hmode, hfinal, hlen, had, has⟩ := hk
  have hasleep := hd.asleep.resolve_right hwake
  have hreach := reachAll_purl hd (by omega)
  have hsegs : k.segNums = [] := by
    unfold Link.segNums segCount segMax cdiv
    rw [hlen]
    split <;> rfl
  have hstay : d.readable 0 [(locOf k.as).h] = false := by simp [Device.readable, has, hreach]
  have hdeliver : deliver d 0 k = startExit d purlDom 4 := by
    simp [deliver, hdeliv, hsegs, hmode, hvoid, had, hreach, wakeAll_purl hd hasleep]
  simp only [resumeLink, hlink, hstay, hfinal, hdeliv, hdeliver, Bool.not_false, Bool.or_true, Bool.true_or, if_true, decide_true, Bool.and_true] at h
  exact not_poised_startExit (poised_of_resettleVoid h)
end

/-- What goes on finds the stack woken last by an update, where it leaves a device poised. -/
theorem lastWake_of_retryAll {d : Device} (h : (retryAll d).Poised) : d.rd (fLastWake purlDom) = 6 := by
  by_contra hwake
  have hlinks := poised_of_retryAll h
  have hd := poised_of_resumeLinks hlinks
  obtain ⟨k, hk, hpend⟩ := hd.link
  have hlink : (d.part 0).link k.lt k.op = some k := by simp [Part.link, hk]
  refine not_poised_of_pending hd hlink hpend hwake ?_
  unfold resumeLinks at hlinks
  rw [show List.range 8 = 0 :: [1, 2, 3, 4, 5, 6, 7] from rfl, List.foldl_cons, hk] at hlinks
  exact poised_of_foldl hlinks fun _ _ h => poised_of_foldl h fun _ _ => poised_of_resumeLink

end Sys2Proof.Machine
end

section
/-! PROOF. What settles O25. -/
namespace Sys2Proof.Machine

/-- A relay link of logical tile 0 that waits to deliver at handle 5. -/
def purlLink : Link :=
  { lt := 0, op := 0, cf := none, fan := false, relay := true, cable := 0, step := 0, fmt := 0, mode := 0, s1 := 0, links := 2, this := 1,
    ag := 0, gid := 0, pfmt := 0, bsz := 0, trailers := false, destDev := 0, npass := 0, mbLo := 0, mbN := 0, pstride := 0,
    as := BitVec.ofNat 64 (5 * 2 ^ 32), ad := BitVec.ofNat 64 (5 * 2 ^ 32), table := [], epoch := 0, bias := 0, void := false, zero := false,
    gauge := false, halt := false, mbNext := 0, got := [], done := [], vals := [], nodes := [], stall := [], ready := false, sent := false,
    delivered := false, fin := false }

/-- An update of shard 8 at its only block. -/
def purlUpd : ShardUpd :=
  { desc := { rule := 3, gated := false, flags := 0, gfmt := 0, shard := 8, cable := 0, inst := 0, gH := 8, gOff := 0, lr := 0, b1 := 0, b2 := 0,
              eps := 0, wd := 0, clip := 0, gscale := 0, landed := false, void := false, got := [] },
    step := 1, norm := 0, block := 0, eng := 0, seed := 0, compat := false }

/-- The block, staged. -/
def purlStaged : Staged := { part := 0, shard := 8, step := 1, block := 0, writes := [], nonfin := 0, overflow := false }

/-- A device whose partition 0 is to write the last block of step 1, with a RES_SEL of handle 5 to flip as the step commits: D.AON is ON, the
domain of the handle's stack is asleep. -/
def purlDevice : Device :=
  { Device.reset with
    regs := [((fDom 79).addr, 0), ((fDom purlDom).addr, 1)],
    parts := [(0, { Part.reset with
      updates := [purlUpd], uncommitted := [(1, 0)], resFlips := [(1, 5)], handles := [(5, some purlHandle)], links := [purlLink] })],
    stks := [(0, { (Device.reset.stack 0) with staged := [purlStaged] })] }

/-- The device once the block is written and everything that waits has gone on. -/
def purlEnd : Device := retryAll (ledgerBlock 0 8 .good purlDevice)

/-- Every hypothesis of O25 holds of the device, and the block is the last one. -/
theorem purlDevice_ready : purlDevice.leased 0 purlUpd = false ∧ purlDevice.engineBusy 0 purlUpd = false ∧
    purlDevice.reachAll 0 [8, purlUpd.desc.gH] = true ∧ purlDevice.stagedOf 0 purlUpd = some purlStaged ∧
    purlUpd.block + 1 = blockCount purlUpd.desc (hdrElems (purlDevice.shardHdr 0 8)) := by decide +kernel

/-- The commit waits for the stack and has woken it for an update. -/
theorem purlEnd_awake : purlEnd.rd (fLastWake purlDom) = 6 := by decide +kernel

theorem purlEnd_poised : purlEnd.Poised where
  quiet := by decide +kernel
  noFlow := by decide +kernel
  cool := by decide +kernel
  aon := by decide +kernel
  handles := by decide +kernel
  link := ⟨purlLink, by decide +kernel, by unfold Link.pending; decide⟩
  asleep := .inr purlEnd_awake

theorem exec_ledgerBlockWrite (p : Fin 8) (shard : BitVec 32) (found : BlockFind) (s : State) :
    exec (.ledgerBlockWrite p shard found) s = .next (s.withDev (retryAll (ledgerBlock p shard.toNat found s.dev))) := rfl

/-- UPD_BLOCKS of stack 0 and LAST_WAKE of the other stack's domain are bits of one register. -/
theorem lastWake_of_updBlocks {d : Device} (h : d.rd (fUpdBlocks 0) = 1) : d.rd (fLastWake purlDom) = 0 := by
  have hreg : bits (d.reg 0x300018).toNat 63 32 = 1 := h
  show bits (d.reg 0x300018).toNat 55 48 = 0
  unfold bits at hreg ⊢
  omega

/-- Refutes O25: the registers PWR_DOM reach over STK_PURL (the model bounds no stack number, and a handle may stand on stack 0x5BFC3). The
step commits with the block and wakes that stack for its flip, so that LAST_WAKE, 6, stands in UPD_BLOCKS of stack 0. No other device goes on
to the same one with UPD_BLOCKS 1: a link that waits for the stack would wake it first, for an access. -/
theorem not_ledgerBlockAdvances : ¬ Obligations.LedgerBlockAdvances := by
  unfold Obligations.LedgerBlockAdvances
  intro h
  obtain ⟨hleased, hbusy, hreach, hstaged, hlast⟩ := purlDevice_ready
  obtain ⟨d, hexec, -, -, hblocks, -⟩ := (h 0 8 { State.reset with dev := purlDevice } purlUpd purlStaged (by decide +kernel) rfl hleased
    hbusy hreach hstaged (by decide)).2 hlast
  rw [exec_ledgerBlockWrite] at hexec
  have hend : purlEnd = retryAll d := dev_of_next hexec
  have hwake := lastWake_of_retryAll (hend ▸ purlEnd_poised)
  have hcount : d.rd (fUpdBlocks 0) = 1 := hblocks.trans (by decide +kernel)
  rw [lastWake_of_updBlocks hcount] at hwake
  exact absurd hwake (by decide)

end Sys2Proof.Machine
end

section
/-! PROOF. Slot grants: the slot that FREE or FIXED chooses, and what a grant counts, records and posts (R235 to R237). -/
namespace Sys2Proof.Machine

-- The choice of a slot (R237).

/-- The first slot of `pool` in cyclic order from `start`: no slot of the pool comes before it. -/
theorem find?_cyclic {n start j : Nat} {pool : List Nat} (hn : 0 < n)
    (h : ((List.range n).map (fun i => (start + i) % n)).find? (fun i => pool.contains i) = some j) :
    j ∈ pool ∧ j < n ∧ ∀ i, (start + i) % n = j → ∀ k, k < i → i < n → (start + k) % n ∉ pool := by
  rw [List.find?_map, Option.map_eq_some_iff] at h
  obtain ⟨m, hm, rfl⟩ := h
  obtain ⟨hin, hmem, hbefore⟩ := List.find?_range_eq_some.mp hm
  refine ⟨List.contains_iff_mem.mp hin, Nat.mod_lt _ hn, fun i hi k hki hlt hk => ?_⟩
  have him : i = m := Nat.ModEq.eq_of_lt_of_lt (Nat.ModEq.add_left_cancel' start hi) hlt (List.mem_range.mp hmem)
  have hnot : (!pool.contains ((start + k) % n)) = true := hbefore k (him ▸ hki)
  rw [List.contains_iff_mem.mpr hk] at hnot
  exact absurd hnot Bool.false_ne_true

section
variable {d : Device} {p j : Nat}

theorem chooseSlot_free (h : (d.part p).order = 1) : d.chooseSlot p = (d.part p).pool.find? (d.slotReady p) := by
  simp only [Device.chooseSlot, h, if_true]

/-- An order other than FREE chooses the first slot of the pool in cyclic order, and no slot before that one is ready. -/
theorem chooseSlot_fixed (h : (d.part p).order ≠ 1) (hj : d.chooseSlot p = some j) :
    (cyclicAfter (d.part p).slots (d.part p).lastGrant).find? (fun i => (d.part p).pool.contains i) = some j ∧ d.slotReady p j = true := by
  simp only [Device.chooseSlot, h, if_false] at hj
  split at hj
  · cases hj
  · rename_i k hk
    split at hj
    · rename_i hr
      cases hj
      exact ⟨hk, hr⟩
    · cases hj

end

-- What a grant does (R236).

/-- A counter field that goes up where `c` holds. -/
def Device.incIf (d : Device) (c : Bool) (f : Fld) : Device := if c then d.inc f else d

section
variable (d : Device) (c : Bool) (f : Fld)

@[simp] theorem part_incIf (p : Nat) : (d.incIf c f).part p = d.part p := by cases c <;> rfl
@[simp] theorem mem_incIf : (d.incIf c f).mem = d.mem := by cases c <;> rfl
@[simp] theorem lts_incIf : (d.incIf c f).lts = d.lts := by cases c <;> rfl

theorem rd_incIf_apart {g : Fld} (hf : f.ok) (hg : g.ok) (h : f.apart g) : (d.incIf c f).rd g = d.rd g := by
  cases c
  · rfl
  · exact rd_inc_apart d f g 1 hf hg h

end

theorem ok_grants (p : Nat) : (fGrants p).ok := by simp [Fld.ok, fGrants]
theorem ok_lastSlot (p : Nat) : (fLastSlot p).ok := by simp [Fld.ok, fLastSlot]
theorem ok_pool (p : Nat) : (fPool p).ok := by simp [Fld.ok, fPool]
theorem ok_multi (p : Nat) : (fMulti p).ok := by simp [Fld.ok, fMulti]
theorem ok_stalled (p : Nat) : (fStalled p).ok := by simp [Fld.ok, fStalled]

/-- The registers of a grant: MULTI where several slots were ready, STALLED where it had to wait, GRANTS and LAST. -/
def countGrant (p slot : Nat) (d : Device) : Device :=
  (((d.incIf (decide (2 ≤ ((d.part p).pool.filter (d.slotReady p)).length)) (fMulti p)).incIf (d.part p).stalled (fStalled p)).inc
    (fGrants p)).wr (fLastSlot p) slot

section
variable (p slot : Nat) (d : Device)

@[simp] theorem part_countGrant (q : Nat) : (countGrant p slot d).part q = d.part q := by simp [countGrant]
@[simp] theorem mem_countGrant : (countGrant p slot d).mem = d.mem := by simp [countGrant]
@[simp] theorem lts_countGrant : (countGrant p slot d).lts = d.lts := by simp [countGrant]

theorem rd_countGrant_grants : (countGrant p slot d).rd (fGrants p) = min (d.rd (fGrants p) + 1) (2 ^ 32 - 1) := by
  have hlast : (fLastSlot p).apart (fGrants p) := .inr (.inl (by simp [fLastSlot, fGrants]))
  have hstall : (fStalled p).apart (fGrants p) := .inl (by simp [fStalled, fGrants])
  have hmulti : (fMulti p).apart (fGrants p) := .inl (by simp [fMulti, fGrants])
  rw [countGrant, rd_wr_apart _ _ _ _ (ok_lastSlot p) (ok_grants p) hlast, rd_inc _ _ _ (ok_grants p),
    rd_incIf_apart _ _ _ (ok_stalled p) (ok_grants p) hstall, rd_incIf_apart _ _ _ (ok_multi p) (ok_grants p) hmulti]
  rfl

theorem rd_countGrant_lastSlot {slot : Nat} (h : slot < 2 ^ 8) : (countGrant p slot d).rd (fLastSlot p) = slot := by
  rw [countGrant, rd_wr_same _ _ _ (ok_lastSlot p)]
  exact Nat.mod_eq_of_lt h

end

/-- The partition as a grant of `j` leaves it: `j` is the last grant, and what YIELD(j) held on every logical tile is recorded (R235, R236). -/
def Part.granted (j : Nat) (took : List (Nat × Nat)) (P : Part) : Part :=
  { P with lastGrant := some j, yieldAt := took.foldl (fun t x => tput x.1 x.2 t) P.yieldAt }

/-- YIELD(j) of every logical tile, under its key in the partition's record. -/
def Device.yields (d : Device) (p j : Nat) : List (Nat × Nat) :=
  (List.range (d.part p).ltCount).map (fun l => (32 * j + l, d.ctrOf p l ((d.part p).yieldCtr j)))

/-- A granted slot, before anything is posted: the registers and the partition are written, and the slot has left the pool. -/
def takeSlot (p j : Nat) (d : Device) : Device :=
  setPool (((countGrant p j d).modPart p (fun P => { P with stalled := false })).modPart p (Part.granted j (d.yields p j))) p
    ((d.part p).pool.filter (· ≠ j))

section
variable (p j : Nat) (d : Device)

theorem rd_setPool {g : Fld} (js : List Nat) (hg : g.ok) (h : (fPool p).apart g) : (setPool d p js).rd g = d.rd g := by
  rw [setPool, rd_wr_apart _ _ _ _ (ok_pool p) hg h, rd_modPart]

@[simp] theorem mem_setPool (js : List Nat) : (setPool d p js).mem = d.mem := rfl
@[simp] theorem lts_setPool (js : List Nat) : (setPool d p js).lts = d.lts := rfl
@[simp] theorem part_setPool_same (js : List Nat) : (setPool d p js).part p = { d.part p with pool := js } := by simp [setPool]

theorem rd_takeSlot_grants : (takeSlot p j d).rd (fGrants p) = min (d.rd (fGrants p) + 1) (2 ^ 32 - 1) := by
  rw [takeSlot, rd_setPool _ _ _ (ok_grants p) (.inr (.inl (by simp [fPool, fGrants]))), rd_modPart, rd_modPart, rd_countGrant_grants]

theorem rd_takeSlot_lastSlot {j : Nat} (h : j < 2 ^ 8) : (takeSlot p j d).rd (fLastSlot p) = j := by
  rw [takeSlot, rd_setPool _ _ _ (ok_lastSlot p) (.inr (.inr (by simp [fPool, fLastSlot]))), rd_modPart, rd_modPart, rd_countGrant_lastSlot _ _ h]

theorem lastGrant_takeSlot : ((takeSlot p j d).part p).lastGrant = some j := by simp [takeSlot, Part.granted]
theorem pool_takeSlot : ((takeSlot p j d).part p).pool = (d.part p).pool.filter (· ≠ j) := by simp [takeSlot]
theorem mem_takeSlot : (takeSlot p j d).mem = d.mem := by
  rw [takeSlot, mem_setPool, modPart_mem, modPart_mem, mem_countGrant]
theorem lts_takeSlot : (takeSlot p j d).lts = d.lts := by
  rw [takeSlot, lts_setPool, modPart_lts, modPart_lts, lts_countGrant]

end

/-- A grant of a slot, NONE apart, takes it and then posts SEL and GNT to every logical tile. -/
theorem grantSlot_of_ne_none {p j : Nat} (d : Device) (h : j ≠ 16) :
    grantSlot p j d = (List.range (d.part p).ltCount).foldl (fun d' l => post d' [] p l ((d.part p).cbase + 1) 1)
      ((List.range (d.part p).ltCount).foldl (fun d' l => post d' [] p l ((d.part p).cbase + 2) (j + 1)) (takeSlot p j d)) := by
  simp only [grantSlot, if_neg h, takeSlot, countGrant, Device.incIf, decide_eq_true_eq, Device.yields]
  rfl

theorem slotGrant_of_chosen {p j : Nat} {d : Device} (horder : (d.part p).order ≠ 0) (hrun : (d.part p).isRunning = true)
    (hstop : (d.part p).stopping = false) (hseam : (d.part p).seam = .none) (hask : d.allAsk p = true) (hpool : (d.part p).pool ≠ [])
    (hj : d.chooseSlot p = some j) : slotGrant p d = grantSlot p j d := by
  simp [slotGrant, horder, hrun, hstop, hseam, hask, hpool, hj]

theorem exec_slotGrant (p : Fin 8) (s : State) : exec (.slotGrant p) s = .next (s.withDev (slotGrant p s.dev)) := rfl

/-- Settles O27: FREE takes the first ready slot of the pool, FIXED the first of the pool in cyclic order, and a grant of either takes the slot
before it posts. -/
theorem slotGrants : Obligations.SlotGrants := by
  unfold Obligations.SlotGrants
  refine ⟨fun d p j => ⟨fun hfree hj => ?_, fun hfree => ?_, fun hfixed hslots hj => ?_⟩,
    fun p s j horder hrun hstop hseam hask hpool hj hlt => ?_⟩
  · rw [chooseSlot_free hfree, List.find?_eq_some_iff_append] at hj
    obtain ⟨hready, pre, suf, hsplit, hpre⟩ := hj
    exact ⟨pre, suf, hsplit, hready, by simpa using hpre⟩
  · simp [chooseSlot_free hfree]
  · obtain ⟨hfind, hready⟩ := chooseSlot_fixed (by omega) hj
    obtain ⟨hin, hlt, hfirst⟩ := find?_cyclic hslots hfind
    exact ⟨hready, hin, hlt, hfirst⟩
  · refine ⟨takeSlot p j s.dev, ?_, rd_takeSlot_grants p j s.dev, rd_takeSlot_lastSlot p s.dev (by omega), lastGrant_takeSlot p j s.dev,
      pool_takeSlot p j s.dev, mem_takeSlot p j s.dev, lts_takeSlot p j s.dev⟩
    rw [exec_slotGrant, slotGrant_of_chosen horder hrun hstop hseam hask hpool hj, grantSlot_of_ne_none _ (by omega)]

end Sys2Proof.Machine
end

section
/-! SUPPORT. The state of a channel and the registers that follow it (R257, R266, R279). -/
namespace Sys2Proof.Machine

theorem reg_wr_other {d : Device} {f : Fld} {a : Nat} (h : f.addr ≠ a) (v : Nat) : (d.wr f v).reg a = d.reg a :=
  reg_setReg_other d _ h.symm

theorem rd_of_reg {d e : Device} {f : Fld} (h : e.reg f.addr = d.reg f.addr) : e.rd f = d.rd f := by unfold Device.rd; rw [h]

theorem wr_repairs (d : Device) (f : Fld) (v : Nat) : (d.wr f v).repairs = d.repairs := rfl

theorem stackPart_lt {d : Device} {x p : Nat} (h : d.stackPart x = some p) : p < 8 := by
  unfold Device.stackPart Device.partOf at h
  rw [if_neg (by omega)] at h
  split at h
  · exact Option.some.inj h ▸ rd_lt d (fSPart _)
  · cases h

/-- The registers of the tiles and of what stands behind them are none of those that MEM_PART and MEM_ROWS are. -/
theorem reg_refreshMem {d : Device} {p a : Nat} (hp : p < 8) (ha : 0x100000 ≤ a) : (refreshMem d p).reg a = d.reg a := by
  have hpart : (fSpreadN p).addr ≠ a ∧ (fSpreadRows p).addr ≠ a := by simp only [fSpreadN, fSpreadRows]; omega
  unfold refreshMem
  dsimp only
  rw [reg_wr_other (f := fFreeMib p) hpart.2, reg_wr_other hpart.2, reg_wr_other (f := fListed p) hpart.1, reg_wr_other hpart.1]

theorem reg_refreshStack (d : Device) (x : Nat) {a : Nat} (ha : 0x100000 ≤ a) : (refreshStack d x).reg a = d.reg a := by
  unfold refreshStack
  split
  · rfl
  · exact reg_refreshMem (stackPart_lt ‹_›) ha

@[simp] theorem stack_refreshStack (d : Device) (x y : Nat) : (refreshStack d x).stack y = d.stack y := by
  unfold refreshStack; split <;> rfl
@[simp] theorem repairs_refreshStack (d : Device) (x : Nat) : (refreshStack d x).repairs = d.repairs := by
  unfold refreshStack; split <;> rfl

section
variable (d : Device) (x c st : Nat)

@[simp] theorem stack_setCh (y : Nat) : (setCh d x c st).stack y = d.stack y := by
  unfold setCh; dsimp only; rw [stack_refreshStack, stack_wr, stack_wr, stack_wr]
@[simp] theorem repairs_setCh : (setCh d x c st).repairs = d.repairs := by
  unfold setCh; dsimp only; rw [repairs_refreshStack, wr_repairs, wr_repairs, wr_repairs]

/-- Outside STK_STAT and the registers of partitions a channel's new state shows in STK_CH_STAT alone. -/
theorem reg_setCh {a : Nat} (ha : 0x100000 ≤ a) (hstat : stkReg x 0 ≠ a) : (setCh d x c st).reg a = (d.wr (fCh x c) st).reg a := by
  unfold setCh
  dsimp only
  rw [reg_refreshStack _ _ ha, reg_wr_other (f := fChRetiring x) hstat, reg_wr_other (f := fChFailed x) hstat]

theorem rd_setCh_other {g : Fld} (ha : 0x100000 ≤ g.addr) (hstat : stkReg x 0 ≠ g.addr) (hch : stkReg x 0x100 ≠ g.addr) :
    (setCh d x c st).rd g = d.rd g :=
  rd_of_reg ((reg_setCh d x c st ha hstat).trans (reg_wr_other hch _))

variable {c st}

theorem ch_wr_fCh (hc : c < 32) (hst : st < 4) : (d.wr (fCh x c) st).ch x c = st := by
  have hok : (fCh x c).ok := by simp only [Fld.ok, fCh]; omega
  have hwidth : (fCh x c).hi - (fCh x c).lo + 1 = 2 := by simp only [fCh]; omega
  rw [Device.ch, rd_wr_same d _ st hok, hwidth, Nat.mod_eq_of_lt (show st < 2 ^ 2 from hst)]

theorem ch_setCh (hc : c < 32) (hst : st < 4) : (setCh d x c st).ch x c = st :=
  (rd_of_reg (reg_setCh d x c st (by simp only [fCh, stkReg]; omega) (by simp only [fCh, stkReg]; omega))).trans (ch_wr_fCh d x hc hst)

end

/-- A refuser's condition shows in no register. -/
@[simp] theorem rd_refuseDom (d : Device) (n r : Nat) (g : Fld) : (refuseDom d n r).rd g = d.rd g := by
  unfold refuseDom; split <;> rfl
@[simp] theorem staged_refuseDom (d : Device) (n r : Nat) : (refuseDom d n r).staged = d.staged := by
  unfold refuseDom; split <;> rfl
@[simp] theorem checks_refuseDom (d : Device) (n r : Nat) : (refuseDom d n r).checks = d.checks := by
  unfold refuseDom; split <;> rfl

end Sys2Proof.Machine
end

section
/-! SUPPORT. What leaves alone the repair list, the row copy of a stack and the states of its channels: errors, faults, tearing and losing data,
and the settling of save areas (R43, R53 to R56, R220, R267, R368). -/
namespace Sys2Proof.Machine

/-- The repair list, and the row copy under way in stack `x`. -/
def Device.repairWork (x : Nat) (d : Device) : List Repair × Option (Nat × Nat) := (d.repairs, (d.stack x).repair)

/-- These, and the states of the stack's channels (STK_CH_STAT). -/
def Device.upkeep (x : Nat) (d : Device) : (List Repair × Option (Nat × Nat)) × Word := (d.repairWork x, d.reg (stkReg x 0x100))

theorem repairWork_wr (x : Nat) (d : Device) (f : Fld) (v : Nat) : (d.wr f v).repairWork x = d.repairWork x := rfl

theorem repairWork_of_upkeep {d e : Device} {x : Nat} (h : e.upkeep x = d.upkeep x) : e.repairWork x = d.repairWork x := congrArg Prod.fst h
theorem ch_of_upkeep {d e : Device} {x : Nat} (h : e.upkeep x = d.upkeep x) (c : Nat) : e.ch x c = d.ch x c :=
  rd_of_reg (f := fCh x c) (congrArg Prod.snd h)

/-- A register other than STK_CH_STAT of stack `x`. -/
def Fld.spares (x : Nat) (f : Fld) : Prop := f.addr ≠ stkReg x 0x100

theorem spares_below (x : Nat) {f : Fld} (h : f.addr < 0x300000) : f.spares x := by simp only [Fld.spares, stkReg]; omega
theorem spares_above {x : Nat} (hx : x < 32) {f : Fld} (h : 0x500000 ≤ f.addr) : f.spares x := by simp only [Fld.spares, stkReg]; omega
/-- Another register of the STK block of some stack. -/
theorem spares_stk (x : Nat) {f : Fld} {y off : Nat} (h : f.addr = stkReg y off) (hoff : off < 0x10000) (hne : off ≠ 0x100) : f.spares x := by
  simp only [Fld.spares, h, stkReg]; omega

/-- A fold of operations that keep a projection, each for the members of the list. -/
theorem foldl_keeps_of_mem {α β γ : Type} (π : α → γ) {f : α → β → α} {l : List β} (h : ∀ b ∈ l, ∀ a, π (f a b) = π a) (a : α) :
    π (l.foldl f a) = π a := by
  induction l generalizing a with
  | nil => rfl
  | cons b l ih => rw [List.foldl_cons, ih fun c hc => h c (List.mem_cons_of_mem b hc), h b List.mem_cons_self]

theorem unitsOf_lt {m t : Nat} (h : t ∈ unitsOf m) : t < 32 := by
  simp only [unitsOf, colsOf, List.mem_flatMap, List.mem_map, List.mem_filter, List.mem_range] at h
  obtain ⟨c, ⟨hc, -⟩, k, hk, rfl⟩ := h
  omega

theorem usableTiles_lt {d : Device} {p t : Nat} (h : t ∈ d.usableTiles p) : t < 32 := unitsOf_lt (List.mem_of_mem_filter h)

section
variable (x : Nat) (d : Device)

-- The state's own updates.

theorem upkeep_wr {f : Fld} (h : f.spares x) (v : Nat) : (d.wr f v).upkeep x = d.upkeep x :=
  congrArg (d.repairWork x, ·) (reg_wr_other h v)
theorem upkeep_inc {f : Fld} (h : f.spares x) (n : Nat := 1) : (d.inc f n).upkeep x = d.upkeep x := upkeep_wr x d h _
@[simp] theorem upkeep_setPart (p : Nat) (P : Part) : (d.setPart p P).upkeep x = d.upkeep x := rfl
@[simp] theorem upkeep_modPart (p : Nat) (f : Part → Part) : (d.modPart p f).upkeep x = d.upkeep x := rfl
@[simp] theorem upkeep_modTile (t : Nat) (f : PTile → PTile) : (d.modTile t f).upkeep x = d.upkeep x := rfl
@[simp] theorem upkeep_modDom (n : Nat) (f : Dom → Dom) : (d.modDom n f).upkeep x = d.upkeep x := rfl
@[simp] theorem upkeep_modPort (n : Nat) (f : Port → Port) : (d.modPort n f).upkeep x = d.upkeep x := rfl
theorem upkeep_modStack (y : Nat) {f : Stack → Stack} (h : ∀ s, (f s).repair = s.repair) : (d.modStack y f).upkeep x = d.upkeep x := by
  have hstack : ((d.modStack y f).stack x).repair = (d.stack x).repair := by
    by_cases hy : x = y
    · subst hy; rw [stack_modStack_same, h]
    · exact congrArg Stack.repair (tget_tput_other _ _ _ hy)
  simp only [Device.upkeep, Device.repairWork, hstack, reg_modStack]
  rfl
@[simp] theorem upkeep_hdrWrite (p h off n v : Nat) : (hdrWrite d p h off n v).upkeep x = d.upkeep x := by
  unfold hdrWrite Device.hStore; dsimp only; split <;> rfl

-- Wakes and faults.

theorem upkeep_startExit {n : Nat} (hn : n < 80) (code : Nat) : (startExit d n code).upkeep x = d.upkeep x := by
  have hdom {f : Fld} (hf : f.addr = 0x20100 + 8 * n) : f.spares x := spares_below x (by omega)
  have hport {f : Fld} (hf : f.addr = 0x80400 + 8 * (n - 64)) : f.spares x := spares_below x (by omega)
  have htrain : (fTrain (n - 32)).spares x := spares_stk x rfl (by decide) (by decide)
  have hexit : ((((((d.modDom n (fun y => { y with wake := none, refuse := none })).wr (fDom n) 3).wr (fDomStep n) 6).wr (fDomReady n) 0).wr
      (fTarget n) 0).wr (fLastWake n) code).upkeep x = d.upkeep x := by
    rw [upkeep_wr x _ (hdom (f := fLastWake n) rfl), upkeep_wr x _ (hdom (f := fTarget n) rfl), upkeep_wr x _ (hdom (f := fDomReady n) rfl),
      upkeep_wr x _ (hdom (f := fDomStep n) rfl), upkeep_wr x _ (hdom (f := fDom n) rfl), upkeep_modDom]
  unfold startExit
  dsimp only
  split
  · rw [upkeep_modPort, apply_ite (Device.upkeep x), upkeep_wr x _ (hport (f := fLink (n - 64)) rfl),
      upkeep_wr x _ (hport (f := fWakeSrc (n - 64)) rfl), hexit, ite_self]
  · rw [apply_ite (Device.upkeep x), upkeep_wr x _ htrain, hexit, ite_self]

theorem upkeep_wakeOne {n : Nat} (hn : n < 80) (code : Nat) : (wakeOne d n code).upkeep x = d.upkeep x := by
  unfold wakeOne
  simp only [apply_ite (Device.upkeep x), upkeep_modDom, upkeep_startExit x d hn, ite_self]

theorem upkeep_wakeDom {n : Nat} (hn : n < 80) (code : Nat) : (wakeDom d n code).upkeep x = d.upkeep x := by
  have hfabric : ((List.range 4).foldl (fun d k => wakeOne d (74 + k) 11) d).upkeep x = d.upkeep x :=
    foldl_keeps_of_mem (Device.upkeep x) (fun k hk d => upkeep_wakeOne x d (by rw [List.mem_range] at hk; omega) 11) d
  unfold wakeDom
  dsimp only
  rw [upkeep_wakeOne x _ hn, apply_ite (Device.upkeep x), hfabric, ite_self]

theorem upkeep_recordFault (p : Nat) (c : Cause) : (recordFault d p c).upkeep x = d.upkeep x := by
  have hwake (e : Device) : (wakeTiles e p 3).upkeep x = e.upkeep x :=
    foldl_keeps_of_mem (Device.upkeep x) (fun t ht e => upkeep_wakeDom x e (by have := usableTiles_lt ht; omega) 3) e
  unfold recordFault
  dsimp only
  split
  · rfl
  · rw [apply_ite (Device.upkeep x), hwake, upkeep_setPart, upkeep_setPart, ite_self]

-- Messages, and the work items that end.

/-- Sending writes no register of a stack. -/
theorem upkeep_sendKeeps : SendKeeps (Device.upkeep x) where
  emit _ _ := rfl
  flow _ _ _ := rfl
  port _ _ _ := rfl
  counter _ _ _ _ := rfl
  waiting _ _ _ := rfl
  sent d p n := upkeep_inc x d (by simp only [Fld.spares, fSwSent, stkReg]; omega) n
  drawn _ _ := rfl

theorem upkeep_endItem (p : Nat) (w : WorkItem) : (endItem d p w).upkeep x = d.upkeep x := by
  unfold endItem sendWiStatus
  rw [apply_ite (Device.upkeep x), (upkeep_sendKeeps x).sendHost, ite_self, upkeep_modPart]

theorem upkeep_flushQueued (p : Nat) : (flushQueued d p).upkeep x = d.upkeep x :=
  foldl_keeps (Device.upkeep x) _ (fun d _ => upkeep_endItem x d p _) _ _

theorem upkeep_releaseFinal (p : Nat) : (releaseFinal d p).upkeep x = d.upkeep x :=
  foldl_keeps (Device.upkeep x) _ (fun d w => upkeep_endItem x d p w) _ _

end

-- Data torn and lost.

section
variable {x : Nat} (hx : x < 32) (d : Device)

theorem upkeep_dropStaged (p h : Nat) : (dropStaged d p h).upkeep x = d.upkeep x := by
  have hset (d : Device) (y : Nat) (bs : List Staged) : (setStaged d y bs).upkeep x = d.upkeep x :=
    (upkeep_wr x _ (spares_stk x (f := fStaged y) rfl (by decide) (by decide)) _).trans
      (upkeep_modStack x d y (f := fun s => { s with staged := bs }) fun _ => rfl)
  refine foldl_keeps (Device.upkeep x) _ (fun d y => ?_) _ _
  rw [apply_ite (Device.upkeep x), hset, ite_self]

include hx

theorem upkeep_tearShard (p h : Nat) : (tearShard d p h).upkeep x = d.upkeep x := by
  have htorn (e : Device) : (e.inc fTorn).upkeep x = e.upkeep x := upkeep_inc x e (spares_above hx (by decide))
  have hpending (e : Device) : (setPending e p).upkeep x = e.upkeep x :=
    upkeep_wr x e (spares_above hx (by simp only [fPending]; omega)) _
  have hheader : ((hdrWrite (dropStaged d p h) p h 0x54 1 1).inc fTorn).upkeep x = d.upkeep x := by
    rw [htorn, upkeep_hdrWrite, upkeep_dropStaged]
  unfold tearShard
  dsimp only
  split
  · exact hheader
  · rw [upkeep_releaseFinal, apply_ite (Device.upkeep x), upkeep_flushQueued, ite_self, upkeep_recordFault, hpending, upkeep_modPart, hheader]

theorem upkeep_loseGranules (p h : Nat) (gs : List Nat) : (loseGranules p h gs d).upkeep x = d.upkeep x := by
  unfold loseGranules
  simp only [apply_ite (Device.upkeep x), upkeep_tearShard hx, upkeep_modPart, ite_self]

theorem upkeep_loseChan (p ch : Nat) : (loseChan d p ch).upkeep x = d.upkeep x :=
  foldl_keeps (Device.upkeep x) _ (fun d (e : Nat × HEntry) => upkeep_loseGranules hx d p e.1 (e.2.place.inChan ch)) _ _

theorem upkeep_loseSegs (p : Nat) (lost : ParkedSeg → Bool) : (loseSegs d p lost).upkeep x = d.upkeep x := by
  unfold loseSegs
  simp only [apply_ite (Device.upkeep x), upkeep_recordFault, upkeep_modPart, upkeep_tearShard hx, ite_self, foldl_keeps (Device.upkeep x), implies_true]

/-- An uncorrectable word poisons, tears and skips, and leaves the channels alone (R267). -/
theorem upkeep_poisonAt (y c frame : Nat) : (poisonAt d y c frame).upkeep x = d.upkeep x := by
  have hparked (p : Nat) : (loseParkedAt d p y c frame).upkeep x = d.upkeep x := by
    unfold loseParkedAt
    split
    · rfl
    · exact upkeep_loseSegs hx d p _
  unfold poisonAt
  split
  · rfl
  · split
    · exact hparked _
    · exact foldl_keeps (Device.upkeep x) _ (fun d (b : Staged) => upkeep_tearShard hx d b.part b.shard) _ _
    · rfl
    · refine foldl_keeps (Device.upkeep x) _ (fun d e => ?_) _ _
      dsimp only
      split
      · rfl
      · rw [apply_ite (Device.upkeep x), upkeep_tearShard hx, upkeep_modPart, ite_self]

-- Error records.

theorem upkeep_addRecord (r : ERec) : (addRecord d r).upkeep x = d.upkeep x := by
  have hras {f : Fld} (hf : 0x600000 ≤ f.addr) : f.spares x := spares_above hx (by omega)
  have hrefuse (e : Device) (n k : Nat) : (refuseDom e n k).upkeep x = e.upkeep x := by unfold refuseDom; split <;> rfl
  have hstaged (e : Device) : ({ e with staged := d.staged ++ [d.stamp r], seqNv := (d.stamp r).seq + 1, free := d.free + 1 } : Device).upkeep x =
      e.upkeep x := rfl
  unfold addRecord
  dsimp only
  simp only [apply_ite (Device.upkeep x), upkeep_inc x _ (hras (f := fCntCe) (by decide)), upkeep_inc x _ (hras (f := fCntUe) (by decide)),
    upkeep_inc x _ (hras (f := fCntFatal) (by decide)), upkeep_wr x _ (hras (f := fAlert) (by decide)), ite_self]
  split
  · rw [apply_ite (Device.upkeep x), hrefuse, ite_self, upkeep_wr x _ (hras (f := fNextSeq) (by decide)), hstaged]
  · rw [upkeep_wr x _ (hras (f := fNextSeq) (by decide)), hstaged]

theorem upkeep_verdictRec (r : ERec) (v a : Nat) : (verdictRec d r v a).upkeep x = d.upkeep x := upkeep_addRecord hx d _

theorem upkeep_errorCheck (r : ERec) : (errorCheck d r).upkeep x = d.upkeep x := by
  have hras {f : Fld} (hf : 0x600000 ≤ f.addr) : f.spares x := spares_above hx (by omega)
  have hchecks (e : Device) (cs : List Check) : (setChecks e cs).upkeep x = e.upkeep x := by
    rw [setChecks, upkeep_wr x _ (hras (f := fDropQueued) (by decide)), upkeep_wr x _ (hras (f := fDropRun) (by decide))]
    rfl
  unfold errorCheck requestCheck
  dsimp only
  split
  · exact upkeep_addRecord hx d _
  · rw [apply_ite (Device.upkeep x), upkeep_inc x _ (hras (f := fNotRun) (by decide)), upkeep_verdictRec hx, hchecks, ite_self,
      upkeep_addRecord hx]

/-- What the patrol or a row copy meets in a word, corrected or not, leaves the channels and the copy itself alone. -/
theorem upkeep_wordCe (c frame : Nat) : (wordCe d x c frame).upkeep x = d.upkeep x := by
  have hcount : (fChCe x c).spares x := by simp only [Fld.spares, fChCe, stkReg]; omega
  unfold wordCe
  rw [apply_ite (Device.upkeep x), upkeep_errorCheck hx, upkeep_inc x _ hcount]
  exact ite_self _

theorem upkeep_wordUe (c frame : Nat) : (wordUe d x c frame).upkeep x = d.upkeep x := by
  have hcount : (fChUe x c).spares x := by simp only [Fld.spares, fChUe, stkReg]; omega
  unfold wordUe
  rw [apply_ite (Device.upkeep x), upkeep_errorCheck hx, upkeep_poisonAt hx, upkeep_inc x _ hcount]
  exact ite_self _

end

-- Save areas, and the stack and channel that are lost.

section
variable (x : Nat) (d : Device)

theorem newHost_lt {p r t : Nat} (h : d.newHost p r = some t) : t < 32 := by
  refine List.foldlRecOn (motive := fun o => ∀ t, o = some t → t < 32) _ _ (by simp) (fun o ho u hu t ht => ?_) t h
  have hu := usableTiles_lt (List.mem_of_mem_filter hu)
  split at ht
  · exact Option.some.inj ht ▸ hu
  · split at ht
    · exact Option.some.inj ht ▸ hu
    · exact Option.some.inj ht ▸ ho _ rfl

theorem upkeep_placeReg {t : Nat} (ht : t < 32) : (placeReg d t).upkeep x = d.upkeep x := by
  have htile {f : Fld} (hf : f.addr = tileReg t 0x100) : f.spares x := spares_below x (by rw [hf, tileReg]; omega)
  rw [placeReg, upkeep_wr x _ (htile (f := fLtB t) rfl), upkeep_wr x _ (htile (f := fLtA t) rfl)]

theorem upkeep_takeArea (p t : Nat) : (takeArea d p t).upkeep x = d.upkeep x := by
  unfold takeArea
  simp only [apply_ite (Device.upkeep x), upkeep_modTile, ite_self]

theorem upkeep_rehost (p r l : Nat) : (rehost d p r l).upkeep x = d.upkeep x := by
  unfold rehost
  split
  · rfl
  · rw [upkeep_takeArea, addHost, upkeep_placeReg x _ (newHost_lt d ‹_›), upkeep_modTile]

theorem upkeep_settleAreas (p : Nat) : (settleAreas d p).upkeep x = d.upkeep x := by
  refine foldl_keeps_of_mem (Device.upkeep x) (fun t ht d => ?_) d
  unfold settleArea
  dsimp only
  rw [apply_ite (Device.upkeep x), foldl_keeps (Device.upkeep x) _ (fun d l => upkeep_rehost x d p t l), upkeep_placeReg x _ (usableTiles_lt ht),
    upkeep_modTile, ite_self, upkeep_takeArea]

theorem upkeep_refreshMem {p : Nat} (hp : p < 8) : (refreshMem d p).upkeep x = d.upkeep x :=
  congrArg (d.repairWork x, ·) (reg_refreshMem hp (by simp only [stkReg]; omega))

variable {x} (hx : x < 32)
include hx

theorem upkeep_retireStack (y : Nat) : (retireStack d y).upkeep x = d.upkeep x := by
  have hretired : (d.wr (fSRetired y) 1).upkeep x = d.upkeep x := upkeep_wr x d (spares_stk x rfl (by decide) (by decide)) 1
  unfold retireStack
  dsimp only
  split
  · exact hretired
  · rw [apply_ite (Device.upkeep x), upkeep_settleAreas, ite_self, upkeep_refreshMem x _ (stackPart_lt ‹_›), loseParked, upkeep_loseSegs hx,
      foldl_keeps (Device.upkeep x) _ (fun d c => upkeep_loseChan hx d _ (chanNo y c)), hretired]

/-- A FAILED channel has the state, and what it takes with it leaves the channels alone (R267). -/
theorem upkeep_failChan (c : Nat) : (failChan d x c).upkeep x = (setCh d x c 3).upkeep x := by
  unfold failChan
  dsimp only
  split
  · rw [apply_ite (Device.upkeep x), upkeep_retireStack _ hx, ite_self]
  · rw [apply_ite (Device.upkeep x), upkeep_retireStack _ hx, ite_self, loseParked, upkeep_loseSegs hx, upkeep_loseChan hx]

end

theorem repairWork_setCh (d : Device) (x c st : Nat) : (setCh d x c st).repairWork x = d.repairWork x := by
  simp [Device.repairWork]

theorem repairWork_retireChan {x : Nat} (hx : x < 32) (d : Device) (c : Nat) : (retireChan d x c).repairWork x = d.repairWork x := by
  unfold retireChan settleChan
  simp only [apply_ite (Device.repairWork x), repairWork_of_upkeep (upkeep_failChan _ hx c), repairWork_setCh, ite_self]

/-- A channel that retires is RETIRING or FAILED (R266). -/
theorem ch_retireChan {x c : Nat} (hx : x < 32) (hc : c < 32) (d : Device) : 2 ≤ (retireChan d x c).ch x c := by
  have hretiring : (setCh d x c 2).ch x c = 2 := ch_setCh d x hc (by decide)
  have hfailed : (failChan (setCh d x c 2) x c).ch x c = 3 := (ch_of_upkeep (upkeep_failChan _ hx c) c).trans (ch_setCh _ x hc (by decide))
  unfold retireChan settleChan
  split
  · split
    · rw [hfailed]; decide
    · rw [hretiring]
  · exact Nat.le_of_not_lt ‹_›

end Sys2Proof.Machine
end

section
/-! PROOF. Retrains (R263, R264), row repairs (R265, R373), the patrol read (R274) and the zeroing scrub (R273). -/
namespace Sys2Proof.Machine

theorem exec_retrainWindow (ms : List Margin) (s : State) : exec (.retrainWindow ms) s = .next (s.withDev (retrainWindow ms s.dev)) := rfl
theorem exec_retrainDone (x c : Fin 32) (ok : Bool) (s : State) :
    exec (.retrainDone x c ok) s = .next (s.withDev (retryAll (retrainDone x c ok s.dev))) := rfl
theorem exec_rowRepairDone (r : RowCopy) (s : State) : exec (.rowRepairDone r) s =
    .next (s.withDev (retryAll (rowRepairDone r.stack (r.bad.map (·.toNat)) (r.fixed.map (·.toNat)) s.dev))) := rfl
theorem exec_patrolRead (x : Fin 32) (f : PatrolFind) (s : State) :
    exec (.patrolRead x f) s = .next (s.withDev (retryAll (patrolRead x f s.dev))) := rfl
theorem exec_scrubStart (x : Fin 32) (s : State) : exec (.scrubStart x) s = .next (s.withDev (scrubStart x s.dev)) := rfl
theorem exec_scrubDone (x : Fin 32) (s : State) : exec (.scrubDone x) s = .next (s.withDev (retryAll (scrubDone x s.dev))) := rfl

-- Retrains.

/-- A fold does nothing when none of its members does. -/
theorem foldl_of_idle {α β : Type} {f : α → β → α} {l : List β} (h : ∀ b ∈ l, ∀ a, f a b = a) (a : α) : l.foldl f a = a :=
  foldl_keeps_of_mem id h a

/-- A fold in which one member alone does something does it once. -/
theorem foldl_of_only {α β : Type} {f : α → β → α} {l : List β} {k : β} (hk : k ∈ l) (hl : l.Nodup)
    (h : ∀ b, b ≠ k → ∀ a, f a b = a) (a : α) : l.foldl f a = f a k := by
  obtain ⟨l, m, rfl⟩ := List.append_of_mem hk
  rw [List.nodup_middle, List.nodup_cons, List.mem_append, not_or] at hl
  obtain ⟨⟨hkl, hkm⟩, -⟩ := hl
  rw [List.foldl_append, List.foldl_cons, foldl_of_idle fun b hb => h b (ne_of_mem_of_not_mem hb hkl),
    foldl_of_idle fun b hb => h b (ne_of_mem_of_not_mem hb hkm)]

/-- The device once a margin is reported (R263). -/
def Device.reported (d : Device) (m : Margin) : Device := d.wr (fMargin m.stack m.ch) m.margin.toNat

/-- A report decides nothing about a retrain: no other field shows it. -/
theorem mayRetrain_reported (d : Device) (m : Margin) : (d.reported m).mayRetrain m = d.mayRetrain m := by
  have hrd {g : Fld} (hg : (fMargin m.stack m.ch).addr ≠ g.addr) : (d.reported m).rd g = d.rd g := rd_of_reg (reg_wr_other hg _)
  have hch (c : Nat) : (d.reported m).rd (fCh m.stack c) = d.rd (fCh m.stack c) := hrd (by simp only [fMargin, fCh, stkReg]; omega)
  have hdom : (d.reported m).rd (fDom (32 + m.stack)) = d.rd (fDom (32 + m.stack)) := hrd (by simp only [fMargin, fDom, stkReg]; omega)
  have htrain : (d.reported m).rd (fTrain m.stack) = d.rd (fTrain m.stack) := hrd (by simp only [fMargin, fTrain, stkReg]; omega)
  have hstack : (d.reported m).stack m.stack = d.stack m.stack := stack_wr d _ _ _
  simp only [Device.mayRetrain, Device.ch, Device.domOn, Device.pausedCh, hch, hdom, htrain, hstack]
  rfl

theorem windowPick_other {m : Margin} {x : Nat} (h : x ≠ m.stack) (d : Device) : windowPick d [m] x = none := by
  simp [windowPick, Ne.symm h]

theorem windowPick_of_mayRetrain {m : Margin} {d : Device} (h : d.mayRetrain m = true) : windowPick d [m] m.stack = some m.ch.val := by
  cases hf : m.failing <;> simp [windowPick, h, hf]

/-- A window that reports one channel, which may retrain, pauses it. -/
theorem retrainWindow_of_mayRetrain {m : Margin} {d : Device} (h : d.mayRetrain m = true) :
    retrainWindow [m] d = refuseMem (setCh (d.reported m) m.stack m.ch 1) m.stack := by
  have hon : d.domOn (32 + m.stack) = true := by
    unfold Device.mayRetrain at h
    simp only [Bool.and_eq_true] at h
    obtain ⟨⟨⟨⟨-, hon⟩, -⟩, -⟩, -⟩ := h
    exact hon
  have hpick : windowPick (d.reported m) [m] m.stack = some m.ch.val := windowPick_of_mayRetrain (mayRetrain_reported d m ▸ h)
  unfold retrainWindow
  rw [List.foldl_cons, List.foldl_nil, if_pos hon]
  refine (foldl_of_only (k := m.stack.val) (List.mem_range.mpr m.stack.isLt) List.nodup_range (fun x hx d => ?_) _).trans ?_
  · rw [windowPick_other hx]
  · rw [← Device.reported, hpick]

theorem rd_reported (d : Device) (m : Margin) : (d.reported m).rd (fMargin m.stack m.ch) = m.margin.toNat :=
  (rd_wr_same d (fMargin _ _) _ ⟨Nat.zero_le _, show 7 < 64 by decide⟩).trans (Nat.mod_eq_of_lt m.margin.isLt)

/-- The device once the pause of channel `c` of stack `x` has ended, its retrain counted, with `k` failures in succession (R263, R264). -/
def Device.unpaused (d : Device) (x c k : Nat) : Device :=
  ((setCh d x c 0).inc (fRetrains x c)).modStack x (fun s => { s with retrainFails := tset 0 s.retrainFails c k })

theorem retrainDone_succeeded {x c : Nat} {d : Device} (h : d.ch x c = 1) : retrainDone x c true d = d.unpaused x c 0 := by
  simp only [retrainDone, h, ne_eq, not_true_eq_false, if_false, if_true, Device.unpaused]

/-- The first failure of a channel's retrain asks for no drop check. -/
theorem retrainDone_failed {x c : Nat} {d : Device} (h : d.ch x c = 1) (hfirst : tget 0 (d.stack x).retrainFails c = 0) :
    retrainDone x c false d = d.unpaused x c 1 := by
  have hn : tget 0 (((setCh d x c 0).inc (fRetrains x c)).stack x).retrainFails c + 1 = 1 := by rw [stack_inc, stack_setCh, hfirst]
  unfold retrainDone
  rw [if_neg (by simp [h])]
  dsimp only
  rw [hn]
  rfl

theorem ch_unpaused (d : Device) {x c : Nat} (k : Nat) (hc : c < 32) : (d.unpaused x c k).ch x c = 0 := by
  have hcount : (fRetrains x c).addr ≠ (fCh x c).addr := by simp only [fRetrains, fCh, stkReg]; omega
  rw [Device.ch, Device.unpaused, rd_modStack, Device.inc, rd_of_reg (reg_wr_other hcount _)]
  exact ch_setCh d x hc (by decide)

theorem retrainFails_unpaused (d : Device) (x c k : Nat) : tget 0 ((d.unpaused x c k).stack x).retrainFails c = k := by
  rw [Device.unpaused, stack_modStack_same]
  exact tget_tset_same _ _ _ _

theorem rd_unpaused (d : Device) (x c k : Nat) : (d.unpaused x c k).rd (fRetrains x c) = min (d.rd (fRetrains x c) + 1) 0xFFFF := by
  rw [Device.unpaused, rd_modStack, rd_inc _ (fRetrains x c) 1 ⟨show 24 ≤ 39 by decide, show 39 < 64 by decide⟩,
    rd_setCh_other d x c 0 (by simp only [fRetrains, stkReg]; omega) (by simp only [fRetrains, stkReg]; omega)
      (by simp only [fRetrains, stkReg]; omega)]
  rfl

-- Row repair.

/-- A row copy that is done: the words it met are recorded, and it is no longer under way (R265). -/
def Device.copied (d : Device) (x c : Nat) (bad fixed : List Nat) : Device :=
  (bad.foldl (fun d n => wordUe d x c n) (fixed.foldl (fun d n => wordCe d x c n) d)).modStack x
    (fun s => { s with repair := none, repairFor := none })

/-- The verdict record that a repair owes, if it came of a drop check (R369). -/
def repairVerdict (d : Device) (r : Option ERec) (action : Nat) : Device :=
  match r with
  | none => d
  | some r => verdictRec d r 3 action

/-- The remap is committed and counted (R265, R376). -/
def commitRemap (d : Device) (x c row : Nat) : Device :=
  (((addRepair d 5 (x + 256 * c + 65536 * row) false).inc (fRowsUsed x)).inc (fSparesUsed x c)).inc (fRowRepairs x)

/-- The end of a row copy: the remap is committed while the repair list has room, and the channel retires when it has none (R373). -/
theorem rowRepairDone_of_repair {x c row : Nat} {d : Device} (bad fixed : List Nat) (h : (d.stack x).repair = some (c, row))
    (hfree : d.engineChecked x = false) : rowRepairDone x bad fixed d =
      if (d.copied x c bad fixed).listRoom then
        repairVerdict (commitRemap (d.copied x c bad fixed) x c row) (d.stack x).repairFor 4
      else repairVerdict (endChannel (d.copied x c bad fixed) x c false).2 (d.stack x).repairFor
        (endChannel (d.copied x c bad fixed) x c false).1 := by
  have hcopy : (if d.engineChecked x = true then none else (d.stack x).repair) = some (c, row) := by simp [hfree, h]
  unfold rowRepairDone
  rw [hcopy]
  change repairVerdict (if (d.copied x c bad fixed).listRoom then _ else _ : Nat × Device).2 _
    (if (d.copied x c bad fixed).listRoom then _ else _ : Nat × Device).1 = _
  split <;> rfl

theorem upkeep_repairVerdict {x : Nat} (hx : x < 32) (d : Device) (r : Option ERec) (a : Nat) : (repairVerdict d r a).upkeep x = d.upkeep x := by
  unfold repairVerdict
  split
  · rfl
  · exact upkeep_verdictRec hx d _ _ _

theorem repairWork_copied {x : Nat} (hx : x < 32) (d : Device) (c : Nat) (bad fixed : List Nat) :
    (d.copied x c bad fixed).repairWork x = (d.repairs, none) := by
  have hwords : (bad.foldl (fun d n => wordUe d x c n) (fixed.foldl (fun d n => wordCe d x c n) d)).upkeep x = d.upkeep x := by
    rw [foldl_keeps (Device.upkeep x) _ (fun d n => upkeep_wordUe hx d c n), foldl_keeps (Device.upkeep x) _ (fun d n => upkeep_wordCe hx d c n)]
  have hrepairs := congrArg Prod.fst (repairWork_of_upkeep hwords)
  rw [Device.repairWork, Device.copied, stack_modStack_same]
  exact congrArg (·, none) hrepairs

/-- A channel retires beyond the repair list: no entry is made (R373, R376). -/
theorem endChannel_of_full {d : Device} (h : d.listRoom = false) (x c : Nat) : (endChannel d x c false).2 = retireChan d x c := by
  simp [endChannel, addRetire, h]

theorem repairWork_commitRemap (d : Device) (x c row : Nat) :
    (commitRemap d x c row).repairWork x = (d.repairs ++ [⟨5, x + 256 * c + 65536 * row, false⟩], (d.stack x).repair) := by
  rw [commitRemap, Device.inc, repairWork_wr, Device.inc, repairWork_wr, Device.inc, repairWork_wr]
  exact repairWork_wr x { d with repairs := d.repairs ++ [⟨5, x + 256 * c + 65536 * row, false⟩] } _ _

section
variable {x c row : Nat} {d : Device} (hx : x < 32)
include hx

theorem listRoom_copied (d : Device) (c : Nat) (bad fixed : List Nat) : (d.copied x c bad fixed).listRoom = d.listRoom :=
  congrArg (fun w : List Repair × Option (Nat × Nat) => decide (w.1.length < 16384)) (repairWork_copied hx d c bad fixed)

/-- No copy is under way once one has ended, and the repair list has the row's entry while it has room (R265, R376). -/
theorem repairWork_rowRepairDone (bad fixed : List Nat) (h : (d.stack x).repair = some (c, row)) (hfree : d.engineChecked x = false) :
    (rowRepairDone x bad fixed d).repairWork x =
      (if d.listRoom then d.repairs ++ [⟨5, x + 256 * c + 65536 * row, false⟩] else d.repairs, none) := by
  obtain ⟨hrepairs, hrepair⟩ := Prod.ext_iff.mp (repairWork_copied hx d c bad fixed)
  have hverdict (e : Device) (a : Nat) := repairWork_of_upkeep (upkeep_repairVerdict hx e (d.stack x).repairFor a)
  rw [rowRepairDone_of_repair bad fixed h hfree, listRoom_copied hx]
  cases hroom : d.listRoom with
  | true =>
    rw [if_pos rfl, if_pos rfl, hverdict, repairWork_commitRemap]
    exact Prod.ext (congrArg (· ++ [_]) hrepairs) hrepair
  | false =>
    rw [if_neg Bool.false_ne_true, if_neg Bool.false_ne_true, hverdict, endChannel_of_full ((listRoom_copied hx d c bad fixed).trans hroom),
      repairWork_retireChan hx]
    exact repairWork_copied hx d c bad fixed

/-- The channel of a row that finds no room in the repair list is RETIRING or FAILED (R373). -/
theorem ch_rowRepairDone (hc : c < 32) (bad fixed : List Nat) (h : (d.stack x).repair = some (c, row)) (hfree : d.engineChecked x = false)
    (hfull : d.listRoom = false) : 2 ≤ (rowRepairDone x bad fixed d).ch x c := by
  have hcopied := (listRoom_copied hx d c bad fixed).trans hfull
  rw [rowRepairDone_of_repair bad fixed h hfree, hcopied, if_neg Bool.false_ne_true, endChannel_of_full hcopied,
    ch_of_upkeep (upkeep_repairVerdict hx _ _ _)]
  exact ch_retireChan hx hc _

end

-- Patrol read.

/-- The device once the patrol has gone on to the next frame of stack `x`, a pass counted at its end (R274). -/
def Device.patrolled (d : Device) (x : Nat) : Device :=
  (d.modStack x (fun s => { s with patrolAt := ((d.stack x).patrolAt + 1) % patrolFrames })).incIf
    (decide ((d.stack x).patrolAt + 1 = patrolFrames)) (fPatrolPasses x)

theorem patrolRead_next {x : Nat} (f : PatrolFind) {d : Device} (hen : d.rd (fPatrolEn x) = 1) (hon : d.domOn (32 + x) = true)
    (hfree : d.patrolWaits x = false) (hch : d.ch x ((d.stack x).patrolAt % 32) ≠ 1) :
    patrolRead x f d = patrolFound x (d.stack x).patrolAt f (d.patrolled x) := by
  simp only [patrolRead, hen, hon, hfree, hch, Device.patrolled, Device.incIf, decide_eq_true_eq, decide_false, Bool.not_true, Bool.or_false,
    Bool.false_eq_true, if_false, one_ne_zero]

section
variable (d : Device) (c : Bool) (f : Fld)

theorem stack_incIf (x : Nat) : (d.incIf c f).stack x = d.stack x := by unfold Device.incIf; split <;> rfl
theorem staged_incIf : (d.incIf c f).staged = d.staged := by unfold Device.incIf; split <;> rfl
theorem checks_incIf : (d.incIf c f).checks = d.checks := by unfold Device.incIf; split <;> rfl
theorem reg_incIf {a : Nat} (h : f.addr ≠ a) : (d.incIf c f).reg a = d.reg a := by
  unfold Device.incIf
  split
  · exact reg_wr_other h _
  · rfl

end

theorem patrolAt_patrolled (d : Device) (x : Nat) : ((d.patrolled x).stack x).patrolAt = ((d.stack x).patrolAt + 1) % patrolFrames := by
  rw [Device.patrolled, stack_incIf, stack_modStack_same]
theorem ch_patrolled (d : Device) (x c : Nat) : (d.patrolled x).ch x c = d.ch x c := by
  have hpasses : (fPatrolPasses x).addr ≠ (fCh x c).addr := by simp only [fPatrolPasses, fCh, stkReg]; omega
  rw [Device.ch, Device.patrolled, rd_of_reg (reg_incIf _ _ _ hpasses), rd_modStack, Device.ch]
theorem staged_patrolled (d : Device) (x : Nat) : (d.patrolled x).staged = d.staged := by
  rw [Device.patrolled, staged_incIf, modStack_staged]
theorem checks_patrolled (d : Device) (x : Nat) : (d.patrolled x).checks = d.checks := by
  rw [Device.patrolled, checks_incIf, modStack_checks]

/-- A record that is created is the last of those that wait for their commit (R369, R375). -/
theorem staged_addRecord (d : Device) (r : ERec) : (addRecord d r).staged = d.staged ++ [d.stamp r] := by
  unfold addRecord
  dsimp only
  simp only [apply_ite Device.staged, inc_staged, wr_staged, ite_self]
  split
  · rw [apply_ite Device.staged, staged_refuseDom, ite_self]; rfl
  · rfl

theorem checks_addRecord (d : Device) (r : ERec) : (addRecord d r).checks = d.checks := by
  unfold addRecord
  dsimp only
  simp only [apply_ite Device.checks, inc_checks, wr_checks, ite_self]
  split
  · rw [apply_ite Device.checks, checks_refuseDom, ite_self]; rfl
  · rfl

/-- An error with no check waiting leaves its one record, and its unit's check is queued (R372). -/
theorem staged_errorCheck {d : Device} (h : d.checks = []) (r : ERec) :
    (errorCheck d r).staged = d.staged ++ [d.stamp { r with verdict := 1 }] := by
  have hnone : (addRecord d { r with verdict := 1 }).checks = [] := (checks_addRecord d _).trans h
  unfold errorCheck requestCheck
  simp only [hnone, List.any_nil, List.filter_nil, List.length_nil, Bool.false_eq_true, if_false, show ¬ (0 = 64) by decide]
  exact staged_addRecord d _

/-- The partition of a unit is all that its domain adds to a record. -/
theorem ofDomain_eq (r : ERec) (d : Device) (n : Nat) : ∃ p, r.ofDomain d n = { r with part := p } := by
  unfold ERec.ofDomain
  split
  · exact ⟨r.part, rfl⟩
  · exact ⟨_, rfl⟩

/-- A word that ECC corrects, in a channel in service, leaves a CE of its channel and address (R274). -/
theorem staged_wordCe {d : Device} {x c : Nat} (frame : Nat) (hch : d.ch x c ≠ 3) (hchecks : d.checks = []) :
    ∃ r, (wordCe d x c frame).staged = d.staged ++ [r] ∧ r.cls = 0 ∧ r.source = 5 ∧ r.unit = x + 256 * c ∧
      r.addr = deviceAddr x frame c 0 := by
  obtain ⟨p, hp⟩ := ofDomain_eq (wordRec d 0 1 x c frame) d (32 + x)
  have hnone : (({ d with free := d.free + 1 } : Device).inc (fChCe x c)).checks = [] := (inc_checks _ _ _).trans hchecks
  refine ⟨_, (by rw [wordCe, if_neg hch, staged_errorCheck hnone, inc_staged]), ?_⟩
  simp only [Device.stamp, patrolRec, hp]
  exact ⟨rfl, rfl, rfl, rfl⟩

-- Zeroing scrub.

/-- A scrub of a stack that is ON starts at once (R273): the stack needs no wake, and refuses no entry that is under way. -/
theorem runScrub_on {d : Device} {x : Nat} (code : Nat) (hon : d.domOn (32 + x) = true) : runScrub d x code =
    ((d.modStack x (fun s => { s with scrubbing := true })).wr (fScrub x) 1).wr (fDoneMib x) 0 := by
  have hdom : d.rd (fDom (32 + x)) = 0 := by simpa [Device.domOn] using hon
  have hscrub {f : Fld} (hf : f.addr = stkReg x 0x10) (e : Device) (v : Nat) : (e.wr f v).rd (fDom (32 + x)) = e.rd (fDom (32 + x)) :=
    rd_of_reg (reg_wr_other (by simp only [hf, fDom, stkReg]; omega) v)
  have hkept : (((d.modStack x (fun s => { s with scrubbing := true })).wr (fScrub x) 1).wr (fDoneMib x) 0).rd (fDom (32 + x)) = 0 := by
    rw [hscrub (f := fDoneMib x) rfl, hscrub (f := fScrub x) rfl, rd_modStack, hdom]
  have hrefuse {e : Device} (he : e.rd (fDom (32 + x)) = 0) : refuseMem e x = e := by simp [refuseMem, refuseDom, he]
  have hwake {e : Device} (he : e.rd (fDom (32 + x)) = 0) : wakeDom e (32 + x) code = e := by simp [wakeDom, wakeOne, Device.domOn, he]
  unfold runScrub
  dsimp only
  rw [hrefuse hkept, hwake hkept]

theorem ok_scrub (x : Nat) : (fScrub x).ok := ⟨show 2 ≤ 3 by decide, show 3 < 64 by decide⟩
theorem ok_doneMib (x : Nat) : (fDoneMib x).ok := ⟨show 32 ≤ 63 by decide, show 63 < 64 by decide⟩

/-- STATE and DONE_MIB of STK_SCRUB read as written one after the other. -/
theorem rd_wr_scrub (d : Device) (x : Nat) {st mib : Nat} (hst : st < 4) (hmib : mib < 2 ^ 32) :
    ((d.wr (fScrub x) st).wr (fDoneMib x) mib).rd (fScrub x) = st ∧
      ((d.wr (fScrub x) st).wr (fDoneMib x) mib).rd (fDoneMib x) = mib := by
  refine ⟨?_, (rd_wr_same _ _ _ (ok_doneMib x)).trans (Nat.mod_eq_of_lt hmib)⟩
  rw [rd_wr_apart _ _ _ _ (ok_doneMib x) (ok_scrub x) (.inr (.inr (show 3 < 32 by decide)))]
  exact (rd_wr_same _ _ _ (ok_scrub x)).trans (Nat.mod_eq_of_lt hst)

/-- The device once a scrub of stack `x` is done: nothing of a former partition is left in it (R273, R317). -/
def Device.zeroed (d : Device) (x : Nat) : Device :=
  (((d.wr (fScrub x) 2).wr (fDoneMib x) 49152).modStack x (fun s => { s with clean := true, scrubbing := false })).modDom (32 + x)
    (fun y => { y with changing := false })

theorem scrubDone_of_scrubbing {d : Device} {x : Nat} (hrun : (d.stack x).scrubbing = true) (hon : d.domOn (32 + x) = true)
    (hfree : d.scrubWaits x = false) : scrubDone x d = d.zeroed x := by
  simp [scrubDone, hrun, hon, hfree, Device.zeroed]

/-- Settles O42: a retrain by `retrainWindow_of_mayRetrain` and the two ends of a pause, a row repair by `rowRepairDone_of_repair`, the patrol by
`patrolRead_next`, a scrub by `runScrub_on` and `scrubDone_of_scrubbing`. -/
theorem stackMaintenance : Obligations.StackMaintenance := by
  unfold Obligations.StackMaintenance
  refine ⟨fun m s hmay => ?window, fun x c s hch => ⟨?succeeded, fun hfirst => ?failed⟩, fun x bad fixed c row s hrep hfree => ?repair,
    fun x s => ?patrol, fun x s => ⟨fun hx0 => ⟨fun hpart => ?refused, fun hpart hrun hon => ?starts⟩, fun hrun hon hfree => ?scrubbed⟩⟩
  case window =>
    refine ⟨_, exec_retrainWindow [m] s, ?_⟩
    rw [retrainWindow_of_mayRetrain hmay]
    refine ⟨(rd_refuseDom _ _ _ _).trans (ch_setCh _ _ m.ch.isLt (by decide)), ?_⟩
    rw [refuseMem, rd_refuseDom, rd_setCh_other _ _ _ _ (by simp only [fMargin, stkReg]; omega) (by simp only [fMargin, stkReg]; omega)
      (by simp only [fMargin, stkReg]; omega), rd_reported]
  case succeeded =>
    refine ⟨_, exec_retrainDone x c true s, ?_⟩
    rw [retrainDone_succeeded hch]
    exact ⟨ch_unpaused _ 0 c.isLt, retrainFails_unpaused _ x c 0, rd_unpaused _ x c 0⟩
  case failed =>
    refine ⟨_, exec_retrainDone x c false s, ?_⟩
    rw [retrainDone_failed hch hfirst]
    exact ⟨ch_unpaused _ 1 c.isLt, retrainFails_unpaused _ x c 1⟩
  case repair =>
    refine ⟨_, exec_rowRepairDone ⟨x, bad, fixed⟩ s, ?_⟩
    dsimp only
    generalize bad.map (·.toNat) = bad
    generalize fixed.map (·.toNat) = fixed
    obtain ⟨hrepairs, hover⟩ := Prod.ext_iff.mp (repairWork_rowRepairDone x.isLt bad fixed hrep hfree)
    exact ⟨hover, fun hroom => hrepairs.trans (if_pos hroom), fun hfull =>
      ⟨hrepairs.trans (if_neg (by simp [hfull])), fun hc => ch_rowRepairDone x.isLt hc bad fixed hrep hfree hfull⟩⟩
  case patrol =>
    intro n hen hon hfree hpaused
    refine ⟨⟨_, exec_patrolRead x .clean s, ?_⟩, fun hch hchecks => ?_⟩
    · rw [patrolRead_next .clean hen hon hfree hpaused]
      exact patrolAt_patrolled s.dev x
    · have hserves : (s.dev.patrolled x).ch x (n % 32) ≠ 3 := by
        rwa [ch_patrolled]
      obtain ⟨r, hstaged, hrec⟩ := staged_wordCe (n / 32) hserves ((checks_patrolled s.dev x).trans hchecks)
      refine ⟨_, r, exec_patrolRead x .corrected s, ?_, hrec⟩
      rw [patrolRead_next .corrected hen hon hfree hpaused]
      exact hstaged.trans (by rw [staged_patrolled])
  case refused =>
    rw [exec_scrubStart, scrubStart, if_neg (by simp [hx0]), if_pos hpart]
  case starts =>
    refine ⟨_, exec_scrubStart x s, ?_⟩
    rw [scrubStart, if_neg (by simp [hx0]), if_neg (by simp [hpart]), if_neg (by simp [hrun]), runScrub_on 5 hon]
    refine ⟨?_, rd_wr_scrub _ x (by decide) (by decide)⟩
    rw [stack_wr, stack_wr, stack_modStack_same]
  case scrubbed =>
    refine ⟨_, exec_scrubDone x s, ?_⟩
    rw [scrubDone_of_scrubbing hrun hon hfree]
    obtain ⟨hstate, hmib⟩ := rd_wr_scrub s.dev x (st := 2) (mib := 49152) (by decide) (by decide)
    rw [Device.zeroed, rd_modDom, rd_modStack, rd_modDom, rd_modStack, stack_modDom, stack_modStack_same]
    exact ⟨hstate, hmib, rfl⟩

end Sys2Proof.Machine
end

section
/-! SUPPORT. What sending on a flow makes of flow contexts (R285, R286, R291, R299, R300): it changes what waits, what is unacknowledged, the
acknowledgements due and the turns of the round robin of the flow it sends on, and nothing else of any flow. -/
namespace Sys2Proof.Machine

/-- A flow context is an entry of the table of contexts alone. -/
theorem flow_of_flows {d e : Device} (h : e.flows = d.flows) (j : Nat) : e.flow j = d.flow j := by
  unfold Device.flow; rw [h]

theorem flow_setFlow_other (d : Device) {i j : Nat} (v : Flow) (h : j ≠ i) : (d.setFlow i v).flow j = d.flow j := tget_tput_other _ _ _ h

/-- A flow context but for what sending on the flow writes. -/
def Flow.lasting (f : Flow) : Flow :=
  { f with
    txNext := 0, ctlTxNext := 0, unacked := [], waiting := [], wport := [], wpath := [], ackDue := 0, ctlAckDue := 0, eceDue := false,
    ctlEceDue := false, closeDue := false }

/-- The flow contexts but for what sending writes. -/
def Device.lasting (d : Device) (j : Nat) : Flow := (d.flow j).lasting

theorem lasting_of_flows {d e : Device} (h : e.flows = d.flows) : e.lasting = d.lasting :=
  funext fun j => congrArg Flow.lasting (flow_of_flows h j)

theorem lasting_setFlow {d : Device} {i : Nat} {v : Flow} (h : v.lasting = (d.flow i).lasting) : (d.setFlow i v).lasting = d.lasting := by
  funext j
  unfold Device.lasting
  by_cases hj : j = i
  · subst hj; rw [flow_setFlow_same, h]
  · rw [flow_setFlow_other d v hj]

/-- What does not depend on what sending writes is the same in two contexts that last the same. -/
theorem lasting_field {γ : Type} {d e : Device} (h : e.lasting = d.lasting) (g : Flow → γ) (i : Nat)
    (hg : ∀ f, g f.lasting = g f := by intro; rfl) : g (e.flow i) = g (d.flow i) :=
  (hg _).symm.trans ((congrArg g (congrFun h i)).trans (hg _))

-- The choice of a path.

theorem greatest_of_ne_nil (cur : Nat → Int) {ks : List Nat} (h : ks ≠ []) : ∃ k ∈ ks, greatest cur ks = some k := by
  induction ks with
  | nil => exact absurd rfl h
  | cons a t ih =>
    unfold greatest
    cases ht : greatest cur t with
    | none => exact ⟨a, by simp, rfl⟩
    | some b =>
      have hb : b ∈ t := by
        obtain ⟨k, hk, hg⟩ := ih (by rintro rfl; cases ht)
        exact Option.some.inj (hg.symm.trans ht) ▸ hk
      by_cases hlt : cur a < cur b
      · exact ⟨b, List.mem_cons_of_mem _ hb, if_pos hlt⟩
      · exact ⟨a, by simp, if_neg hlt⟩

/-- A turn of the round robin chooses one of its candidates. -/
theorem swrr_of_ne_nil {cands : List (Nat × Nat)} (cur : Tab Int) (h : cands ≠ []) : ∃ k ∈ cands.map (·.1), (swrr cands cur).1 = some k := by
  unfold swrr
  dsimp only
  obtain ⟨k, hk, hg⟩ := greatest_of_ne_nil
    (fun k => tget (0 : Int) (cands.foldl (fun m c => tput c.1 ((tget (0 : Int) m c.1) + (c.2 : Int)) m) cur) k) (show cands.map (·.1) ≠ [] by simpa using h)
  rw [hg]
  exact ⟨k, hk, rfl⟩

/-- Where a path is usable one is chosen (R286). -/
theorem choosePath_of_ne_nil (f : Flow) {ks : List Nat} (h : ks ≠ []) : ∃ k, (choosePath f ks).1 = some k := by
  obtain ⟨k, hk⟩ := List.exists_mem_of_ne_nil ks h
  have hports : (ks.map pathPort).dedup ≠ [] := List.ne_nil_of_mem (List.mem_dedup.mpr (List.mem_map_of_mem hk))
  obtain ⟨p, hp, hport⟩ := swrr_of_ne_nil (cands := (ks.map pathPort).dedup.map
    (fun p => (p, ((ks.filter (fun k => pathPort k = p)).map f.weight).sum))) f.wport (by simpa using hports)
  obtain ⟨k', hk', rfl⟩ : ∃ k' ∈ ks, pathPort k' = p := by simpa using hp
  have hpaths : (ks.filter (fun k => pathPort k = pathPort k')).map (fun k => (k, f.weight k)) ≠ [] := by
    simpa using ⟨k', hk', rfl⟩
  obtain ⟨q, -, hq⟩ := swrr_of_ne_nil f.wpath hpaths
  refine ⟨q, ?_⟩
  unfold choosePath
  simp only [hport, hq]

@[simp] theorem lasting_choosePath (f : Flow) (ks : List Nat) : (choosePath f ks).2.lasting = f.lasting := by
  unfold choosePath; dsimp only; split <;> rfl

@[simp] theorem lasting_acked (f : Flow) (ctrl : Bool) : (f.acked ctrl).lasting = f.lasting := by cases ctrl <;> rfl

-- What does not touch the table of contexts.

@[simp] theorem flows_takeSec (d : Device) (n : Nat) (dst src : BitVec 48) (bs : List Byte) : (d.takeSec n dst src bs).2.flows = d.flows := by
  unfold Device.takeSec; split <;> rfl

@[simp] theorem flows_emitPacket (d : Device) (n : Nat) (fr : Frame) (h : List Byte) (e : Option Envelope) (bs : List Byte) (m : Msg) :
    (d.emitPacket n fr h e bs m).flows = d.flows := flows_takeSec _ _ _ _ _

@[simp] theorem flows_sealPacket (d : Device) (f : Flow) (h bs : List Byte) : (sealPacket d f h bs).2.2.flows = d.flows := by
  unfold sealPacket; split <;> rfl

theorem flows_countSwatch (d : Device) (f : Flow) (m : Msg) : (d.countSwatch f m).flows = d.flows := by
  unfold Device.countSwatch
  split
  · dsimp only; split <;> rfl
  · rfl

theorem flows_notePorts (d : Device) : (notePorts d).flows = d.flows := by
  refine foldl_keeps Device.flows _ (fun d n => ?_) _ _
  unfold refuseDom; split <;> rfl

/-- A quantity of the device that reads of flow `i` nothing that sending on it writes, and nothing but flow contexts. -/
structure FlowKeeps {γ : Type} (i : Nat) (π : Device → γ) : Prop where
  flows : ∀ d e : Device, e.flows = d.flows → π e = π d
  flow : ∀ d v, v.lasting = (d.flow i).lasting → π (d.setFlow i v) = π d

namespace FlowKeeps
variable {γ : Type} {i : Nat} {π : Device → γ} (h : FlowKeeps i π)
include h

theorem requeue (d : Device) (ws : Flow → List (Bool × Msg)) : π (d.modFlow i (fun f => { f with waiting := ws f })) = π d := h.flow d _ rfl
theorem resent (d : Device) (us : Flow → List TxPkt) : π (d.modFlow i (fun f => { f with unacked := us f })) = π d := h.flow d _ rfl
theorem closed (d : Device) (b : Bool) : π (d.modFlow i (fun f => { f with closeDue := b })) = π d := h.flow d _ rfl

theorem transmit (d : Device) (typ : Nat) (ctrl retx : Bool) (psn : BitVec 32) (m : Msg) (ks : List Nat) :
    π (transmit d i typ ctrl retx psn m ks).1 = π d := by
  unfold Machine.transmit
  dsimp only
  split
  · rfl
  · refine (h.flows _ _ (flows_emitPacket _ _ _ _ _ _ _)).trans ((h.flow _ _ ?_).trans (h.flows _ _ (flows_sealPacket _ _ _ _)))
    rw [lasting_acked, lasting_choosePath, flow_of_flows (flows_sealPacket _ _ _ _)]

theorem sendBare (d : Device) (typ : Nat) (ctrl : Bool) : π (sendBare d i typ ctrl) = π d := by
  unfold Machine.sendBare
  dsimp only
  rw [apply_ite π, h.transmit, ite_self]

theorem sendNew (d : Device) (typ : Nat) (ctrl : Bool) (m : Msg) : π (sendNew d i typ ctrl m) = π d := by
  unfold Machine.sendNew
  dsimp only
  refine (h.flow _ _ (by cases ctrl <;> rfl)).trans ?_
  simp only [apply_ite π, h.flows _ _ (flows_countSwatch _ _ _), apply_ite Prod.fst, h.transmit, ite_self]

theorem pumpGo (ms : List (Bool × Msg)) (bc bd : Bool) (d : Device) : π (pumpGo i ms bc bd d).2 = π d := by
  induction ms generalizing bc bd d with
  | nil => rfl
  | cons x ms ih =>
    simp only [Machine.pumpGo, apply_ite Prod.snd, apply_ite π, ih, h.sendNew, h.requeue, ite_self]

theorem pumpFlow (d : Device) : π (pumpFlow d i) = π d := by
  unfold Machine.pumpFlow
  simp only [apply_ite π, h.requeue, h.closed, h.sendNew, h.pumpGo, ite_self]

theorem retransmit (d : Device) (u : TxPkt) : π (retransmit d i u) = π d := by
  unfold Machine.retransmit
  simp only [apply_ite π, h.flows _ _ (inc_flows _ _ _), h.resent, h.transmit, ite_self]

theorem oweAck (d : Device) (ctrl ce now : Bool) : π (oweAck d i ctrl ce now) = π d := by
  unfold Machine.oweAck Machine.sendAck
  simp only [apply_ite π, h.sendBare, ite_self]
  exact h.flow d _ (by cases ctrl <;> rfl)

end FlowKeeps

theorem lasting_flowKeeps (i : Nat) : FlowKeeps i Device.lasting where
  flows _ _ h := lasting_of_flows h
  flow _ _ h := lasting_setFlow h

/-- Another flow than the one sent on stays as it is. -/
theorem other_flowKeeps {i j : Nat} (h : j ≠ i) : FlowKeeps i (fun d => d.flow j) where
  flows _ _ he := flow_of_flows he j
  flow d v _ := flow_setFlow_other d v h

theorem lasting_pumpPeers (d : Device) (p : Nat) : (pumpPeers d p).lasting = d.lasting :=
  (lasting_of_flows (flows_crossFabric p)).trans
    (foldl_keeps Device.lasting _ (fun d (e : Nat × Flow) => (lasting_flowKeeps e.1).pumpFlow d) _ _)

theorem lasting_pump (d : Device) (i : Nat) : (pump d i).lasting = d.lasting := by
  unfold pump
  dsimp only
  rw [apply_ite Device.lasting, lasting_pumpPeers, (lasting_flowKeeps i).pumpFlow, ite_self]

/-- A flow that is neither OPEN nor CLOSING has nothing sent on it. -/
theorem flow_pumpFlow_idle {d : Device} {i : Nat} (h : d.live i = false) (j : Nat) : (pumpFlow d j).flow i = d.flow i := by
  by_cases hj : i = j
  · subst hj
    unfold pumpFlow
    exact congrArg (fun e : Device => e.flow i) (if_neg (by simpa [Device.live] using h))
  · exact (other_flowKeeps hj).pumpFlow d

theorem flow_pumpPeers_idle {d : Device} {i : Nat} (h : d.live i = false) (p : Nat) : (pumpPeers d p).flow i = d.flow i := by
  have hfold (es : List (Nat × Flow)) (e : Device) (he : e.live i = false) : (es.foldl (fun d e => pumpFlow d e.1) e).flow i = e.flow i := by
    induction es generalizing e with
    | nil => rfl
    | cons x es ih =>
      have hx := flow_pumpFlow_idle he x.1
      exact (ih (pumpFlow e x.1) (by simpa only [Device.live, hx] using he)).trans hx
  exact (flow_of_flows (flows_crossFabric p) i).trans (hfold _ d h)

end Sys2Proof.Machine
end

section
/-! PROOF. The timers of a flow: ACK_DELAY, RTO_EXPIRY and FLOW_DEAD (R299 to R302). -/
namespace Sys2Proof.Machine

theorem exec_ackDelay (flow : BitVec 16) (s : State) : exec (.ackDelay flow) s = .next (s.withDev (ackDelay flow.toNat s.dev)) := rfl
theorem exec_rtoExpiry (flow : BitVec 16) (s : State) : exec (.rtoExpiry flow) s = .next (s.withDev (rtoExpiry flow.toNat s.dev)) := rfl
theorem exec_flowDead (flow : BitVec 16) (s : State) : exec (.flowDead flow) s = .next (s.withDev (flowDead flow.toNat s.dev)) := rfl

theorem out_takeSec (d : Device) (n : Nat) (dst src : BitVec 48) (bs : List Byte) : (d.takeSec n dst src bs).2.out = d.out := by
  unfold Device.takeSec; split <;> rfl

theorem out_sealPacket (d : Device) (f : Flow) (h bs : List Byte) : (sealPacket d f h bs).2.2.out = d.out := by
  unfold sealPacket; split <;> rfl

/-- A packet that leaves on a port is one more that the device has sent. -/
theorem out_emitPacket (d : Device) (n : Nat) (fr : Frame) (h : List Byte) (e : Option Envelope) (bs : List Byte) (m : Msg) :
    ∃ o, (d.emitPacket n fr h e bs m).out = d.out ++ [o] := ⟨_, congrArg (· ++ [_]) (out_takeSec _ _ _ _ _)⟩

/-- A packet sent where a path is usable is the one thing that leaves, and the acknowledgement due in its space rides on it (R299). -/
theorem transmit_sends (d : Device) (i typ : Nat) (ctrl retx : Bool) (psn : BitVec 32) (m : Msg) {ks : List Nat} (h : ks ≠ []) :
    (∃ o, (transmit d i typ ctrl retx psn m ks).1.out = d.out ++ [o]) ∧
      (transmit d i typ ctrl retx psn m ks).1.flow i = (choosePath (d.flow i) ks).2.acked ctrl := by
  obtain ⟨k, hk⟩ := choosePath_of_ne_nil (d.flow i) h
  unfold transmit
  simp only [hk]
  refine ⟨?_, (flow_of_flows (flows_emitPacket _ _ _ _ _ _ _) i).trans (flow_setFlow_same _ _ _)⟩
  rw [← out_sealPacket d]
  exact out_emitPacket _ _ _ _ _ _ _

/-- What the device has sent stays sent. -/
theorem out_transmit (d : Device) (i typ : Nat) (ctrl retx : Bool) (psn : BitVec 32) (m : Msg) (ks : List Nat) :
    d.out <+: (transmit d i typ ctrl retx psn m ks).1.out := by
  by_cases h : ks = []
  · subst h; exact List.prefix_refl _
  · obtain ⟨⟨o, ho⟩, -⟩ := transmit_sends d i typ ctrl retx psn m h
    exact ho ▸ List.prefix_append _ _

/-- ACK_DELAY with an acknowledgement due in the data space alone sends that one. -/
theorem ackDelay_data {d : Device} {i : Nat} (hst : (d.flow i).st = .opened) (hdue : 0 < (d.flow i).ackDue) (hctl : (d.flow i).ctlAckDue = 0)
    (hseal : d.canSeal (d.flow i) = true) (hpath : d.paths (d.flow i) ≠ []) :
    ackDelay i d = (transmit d i 2 false false (d.flow i).txNext (.raw []) (d.paths (d.flow i))).1 := by
  simp [ackDelay, Device.live, hst, hdue, hctl, sendAck, sendBare, hpath, hseal]

/-- The device with the flow's RTO doubled and one more expiry counted (R301). -/
def Device.backedOff (d : Device) (i : Nat) : Device :=
  d.modFlow i (fun f => { f with rto := min 2000000 (2 * f.rto), retries := f.retries + 1 })

theorem rtoExpiry_resends {d : Device} {i : Nat} {u : TxPkt} {us : List TxPkt} (hst : (d.flow i).st = .opened) (hun : (d.flow i).unacked = u :: us) :
    rtoExpiry i d = probeStarved (retransmit (d.backedOff i) i u) i := by
  simp [rtoExpiry, hst, hun, Device.backedOff]

theorem rtoExpiry_probes {d : Device} {i : Nat} (hst : (d.flow i).st = .opened) (hun : (d.flow i).unacked = []) (hstarved : (d.flow i).starved = true) :
    rtoExpiry i d = (sendBare d i 3 false).modFlow i (fun f => { f with probing := true }) := by
  simp [rtoExpiry, hst, hun, probeStarved, hstarved]

/-- Neither a PROBE nor a packet sent again changes RTO and the expiries counted. -/
theorem backOff_probeStarved (d : Device) (i : Nat) :
    ((probeStarved d i).flow i).rto = (d.flow i).rto ∧ ((probeStarved d i).flow i).retries = (d.flow i).retries := by
  have hbare := (lasting_flowKeeps i).sendBare d 3 false
  unfold probeStarved
  split
  · rw [flow_modFlow_same]
    exact ⟨lasting_field hbare Flow.rto i, lasting_field hbare Flow.retries i⟩
  · exact ⟨rfl, rfl⟩

theorem flows_hostGone (d : Device) (i : Nat) : (hostGone d i).flows = d.flows := by
  unfold hostGone; dsimp only; split <;> rfl

theorem flow_leaveOpen (d : Device) (i : Nat) (st : FlowSt) : (leaveOpen d i st).flow i = { d.flow i with st := st, floor := false } := by
  unfold leaveOpen
  dsimp only
  rw [flow_modDie, flow_setFlow_same, flow_of_flows (flows_hostGone d i)]

/-- A flow that is not of a host takes no work item's messages with it. -/
theorem hostGone_of_kind {d : Device} {i : Nat} (h : (d.flow i).kind ≠ 0) : hostGone d i = d := by simp [hostGone, h]

/-- The device with a PEER flow UNREACHABLE and nothing on it waiting or unacknowledged (R302). -/
def Device.unreached (d : Device) (i : Nat) : Device :=
  ((leaveOpen d i .unreachable).modFlow i (fun f =>
    { f with unacked := [], waiting := [], held := [], closeAt := none, probing := false })).inc fUnreach

theorem flow_unreached (d : Device) (i : Nat) : (d.unreached i).flow i =
    { d.flow i with st := .unreachable, floor := false, unacked := [], waiting := [], held := [], closeAt := none, probing := false } := by
  rw [Device.unreached, flow_inc, flow_modFlow_same, flow_leaveOpen]

theorem rd_unreached {d : Device} {i : Nat} (h : (d.flow i).kind ≠ 0) : (d.unreached i).rd fUnreach = min (d.rd fUnreach + 1) 0xFFFF := by
  rw [Device.unreached, rd_inc _ _ _ ⟨by decide, by decide⟩, rd_modFlow, leaveOpen, hostGone_of_kind h]
  rfl

/-- FLOW_DEAD of a PEER flow with no work item running loses nothing but the flow (R302, R304). -/
theorem flowDead_peer {d : Device} {i : Nat} (hst : (d.flow i).st = .opened) (hun : (d.flow i).unacked ≠ []) (hkind : (d.flow i).kind = 2)
    (hrun : (d.part (d.flow i).part).isRunning = false) : flowDead i d = pumpPeers (d.unreached i) (d.flow i).part := by
  have hpart : (d.unreached i).part (d.flow i).part = d.part (d.flow i).part := by
    rw [Device.unreached, part_inc, part_modFlow, leaveOpen, hostGone_of_kind (by simp [hkind])]; rfl
  have hlose : losePeer (d.unreached i) (d.flow i).part (d.flow i).peerDev.toNat = d.unreached i := by
    simp [losePeer, hpart, hrun]
  have hpeer : flowDead i d = pumpPeers (losePeer (d.unreached i) (d.flow i).part (d.flow i).peerDev.toNat) (d.flow i).part := by
    unfold flowDead
    dsimp only
    rw [if_neg (by simp [hst]), if_neg (by simp [hkind]), if_neg (by simp [hst, hun]), if_pos hkind]
    rfl
  rw [hpeer, hlose]

/-- Settles O41: ACK_DELAY by `ackDelay_data`, RTO_EXPIRY by `rtoExpiry_resends` and `rtoExpiry_probes`, FLOW_DEAD of a PEER flow by `flowDead_peer`,
after which nothing more is sent on the flow. -/
theorem flowTimers : Obligations.FlowTimers := by
  unfold Obligations.FlowTimers
  refine fun flow s => ⟨fun hst hdue hctl hseal hpath => ?ack, fun u us hst hun => ?resend, fun hst hun hstarved => ?probe, fun hst => ?closing,
    fun hst hun hkind hrun => ?dead⟩
  case ack =>
    obtain ⟨⟨o, ho⟩, hflow⟩ := transmit_sends s.dev flow.toNat 2 false false (s.dev.flow flow.toNat).txNext (.raw []) hpath
    refine ⟨_, o, exec_ackDelay flow s, ?_⟩
    rw [ackDelay_data hst hdue hctl hseal hpath]
    exact ⟨by rw [hflow]; rfl, ho⟩
  case resend =>
    have hresend := (lasting_flowKeeps flow.toNat).retransmit (s.dev.backedOff flow.toNat) u
    obtain ⟨hrto, hretries⟩ := backOff_probeStarved (retransmit (s.dev.backedOff flow.toNat) flow.toNat u) flow.toNat
    refine ⟨_, exec_rtoExpiry flow s, rtoExpiry_resends hst hun, ?_⟩
    rw [rtoExpiry_resends hst hun, hrto, hretries, lasting_field hresend Flow.rto, lasting_field hresend Flow.retries, Device.backedOff, flow_modFlow_same]
    exact ⟨rfl, rfl⟩
  case probe => rw [exec_rtoExpiry, rtoExpiry_probes hst hun hstarved]
  case closing =>
    rw [exec_flowDead]
    exact congrArg (fun d => Host.Outcome.next (s.withDev d)) (if_pos hst)
  case dead =>
    have hidle : (s.dev.unreached flow.toNat).live flow.toNat = false := by simp [Device.live, flow_unreached]
    have hsent (p : Nat) : (fSwSent p).addr ≠ fUnreach.addr := by simp only [fSwSent, fUnreach]; omega
    refine ⟨_, exec_flowDead flow s, ?_⟩
    rw [flowDead_peer hst hun hkind hrun, flow_pumpPeers_idle hidle, flow_unreached, rd_of_reg (reg_pumpPeers hsent _ _), rd_unreached (by simp [hkind])]
    exact ⟨rfl, rfl, rfl, rfl⟩

end Sys2Proof.Machine
end

section
/-! SUPPORT. Frames and packets that pass their checks (R284, R305, R320 to R322), and fields of one register and of others. -/
namespace Sys2Proof.Machine

/-- Two fields that lie in their registers and share no bit, whatever their registers are. -/
def Fld.disjoint (f g : Fld) : Bool :=
  decide (f.lo ≤ f.hi) && decide (f.hi < 64) && decide (g.lo ≤ g.hi) && decide (g.hi < 64) && (decide (f.hi < g.lo) || decide (g.hi < f.lo))

theorem rd_wr_disjoint {f g : Fld} (h : f.disjoint g = true) (d : Device) (v : Nat) : (d.wr f v).rd g = d.rd g := by
  simp only [Fld.disjoint, Bool.and_eq_true, Bool.or_eq_true, decide_eq_true_eq] at h
  obtain ⟨⟨⟨⟨hf, hf'⟩, hg⟩, hg'⟩, hbits⟩ := h
  exact rd_wr_apart d f g v ⟨hf, hf'⟩ ⟨hg, hg'⟩ (.inr hbits)

/-- A field that lies in its register and has room for a value. -/
def Fld.fits (f : Fld) (v : Nat) : Bool := decide (f.lo ≤ f.hi) && decide (f.hi < 64) && decide (v < 2 ^ (f.hi - f.lo + 1))

theorem rd_wr_fits {f : Fld} {v : Nat} (h : f.fits v = true) (d : Device) : (d.wr f v).rd f = v := by
  simp only [Fld.fits, Bool.and_eq_true, decide_eq_true_eq] at h
  obtain ⟨⟨hf, hf'⟩, hv⟩ := h
  rw [rd_wr_same d f v ⟨hf, hf'⟩, Nat.mod_eq_of_lt hv]

theorem rd_wr_addr {f g : Fld} (h : f.addr ≠ g.addr) (d : Device) (v : Nat) : (d.wr f v).rd g = d.rd g := rd_of_reg (reg_wr_other h v)

@[simp] theorem rd_notePorts (d : Device) (g : Fld) : (notePorts d).rd g = d.rd g :=
  foldl_keeps (·.rd g) _ (fun d n => rd_refuseDom d n _ g) _ _

-- MACsec counts packet numbers of a port, and nothing else.

@[simp] theorem rd_takePn (d : Device) (n pn : Nat) (g : Fld) : (takePn d n pn).rd g = d.rd g := by unfold takePn; split <;> rfl
@[simp] theorem flow_takePn (d : Device) (n pn i : Nat) : (takePn d n pn).flow i = d.flow i := by unfold takePn; split <;> rfl
@[simp] theorem isDirect_takePn (d : Device) (n pn m : Nat) : (takePn d n pn).isDirect m = d.isDirect m := by unfold takePn; split <;> rfl

/-- Outside ADMITTED no packet number is counted. -/
theorem takePn_of_mode {d : Device} (h : d.rd fMode ≠ 0) (n pn : Nat) : takePn d n pn = d := if_neg h

/-- A frame that its port hears after its wake source is told, and that passes the checks of R284 and MACsec's, is taken. -/
theorem frame_heard {k : Packet} {d : Device} (hport : d.portHears k.port = true) (hfirst : (d.port k.port).wakeFirst = false)
    (hok : frameOk d k = true) (wake : Bool) (f : Device → Device) : frame k wake f d = f (takePn d k.port k.pn.toNat) := by
  simp [frame, firstFrame, hport, hfirst, hok]

end Sys2Proof.Machine
end

section
/-! PROOF. Ports, their links and their neighbours (R281, R284, R287, R288, R305, R306, R322, R367). -/
namespace Sys2Proof.Machine

theorem exec_chindHello (k : Packet) (s : State) : exec (.chindHello k) s = .next (s.withDev (helloArrive k s.dev)) := rfl
theorem exec_chindWake (k : Packet) (s : State) : exec (.chindWake k) s = .next (s.withDev (wakeArrive k s.dev)) := rfl
theorem exec_neighborSolicitation (n : Fin 9) (target : BitVec 128) (x : FrameFind) (s : State) : exec (.neighborSolicitation n target x) s =
    .next (s.withDev ((if n.val = 8 then solicitMgt target.toNat x.fcsOk else solicit n target.toNat x) s.dev)) := rfl
theorem exec_linkUp (n : Fin 8) (s : State) : exec (.linkUp n) s = .next (s.withDev (linkUp n s.dev)) := rfl
theorem exec_linkDown (n : Fin 8) (s : State) : exec (.linkDown n) s = .next (s.withDev (linkDown n s.dev)) := rfl
theorem exec_portDrainDone (n : Fin 8) (s : State) : exec (.portDrainDone n) s = .next (s.withDev (drainDone n s.dev)) := rfl
theorem exec_portFecBurst (n : Fin 8) (s : State) : exec (.portFecBurst n) s = .next (s.withDev (fecBurst n s.dev)) := rfl
theorem exec_mka (n : Fin 8) (ok : Bool) (x : MkaPdu) (s : State) : exec (.mka n ok x) s = .next (s.withDev (mkaFrame n ok x s.dev)) := rfl

-- HELLO and WAKE.

theorem helloArrive_direct {k : Packet} {d : Device} (hport : d.portHears k.port = true) (hfirst : (d.port k.port).wakeFirst = false)
    (hok : frameOk d k = true) (hdirect : d.isDirect k.port = true) : helloArrive k d =
      notePorts (((takePn d k.port k.pn.toNat).modPort k.port (fun x => { x with neighbour := some k.payload })).wr (fNeighbour k.port) 1) := by
  unfold helloArrive
  rw [frame_heard hport hfirst hok]
  exact if_pos ((isDirect_takePn _ _ _ _).trans hdirect)

/-- PWR_DOM of a domain whose exit has begun (R343). -/
def Device.exiting (d : Device) (n c : Nat) : Device :=
  (((((d.modDom n (fun x => { x with wake := none, refuse := none })).wr (fDom n) 3).wr (fDomStep n) 6).wr (fDomReady n) 0).wr (fTarget n) 0).wr
    (fLastWake n) c

theorem rd_exiting (d : Device) (n : Nat) {c : Nat} (hc : c < 256) : (d.exiting n c).rd (fDom n) = 3 ∧ (d.exiting n c).rd (fDomStep n) = 6 ∧
    (d.exiting n c).rd (fLastWake n) = c := by
  have hfits : (fLastWake n).fits c = true := decide_eq_true hc
  unfold Device.exiting
  refine ⟨?_, ?_, rd_wr_fits hfits _⟩
  · rw [rd_wr_disjoint (f := fLastWake n) rfl, rd_wr_disjoint (f := fTarget n) rfl, rd_wr_disjoint (f := fDomReady n) rfl,
      rd_wr_disjoint (f := fDomStep n) rfl, rd_wr_fits rfl]
  · rw [rd_wr_disjoint (f := fLastWake n) rfl, rd_wr_disjoint (f := fTarget n) rfl, rd_wr_disjoint (f := fDomReady n) rfl, rd_wr_fits rfl]

/-- A WAKE at a port in RET starts its exit, with the port's wake source shown as LINK until the first frame (R305; log entry 110). -/
theorem wakeArrive_ret {k : Packet} {d : Device} (hret : d.rd (fDom (64 + k.port)) = 1) (haon : d.domOn 79 = true) (htrip : d.thermTrip = false) :
    wakeArrive k d = ((d.exiting (64 + k.port) 9).wr (fWakeSrc k.port) 1).modPort k.port (fun x => { x with wakeFirst := true }) := by
  have hdeaf : d.portHears k.port = false := by simp [Device.portHears, Device.domOn, hret]
  have hport : 64 + k.port.val < 72 := by omega
  simp [wakeArrive, frame, hdeaf, unheard, hret, wakeDom, wakeOne, haon, htrip, startExit, hport, Device.exiting]

theorem wakeArrive_on {k : Packet} {d : Device} (hport : d.portHears k.port = true) (hfirst : (d.port k.port).wakeFirst = false)
    (hok : frameOk d k = true) : wakeArrive k d = takePn d k.port k.pn.toNat := frame_heard hport hfirst hok true id

-- Neighbor Solicitations.

theorem portIp_takePn (d : Device) (n pn m : Nat) : (takePn d n pn).portIp m = d.portIp m := by simp [Device.portIp]

section
variable {d : Device} {n target : Nat} {x : FrameFind} (hport : d.portHears n = true) (hfirst : (d.port n).wakeFirst = false)
include hport hfirst

/-- A solicitation for the port's own address is answered, under MACsec on a port that it secures (R284, R322). -/
theorem solicit_own (hown : target = d.rd (fPortIpHi n) * 2 ^ 64 + d.rd (fPortIpLo n)) (hmode : d.rd fMode ≠ 1) (hfcs : x.fcsOk = true)
    (hsec : secOk d n x.secTag x.pn.toNat = true) :
    let mac := d.rd (fPortMac n)
    let v := (takePn d n x.pn.toNat).takeSec n x.srcMac (BitVec.ofNat 48 mac) (Config.advertBytes mac (d.portIp n))
    solicit n target x d = v.2.emit (.advert n v.1) := by
  simp [solicit, hport, firstFrame, hfirst, hfcs, hsec, hown, hmode, portIp_takePn]

/-- Outside ADMITTED a damaged solicitation, or one for another address, is dropped and counted once. -/
theorem solicit_dropped (hmode : d.rd fMode ≠ 0) (hbad : x.fcsOk = false ∨ target ≠ d.rd (fPortIpHi n) * 2 ^ 64 + d.rd (fPortIpLo n)) :
    solicit n target x d = d.inc (fDrops n) := by
  have hsec : secOk d n x.secTag x.pn.toNat = true := by simp [secOk, hmode]
  have hicv : icvCount d n x.secTag = d := by simp [icvCount, hmode]
  cases hfcs : x.fcsOk with
  | false => simp [solicit, hport, firstFrame, hfirst, hfcs, hicv, dropFrame]
  | true =>
    have hother : target ≠ d.rd (fPortIpHi n) * 2 ^ 64 + d.rd (fPortIpLo n) := hbad.resolve_left (by simp [hfcs])
    simp [solicit, hport, firstFrame, hfirst, hfcs, hsec, takePn_of_mode hmode, hother, dropFrame, -Nat.reducePow]

/-- In ADMITTED one without SecTAG is an ICV failure beside (log entry 64). -/
theorem solicit_untagged (hmode : d.rd fMode = 0) (htag : x.secTag = false) :
    solicit n target x d = (d.inc (fIcvFail n)).inc (fDrops n) := by
  simp [solicit, hport, firstFrame, hfirst, secOk, hmode, htag, icvCount, dropFrame]

end

theorem solicitMgt_up {d : Device} (h : d.mgtUp = true) (target : Nat) :
    solicitMgt target true d = if d.mgtAddr target then d.emit (.advert 8 none) else d := by simp [solicitMgt, occurs, h]

-- Links.

theorem regs_sendHello (d : Device) (n : Nat) : (sendHello d n).regs = d.regs := by
  unfold sendHello
  split
  · rfl
  · exact emitPacket_regs _ _ _ _ _ _ _

/-- A port whose link is UP, in its plane or direct (R281, R287). -/
def Device.linkedUp (d : Device) (n : Nat) : Device :=
  (((d.wr (fLink n) 2).wr (fFecLock n) 1).wr (fRate n) (d.rd (fCfgRate n))).wr (fRole n) (if d.isDirect n then 2 else n / 4)
/-- The same port, advertised where it is ON and does not drain (R288). -/
def Device.trained (d : Device) (n : Nat) : Device :=
  (d.linkedUp n).wr (fAdvertised n) (if d.domOn (64 + n) && !(d.port n).draining then 1 else 0)

theorem rd_trained (d : Device) (n : Nat) : (d.trained n).rd (fLink n) = 2 ∧ (d.trained n).rd (fFecLock n) = 1 ∧
    (d.trained n).rd (fAdvertised n) = (if d.domOn (64 + n) && !(d.port n).draining then 1 else 0) := by
  unfold Device.trained Device.linkedUp
  refine ⟨?_, ?_, rd_wr_fits (by split <;> rfl) _⟩
  · rw [rd_wr_disjoint (f := fAdvertised n) rfl, rd_wr_disjoint (f := fRole n) rfl, rd_wr_disjoint (f := fRate n) rfl,
      rd_wr_disjoint (f := fFecLock n) rfl, rd_wr_fits rfl]
  · rw [rd_wr_disjoint (f := fAdvertised n) rfl, rd_wr_disjoint (f := fRole n) rfl, rd_wr_disjoint (f := fRate n) rfl, rd_wr_fits rfl]

theorem domOn_linkedUp (d : Device) (n : Nat) : (d.linkedUp n).domOn (64 + n) = d.domOn (64 + n) := by
  have haddr {f : Fld} (hf : f.addr = 0x80400 + 8 * n) : f.addr ≠ (fDom (64 + n)).addr := by simp only [hf, fDom]; omega
  unfold Device.domOn Device.linkedUp
  rw [rd_wr_addr (haddr rfl), rd_wr_addr (haddr rfl), rd_wr_addr (haddr rfl), rd_wr_addr (haddr rfl)]

theorem linkUp_trained {d : Device} {n : Nat} (hdown : d.rd (fLink n) ≠ 2) (hen : d.rd (fEnable n) ≠ 0) (hfail : (d.port n).failed = false)
    (hcheck : d.outOfService [9] n = false) (hdom : d.rd (fDom (64 + n)) ≠ 2) :
    linkUp n d = sendHello (if (d.trained n).rd fMode = 0 then (d.trained n).wr (fMacsec n) 1 else d.trained n) n := by
  unfold linkUp Device.trained
  rw [if_neg (by simp [hdown, hen, hfail, hcheck, hdom]), ← domOn_linkedUp]
  rfl

/-- The end of training reads in NET_PORT_STAT as it is written, for MACsec's state and a HELLO stand elsewhere. -/
theorem rd_linkUp {d : Device} {n : Nat} (hdown : d.rd (fLink n) ≠ 2) (hen : d.rd (fEnable n) ≠ 0) (hfail : (d.port n).failed = false)
    (hcheck : d.outOfService [9] n = false) (hdom : d.rd (fDom (64 + n)) ≠ 2) {g : Fld} (hg : g.addr = 0x80400 + 8 * n) :
    (linkUp n d).rd g = (d.trained n).rd g := by
  rw [linkUp_trained hdown hen hfail hcheck hdom, rd_of_reg (reg_of_regs (regs_sendHello _ _) _)]
  split
  · exact rd_wr_addr (by simp only [hg, fMacsec]; omega) _ _
  · rfl

theorem rd_dropLink (d : Device) (n : Nat) : (dropLink d n).rd (fLink n) = 0 ∧ (dropLink d n).rd (fEnable n) = d.rd (fEnable n) := by
  have hmac (e : Device) {g : Fld} (hg : g.addr ≠ (fMacsec n).addr) :
      (if e.rd (fMacsec n) = 2 then e.wr (fMacsec n) 1 else e).rd g = e.rd g := by
    split
    · exact rd_wr_addr hg.symm _ _
    · rfl
  have hlink : (fLink n).addr ≠ (fMacsec n).addr := by simp only [fMacsec, fLink]; omega
  have hen : (fEnable n).addr ≠ (fMacsec n).addr := by simp only [fMacsec, fEnable]; omega
  have henable {f : Fld} (hf : f.addr = 0x80400 + 8 * n) : f.addr ≠ (fEnable n).addr := by simp only [hf, fEnable]; omega
  unfold dropLink
  dsimp only
  constructor
  · rw [rd_notePorts, rd_modPort, hmac _ hlink, rd_wr_disjoint (f := fNeighbour n) rfl,
      rd_wr_disjoint (f := fAdvertised n) rfl, rd_wr_disjoint (f := fFecLock n) rfl, rd_wr_fits rfl]
  · rw [rd_notePorts, rd_modPort, hmac _ hen, rd_wr_addr (henable rfl), rd_wr_addr (henable rfl),
      rd_wr_addr (henable rfl), rd_wr_addr (henable rfl)]

theorem linkDown_up {d : Device} {n : Nat} (h : d.rd (fLink n) = 2) : linkDown n d = (if d.rd (fEnable n) = 1 then
    errorCheck (dropLink d n) { mkRec 0 9 2 (n + 0xFF * 256) with detail := (dropLink d n).rd (fFecUncorr n) } else dropLink d n) := by
  rw [← (rd_dropLink d n).2]
  unfold linkDown
  rw [if_neg (by simp [h])]

-- Drains and FEC errors.

/-- With every packet that went through the port acknowledged the drain waits only for a flow with no other path (R288). -/
theorem drainDone_acked {d : Device} {n : Nat} (hdrain : (d.port n).draining = true)
    (hacked : ∀ e ∈ d.flows, ∀ u ∈ e.2.unacked, ∀ k ∈ u.tried, pathPort k ≠ n) : drainDone n d =
      if d.onlyPath n then countRefusal d (64 + n) .net else d.modPort n (fun x => { x with draining := false }) := by
  have hout : d.flows.any (fun e => e.2.unacked.any (fun u => u.tried.any (fun k => decide (pathPort k = n)))) = false := by
    simpa using hacked
  simp [drainDone, hdrain, hout]

theorem staged_fecBurst {d : Device} {n : Nat} (hport : d.portHears n = true) (hchecks : d.checks = []) : ∃ r,
    (fecBurst n d).staged = d.staged ++ [r] ∧ r.cls = 0 ∧ r.source = 9 ∧ r.kind = 1 ∧ r.unit = n + 0xFF * 256 ∧ r.verdict = 1 := by
  unfold fecBurst
  simp only [hport, Bool.not_true, Bool.false_eq_true, if_false]
  exact ⟨_, staged_errorCheck (by rw [inc_checks, hchecks]) _, rfl, rfl, rfl, rfl, rfl⟩

-- MKA.

section
variable {d : Device} {n : Nat} (hmode : d.rd fMode = 0) (hlink : d.rd (fLink n) = 2) (hmac : d.rd (fMacsec n) ≠ 0)
include hmode hlink hmac

/-- An agreement under the CAK secures the port in ADMITTED, which then sends the HELLO it owes (R287, R322; log entry 138). -/
theorem mkaFrame_agreed {x : MkaPdu} (hcak : d.rd fCakSet = 1) (hx : x.agreed = true) :
    let k := d.newSak n x
    let e := (k.2.modPort n (fun y => { y with rxPn := 1, txPn := 1, sak := k.1 })).wr (fMacsec n) 2
    mkaFrame n true x d = if d.rd (fMacsec n) = 2 then e else sendHello e n := by
  simp [mkaFrame, hmode, hlink, hmac, hcak, hx]

theorem mkaFrame_forged (x : MkaPdu) : mkaFrame n false x d = d.inc (fIcvFail n) := by
  simp [mkaFrame, hmode, hlink, hmac]

end

/-- Settles O40: each event by the lemma that says what it makes of its port. -/
theorem portsAndNeighbours : Obligations.PortsAndNeighbours := by
  unfold Obligations.PortsAndNeighbours
  refine ⟨fun k s => ⟨fun hport hfirst hok hdirect => ?hello, fun hret haon htrip => ?woken, fun hport hfirst hok => ?awake⟩,
    fun n target ok secTag pn s hport hfirst => ⟨fun hown hmode hsec src => ?answered, fun hmode hbad src => ?dropped, fun hmode src => ?untagged⟩,
    fun target secTag pn src s hup => ?management,
    fun n s => ⟨fun hdown hen hfail hcheck hdom => ?up, fun hlink => ?down, fun hdrain hacked => ⟨fun hother => ?drained, fun honly => ?refused⟩,
      fun hport hchecks => ?fec, fun hmode hlink hmac => ⟨fun hcak x hx => ?agreed, fun x => ?forged⟩⟩⟩
  case hello => rw [exec_chindHello, helloArrive_direct hport hfirst hok hdirect]
  case woken =>
    obtain ⟨hdom, hstep, hlast⟩ := rd_exiting s.dev (64 + k.port) (show 9 < 256 by decide)
    have hsrc {g : Fld} (hg : g.addr = 0x20100 + 8 * (64 + k.port)) (e : Device) : (e.wr (fWakeSrc k.port) 1).rd g = e.rd g :=
      rd_wr_addr (by simp only [hg, fWakeSrc]; omega) e 1
    refine ⟨_, exec_chindWake k s, ?_⟩
    rw [wakeArrive_ret hret haon htrip, rd_modPort, rd_modPort, rd_modPort, rd_modPort]
    exact ⟨(hsrc rfl _).trans hdom, (hsrc rfl _).trans hstep, (hsrc rfl _).trans hlast, rd_wr_fits rfl _⟩
  case awake => rw [exec_chindWake, wakeArrive_on hport hfirst hok]
  case answered =>
    rw [exec_neighborSolicitation, if_neg (by simp; omega)]
    exact congrArg (fun d => Host.Outcome.next (s.withDev d)) (solicit_own (x := ⟨true, secTag, pn, src⟩) hport hfirst hown hmode rfl hsec)
  case dropped =>
    rw [exec_neighborSolicitation, if_neg (by simp; omega)]
    exact congrArg (fun d => Host.Outcome.next (s.withDev d)) (solicit_dropped (x := ⟨ok, secTag, pn, src⟩) hport hfirst hmode hbad)
  case untagged =>
    rw [exec_neighborSolicitation, if_neg (by simp; omega)]
    exact congrArg (fun d => Host.Outcome.next (s.withDev d)) (solicit_untagged (x := ⟨ok, false, pn, src⟩) hport hfirst hmode rfl)
  case management => rw [exec_neighborSolicitation, if_pos (show (8 : Fin 9).val = 8 from rfl), solicitMgt_up hup]
  case up =>
    obtain ⟨hup, hlock, hadv⟩ := rd_trained s.dev n
    have hrd {g : Fld} (hg : g.addr = 0x80400 + 8 * n.val) := rd_linkUp hdown hen hfail hcheck hdom hg
    exact ⟨_, exec_linkUp n s, (hrd rfl).trans hup, (hrd rfl).trans hlock, (hrd rfl).trans hadv⟩
  case down => exact ⟨by rw [exec_linkDown, linkDown_up hlink], (rd_dropLink _ _).1⟩
  case drained => rw [exec_portDrainDone, drainDone_acked hdrain hacked, if_neg (by simp [hother])]
  case refused => rw [exec_portDrainDone, drainDone_acked hdrain hacked, if_pos honly]
  case fec =>
    obtain ⟨r, hr⟩ := staged_fecBurst hport hchecks
    exact ⟨_, r, exec_portFecBurst n s, hr⟩
  case agreed => rw [exec_mka, mkaFrame_agreed hmode hlink hmac hcak hx]
  case forged => rw [exec_mka, mkaFrame_forged hmode hlink hmac]

end Sys2Proof.Machine
end

section
/-! SUPPORT. A packet that its flow context takes is opened, and what its header brings to a flow with nothing to send (R284, R299, R320, R321). -/
namespace Sys2Proof.Machine

-- Opening a packet.

/-- The envelope's check leaves of a context the epochs and the key slot last seen (R321). -/
def Flow.keyed (f : Flow) (es : List (Word × Nat)) (key : BitVec 16) : Flow := { f with epochs := es, keyIdx := key }

/-- The context after an envelope with a key in slot `num` has opened: it knows the sender's highest epoch, and that slot. -/
def Flow.opens (e : Envelope) (num : Nat) (f : Flow) : Flow :=
  if e.epoch.toNat < ((f.epochs.find? (fun x => decide (x.1 = e.sender))).map (·.2)).getD 0 then f
  else f.keyed ((e.sender, e.epoch.toNat) :: f.epochs.filter (fun x => !decide (x.1 = e.sender))) (BitVec.ofNat 16 num)

theorem opens_eq (e : Envelope) (num : Nat) (f : Flow) : ∃ es key, f.opens e num = f.keyed es key := by
  unfold Flow.opens
  split
  · exact ⟨f.epochs, f.keyIdx, rfl⟩
  · exact ⟨_, _, rfl⟩

/-- Opening a packet changes its payload alone. -/
theorem inside_eq (d : Device) (k : Packet) : ∃ bs, d.inside k = { k with payload := bs } := by
  unfold Device.inside
  split
  · exact ⟨k.payload, rfl⟩
  · unfold openPacket
    split <;> exact ⟨_, rfl⟩

section
variable {d : Device} {typ : Nat} {k : Packet} (h : d.takes typ k)
include h

/-- Opening the envelope of a packet that is taken hands on the opened packet. -/
theorem openEnvelope_of_takes (g : Packet → Device → Device) :
    openEnvelope typ k k.dstFlow.toNat g (takePn d k.port k.pn.toNat) = g (d.inside k) (d.unsealed typ k) := by
  obtain ⟨-, -, -, -, -, -, hopen⟩ := h
  by_cases hmode : d.rd fMode = 2
  · obtain ⟨e, s, henv, hts, hfields, hslot, hready, htag⟩ := hopen hmode
    have hinside : d.inside k = openPacket k (d.slotKeys s) := by
      simp [Device.inside, hmode, henv, hslot]
    rw [hinside] at htag ⊢
    simp [Device.unsealed, takePn_of_mode (show d.rd fMode ≠ 0 by omega), openEnvelope, hmode, henv, hts, hfields, hslot, hready, ← htag]
  · simp [Device.unsealed, openEnvelope, hmode, Device.inside]

theorem flowPacket_of_takes (g : Packet → Nat → Device → Device) :
    flowPacket typ k g d = g (d.inside k) k.dstFlow.toNat (d.unsealed typ k) := by
  obtain ⟨hport, hfirst, hok, hmode, hfree, hincarn, -⟩ := id h
  have hctx : ¬ ((d.flow k.dstFlow.toNat).st ≠ .listen ∧ k.incarn ≠ (d.flow k.dstFlow.toNat).incarn) := by
    rintro ⟨hl, hi⟩; exact hincarn.elim hl hi
  unfold flowPacket
  dsimp only
  rw [frame_heard hport hfirst hok]
  rw [rd_takePn, flow_takePn, if_neg hmode, if_neg (by simpa [hfree] using hctx)]
  exact openEnvelope_of_takes h fun k => g k _

/-- Outside SERVICE a packet that is taken leaves its number at the port, in SERVICE its epoch and key slot in the context. -/
theorem unsealed_of_takes : d.unsealed typ k = takePn d k.port k.pn.toNat ∨
    ∃ e num, d.unsealed typ k = d.modFlow k.dstFlow.toNat (Flow.opens e num) := by
  obtain ⟨-, -, -, -, -, -, hopen⟩ := h
  by_cases hmode : d.rd fMode = 2
  · obtain ⟨e, s, henv, hts, hfields, hslot, hready, htag⟩ := hopen hmode
    have hinside : d.inside k = openPacket k (d.slotKeys s) := by
      simp [Device.inside, hmode, henv, hslot]
    rw [hinside] at htag
    refine .inr ⟨e, s.num, ?_⟩
    simp [Device.unsealed, takePn_of_mode (show d.rd fMode ≠ 0 by omega), openEnvelope, hmode, henv, hts, hfields, hslot, hready, ← htag]
    rfl
  · exact .inl (by simp [Device.unsealed, openEnvelope, hmode])

theorem flow_unsealed : ∃ es key, (d.unsealed typ k).flow k.dstFlow.toNat = (d.flow k.dstFlow.toNat).keyed es key := by
  obtain hport | ⟨e, num, hopened⟩ := unsealed_of_takes h
  · exact ⟨_, _, by rw [hport, flow_takePn]; rfl⟩
  · rw [hopened, flow_modFlow_same]
    exact opens_eq e num _

theorem rd_unsealed (f : Fld) : (d.unsealed typ k).rd f = d.rd f := by
  obtain hport | ⟨e, num, hopened⟩ := unsealed_of_takes h
  · rw [hport, rd_takePn]
  · rw [hopened, rd_modFlow]

end

-- Sending on a flow that has nothing to send.

/-- A flow on which nothing waits and no CLOSE is due. -/
def Flow.quiet (f : Flow) : Prop := f.waiting = [] ∧ f.closeDue = false

theorem flow_pumpFlow_quiet {d : Device} {i : Nat} (h : (d.flow i).quiet) : (pumpFlow d i).flow i = d.flow i := by
  obtain ⟨hwait, hclose⟩ := h
  have hsame : (d.modFlow i (fun f => { f with waiting := [] })).flow i = d.flow i := by
    rw [flow_modFlow_same, ← hwait]
  have hgo : pumpGo i (d.flow i).waiting false false d = ([], d) := by rw [hwait]; rfl
  unfold pumpFlow
  simp only [hgo, hsame, hclose, Bool.false_and, Bool.false_eq_true, if_false]
  split
  · exact hsame
  · rfl

theorem flow_pump_quiet {d : Device} {i : Nat} (h : (d.flow i).quiet) : (pump d i).flow i = d.flow i := by
  unfold pump
  dsimp only
  rw [flow_pumpFlow_quiet h, if_neg (Nat.lt_irrefl _), flow_pumpFlow_quiet h]

/-- The registers that sending writes, SWATCH_BYTES.SENT of the partitions, stand at 0x58018 and above. -/
theorem rd_pump_low (d : Device) (i : Nat) {g : Fld} (hg : g.addr < 0x58018) : (pump d i).rd g = d.rd g :=
  rd_of_reg (reg_pump (fun p => by simp only [fSwSent]; omega) d i)

-- What a header brings.

theorem takeAck_uncovered {d : Device} {i : Nat} {ctrl : Bool} (ece : Bool) {ack sack : BitVec 32}
    (h : ∀ u ∈ (d.flow i).unacked, covers ctrl ack sack u = false) : takeAck i ctrl ece ack sack d = if ece then d.inc fEce else d := by
  have hnone : (d.flow i).unacked.filter (covers ctrl ack sack) = [] := List.filter_eq_nil_iff.mpr (by simpa using h)
  simp [takeAck, hnone]

/-- The far ports and the credit that a packet tells its flow (R288, R300). -/
def Flow.told (f : Flow) (k : Packet) : Flow :=
  { f with farPorts := k.ports, txCredit := if !bit k.flags.toNat 0 && below f.txCredit k.credit then k.credit else f.txCredit }

/-- The device once a packet has told its flow so, before the acknowledgement is looked at. -/
def Device.told (d : Device) (k : Packet) (i : Nat) : Device :=
  if (d.flow i).farPorts ≠ k.ports then notePorts (d.modFlow i (·.told k)) else d.modFlow i (·.told k)

theorem flow_told (d : Device) (k : Packet) (i : Nat) : (d.told k i).flow i = (d.flow i).told k := by
  unfold Device.told
  split
  · rw [flow_of_flows (flows_notePorts _), flow_modFlow_same]
  · exact flow_modFlow_same _ _ _

theorem rd_told (d : Device) (k : Packet) (i : Nat) (g : Fld) : (d.told k i).rd g = d.rd g := by
  unfold Device.told
  split
  · rw [rd_notePorts, rd_modFlow]
  · rfl

theorem takeHeader_eq (k : Packet) (i : Nat) (d : Device) : takeHeader k i d =
    pump (takeAck i (bit k.flags.toNat 0) (bit k.flags.toNat 1) k.ackPsn k.sack (d.told k i)) i := by
  unfold takeHeader Device.told
  simp only [decide_eq_true_eq]
  rfl

section
variable {k : Packet} {i : Nat} {d : Device} (hnone : ∀ u ∈ (d.flow i).unacked, covers (bit k.flags.toNat 0) k.ackPsn k.sack u = false)
include hnone

/-- A header that acknowledges nothing tells a quiet flow its far ports and its credit, and nothing else. -/
theorem flow_takeHeader_uncovered (hquiet : (d.flow i).quiet) : (takeHeader k i d).flow i = (d.flow i).told k := by
  have hacked : (takeAck i (bit k.flags.toNat 0) (bit k.flags.toNat 1) k.ackPsn k.sack (d.told k i)).flow i = (d.flow i).told k := by
    rw [takeAck_uncovered _ (by rw [flow_told]; exact hnone), ← flow_told]
    split <;> rfl
  rw [takeHeader_eq, flow_pump_quiet (by rw [hacked]; exact hquiet), hacked]

theorem mode_takeHeader_uncovered : (takeHeader k i d).rd fMode = d.rd fMode := by
  rw [takeHeader_eq, rd_pump_low _ _ (by decide), takeAck_uncovered _ (by rw [flow_told]; exact hnone), ← rd_told d k i]
  split
  · exact rd_wr_addr (by decide) _ _
  · rfl

end

-- An acknowledgement that covers something (R286, R299, R301).

/-- A flow after the round-trip sample and the path weights that an acknowledgement of the packets `us` brings. -/
def Flow.measured (f : Flow) (ece : Bool) (ecnEn x : Nat) (us : List TxPkt) : Flow :=
  let f := if us.any (fun u => !u.retx) then f.sample x else f
  if ecnEn = 1 then ((us.map (·.path)).dedup).foldl (fun f k => f.weigh ece k) f else f

/-- A flow of which the packets `us` are left to acknowledge. -/
def Flow.confirmed (f : Flow) (us : List TxPkt) : Flow :=
  { f with unacked := us, retries := 0, txUnack := ((us.find? (fun u => u.ctrl == false)).map (·.psn)).getD f.txNext }

/-- Flow `i` after the measurement that an acknowledgement brings. -/
def Device.measured (d : Device) (i : Nat) (ctrl ece : Bool) (ack sack : BitVec 32) : Flow :=
  let e := if ece then d.inc fEce else d
  (d.flow i).measured ece (e.rd fEcnEn) (Config.freeNat e.free % 2 ^ 32) ((d.flow i).unacked.filter (covers ctrl ack sack))

/-- The device once its flow has taken off what an acknowledgement covers. -/
def Device.confirmed (d : Device) (i : Nat) (ctrl ece : Bool) (ack sack : BitVec 32) : Device :=
  let e := if ece then d.inc fEce else d
  let f := (d.measured i ctrl ece ack sack).confirmed ((d.flow i).unacked.filter (fun u => !covers ctrl ack sack u))
  { e.setFlow i { f with rto := rtoOf e f } with free := e.free + 1 }

/-- What a measurement changes of a flow. -/
theorem measured_eq (f : Flow) (ece : Bool) (ecnEn x : Nat) (us : List TxPkt) :
    ∃ a b w c, f.measured ece ecnEn x us = { f with srtt := a, rttvar := b, weights := w, clean := c } := by
  have hsample : ∃ a b, (if us.any (fun u => !u.retx) then f.sample x else f) = { f with srtt := a, rttvar := b } := by
    split
    · unfold Flow.sample
      split <;> exact ⟨_, _, rfl⟩
    · exact ⟨f.srtt, f.rttvar, rfl⟩
  have hweigh (f : Flow) (k : Nat) : ∃ w c, f.weigh ece k = { f with weights := w, clean := c } := by
    unfold Flow.weigh
    dsimp only
    split
    · exact ⟨_, _, rfl⟩
    · split
      · exact ⟨_, _, rfl⟩
      · exact ⟨f.weights, _, rfl⟩
  have hpaths (ks : List Nat) (f : Flow) : ∃ w c, ks.foldl (fun f k => f.weigh ece k) f = { f with weights := w, clean := c } := by
    induction ks generalizing f with
    | nil => exact ⟨f.weights, f.clean, rfl⟩
    | cons k ks ih =>
      obtain ⟨w, c, hk⟩ := hweigh f k
      obtain ⟨w', c', hks⟩ := ih (f.weigh ece k)
      exact ⟨w', c', by rw [List.foldl_cons, hks, hk]⟩
  obtain ⟨a, b, hab⟩ := hsample
  unfold Flow.measured
  dsimp only
  rw [hab]
  split
  · obtain ⟨w, c, hwc⟩ := hpaths (us.map (·.path)).dedup { f with srtt := a, rttvar := b }
    exact ⟨a, b, w, c, hwc⟩
  · exact ⟨a, b, f.weights, f.clean, rfl⟩

/-- Who a flow is bound to: its state, the far context, and a CLOSE that waits. -/
def Flow.bond (f : Flow) : FlowSt × BitVec 16 × Option (BitVec 32) := (f.st, f.peerFlow, f.closeAt)

section
variable {d : Device} {i : Nat} {ctrl : Bool} (ece : Bool) {ack sack : BitVec 32}

theorem flow_confirmed : let f := (d.confirmed i ctrl ece ack sack).flow i
    f.unacked = (d.flow i).unacked.filter (fun u => !covers ctrl ack sack u) ∧ f.retries = 0 ∧ f.waiting = (d.flow i).waiting ∧
      f.closeDue = (d.flow i).closeDue ∧ f.bond = (d.flow i).bond := by
  have hflow : ∃ r, (d.confirmed i ctrl ece ack sack).flow i =
      { (d.measured i ctrl ece ack sack).confirmed ((d.flow i).unacked.filter (fun u => !covers ctrl ack sack u)) with rto := r } :=
    ⟨_, flow_setFlow_same _ _ _⟩
  have hmeasured : ∃ a b w c, d.measured i ctrl ece ack sack = { d.flow i with srtt := a, rttvar := b, weights := w, clean := c } :=
    measured_eq _ _ _ _ _
  obtain ⟨r, hr⟩ := hflow
  obtain ⟨a, b, w, c, hm⟩ := hmeasured
  rw [hr, hm]
  exact ⟨rfl, rfl, rfl, rfl, rfl⟩

variable (hst : (d.flow i).st ≠ .closing)
include hst

/-- An acknowledgement of packets that were sent takes them off, and what it shows lost goes again; a flow that is not CLOSING stays. -/
theorem takeAck_covered (hgot : (d.flow i).unacked.filter (covers ctrl ack sack) ≠ [])
    (hnew : ((if ctrl then (d.flow i).ctlTxNext else (d.flow i).txNext) - ack).toNat < 2 ^ 31) :
    ∃ us ⊆ (d.flow i).unacked.filter (fun u => !covers ctrl ack sack u),
      takeAck i ctrl ece ack sack d = pump (us.foldl (fun d u => retransmit d i u) (d.confirmed i ctrl ece ack sack)) i := by
  have hmeasured : ∃ a b w c, d.measured i ctrl ece ack sack = { d.flow i with srtt := a, rttvar := b, weights := w, clean := c } :=
    measured_eq _ _ _ _ _
  have hopen : (d.measured i ctrl ece ack sack).st ≠ .closing := by
    obtain ⟨a, b, w, c, hm⟩ := hmeasured
    rw [hm]; exact hst
  have hstays : ¬ (decide ((d.measured i ctrl ece ack sack).st = .closing) &&
      ((d.flow i).unacked.filter (covers ctrl ack sack)).any (fun u => decide (u.typ = 7))) = true := by simp [hopen]
  refine ⟨((d.flow i).unacked.filter (fun u => !covers ctrl ack sack u)).filter (fun u => (u.ctrl == ctrl) && decide (16 ≤ aboveCount ack sack u)),
    List.filter_sublist.subset, ?_⟩
  unfold takeAck
  rw [if_neg (by simpa only [Bool.or_eq_true, decide_eq_true_eq, hgot, false_or, not_le] using hnew)]
  exact if_neg hstays

/-- An acknowledgement leaves a flow that is not CLOSING bound as it was. -/
theorem bond_takeAck : ((takeAck i ctrl ece ack sack d).flow i).bond = (d.flow i).bond := by
  by_cases hnew : ((if ctrl then (d.flow i).ctlTxNext else (d.flow i).txNext) - ack).toNat < 2 ^ 31
  · by_cases hgot : (d.flow i).unacked.filter (covers ctrl ack sack) = []
    · rw [takeAck_uncovered ece (by simpa using List.filter_eq_nil_iff.mp hgot)]
      split <;> rfl
    · obtain ⟨us, -, htake⟩ := takeAck_covered ece hst hgot hnew
      obtain ⟨-, -, -, -, hbond⟩ := flow_confirmed (d := d) (i := i) (ctrl := ctrl) (ack := ack) (sack := sack) ece
      have hsent := (lasting_pump _ i).trans (foldl_keeps Device.lasting (fun d u => retransmit d i u)
        (fun d u => (lasting_flowKeeps i).retransmit d u) us (d.confirmed i ctrl ece ack sack))
      rw [htake, lasting_field hsent Flow.bond, hbond]
  · have hold : takeAck i ctrl ece ack sack d = if ece then d.inc fEce else d := by
      unfold takeAck
      rw [if_pos (by rw [Bool.or_eq_true]; exact .inr (decide_eq_true (Nat.le_of_not_lt hnew)))]
    rw [hold]
    split <;> rfl

end

end Sys2Proof.Machine
end

section
/-! PROOF. Packets act on the flow they reach (R284, R293, R296, R298 to R302, R321). -/
namespace Sys2Proof.Machine

theorem exec_chindData (k : Packet) (s : State) : exec (.chindData k) s = .next (s.withDev (chindData k s.dev)) := rfl
theorem exec_chindAck (k : Packet) (s : State) : exec (.chindAck k) s = .next (s.withDev (chindAck k s.dev)) := rfl
theorem exec_chindProbe (k : Packet) (s : State) : exec (.chindProbe k) s = .next (s.withDev (chindProbe k s.dev)) := rfl
theorem exec_chindOpen (k : Packet) (s : State) : exec (.chindOpen k) s = .next (s.withDev (chindOpen k s.dev)) := rfl
theorem exec_chindOpenAck (k : Packet) (s : State) : exec (.chindOpenAck k) s = .next (s.withDev (chindOpenAck k s.dev)) := rfl
theorem exec_chindOpenNak (k : Packet) (s : State) : exec (.chindOpenNak k) s = .next (s.withDev (chindOpenNak k s.dev)) := rfl
theorem exec_chindClose (k : Packet) (s : State) : exec (.chindClose k) s = .next (s.withDev (chindClose k s.dev)) := rfl

theorem live_of_opened {d : Device} {i : Nat} (h : (d.flow i).st = .opened) : d.live i = true := by simp [Device.live, h]

-- DATA in its turn (R298, R300).

theorem out_sendBare (d : Device) (i typ : Nat) (ctrl : Bool) : d.out <+: (sendBare d i typ ctrl).out := by
  unfold sendBare
  dsimp only
  split
  · exact List.prefix_refl _
  · exact out_transmit _ _ _ _ _ _ _ _

theorem out_oweAck (d : Device) (i : Nat) (ctrl ce now : Bool) : d.out <+: (oweAck d i ctrl ce now).out := by
  have hsend (e : Device) (c : Bool) (he : e.out = d.out) : d.out <+: (if c then sendBare e i 2 ctrl else e).out := by
    cases c
    · exact he ▸ List.prefix_refl _
    · exact he ▸ out_sendBare e i 2 ctrl
  exact hsend (d.modFlow i _) _ rfl

/-- No PSN that is expected follows from the credit granted. -/
theorem expect_credited (d : Device) (i j : Nat) (c : BitVec 32) (ctrl : Bool) :
    ((d.setFlow i { d.flow i with rxCredit := c }).flow j).expect ctrl = (d.flow j).expect ctrl := by
  by_cases hj : j = i
  · subst hj; rw [flow_setFlow_same]; rfl
  · rw [flow_setFlow_other d _ hj]

/-- Granting credit delivers nothing and changes no PSN that is expected. -/
theorem rotate_keeps (die n : Nat) (d : Device) (j : Nat) (ctrl : Bool) :
    ((rotate die n d).flow j).expect ctrl = (d.flow j).expect ctrl ∧ (rotate die n d).out = d.out := by
  induction n generalizing d with
  | zero => exact ⟨rfl, rfl⟩
  | succ n ih =>
    unfold rotate
    split
    · exact ⟨rfl, rfl⟩
    · split
      · exact ⟨(ih _).1.trans (expect_credited _ _ j _ ctrl), (ih _).2⟩
      · exact ⟨rfl, rfl⟩

theorem regrant_keeps (d : Device) (i j : Nat) (ctrl : Bool) :
    ((regrant d i).flow j).expect ctrl = (d.flow j).expect ctrl ∧ (regrant d i).out = d.out := by
  unfold regrant
  dsimp only
  split
  · exact ⟨(rotate_keeps _ _ _ j ctrl).1.trans (expect_credited _ _ j _ ctrl), (rotate_keeps _ _ _ j ctrl).2⟩
  · exact rotate_keeps _ _ _ j ctrl

/-- With nothing held and no CLOSE waiting there is nothing to drain. -/
theorem drainSpace_none {d : Device} {i : Nat} (hheld : (d.flow i).held = []) (hclose : (d.flow i).closeAt = none) (ctrl : Bool) :
    drainSpace d i ctrl = d := by
  have hsettled : settleClose d i = d := by simp [settleClose, hclose]
  simp [drainSpace, hheld, drainHeld, hsettled]

/-- The device once its flow has delivered the message awaited. -/
def Device.handedOver (d : Device) (i : Nat) (ctrl : Bool) (bs : List Byte) : Device :=
  (d.setFlow i { ((d.flow i).expectNext ctrl) with idle := false }).emit (.deliver (BitVec.ofNat 16 i) ctrl bs)

theorem flow_handedOver (d : Device) (i : Nat) (ctrl : Bool) (bs : List Byte) :
    (d.handedOver i ctrl bs).flow i = { ((d.flow i).expectNext ctrl) with idle := false } := flow_setFlow_same _ _ _

theorem takeData_inTurn {k : Packet} {i : Nat} {d : Device} (hmode : d.rd fMode = 2) (hst : (d.flow i).st = .opened) (hheld : (d.flow i).held = [])
    (hclose : (d.flow i).closeAt = none) (hpsn : k.psn = (d.flow i).expect (bit k.flags.toNat 0))
    (hcredit : bit k.flags.toNat 0 = true ∨ below k.psn (d.flow i).rxCredit = true) :
    takeData k i d =
      oweAck (regrant (d.handedOver i (bit k.flags.toNat 0) k.payload) i) i (bit k.flags.toNat 0) k.ce (bit k.flags.toNat 3) := by
  have hgap : (k.psn - (d.flow i).expect (bit k.flags.toNat 0)).toNat = 0 := by rw [hpsn, BitVec.sub_self]; rfl
  have hheld' : ((d.handedOver i (bit k.flags.toNat 0) k.payload).flow i).held = [] := by
    rw [flow_handedOver, ← hheld]; cases bit k.flags.toNat 0 <;> rfl
  have hclose' : ((d.handedOver i (bit k.flags.toNat 0) k.payload).flow i).closeAt = none := by
    rw [flow_handedOver, ← hclose]; cases bit k.flags.toNat 0 <;> rfl
  have hover : handOver (d.setFlow i { ((d.flow i).expectNext (bit k.flags.toNat 0)) with idle := false }) i (bit k.flags.toNat 0) k.payload =
      d.handedOver i (bit k.flags.toNat 0) k.payload := by simp [handOver, hmode, Device.handedOver]
  unfold takeData
  dsimp only
  rw [hgap, if_neg (by simp [hheld, hclose]), if_neg (by simp [hst]), if_neg (by rcases hcredit with h | h <;> simp [h]), if_pos rfl, hover,
    drainSpace_none hheld' hclose']

theorem takeData_delivers {k : Packet} {i : Nat} {d : Device} (hmode : d.rd fMode = 2) (hst : (d.flow i).st = .opened) (hheld : (d.flow i).held = [])
    (hclose : (d.flow i).closeAt = none) (hpsn : k.psn = (d.flow i).expect (bit k.flags.toNat 0))
    (hcredit : bit k.flags.toNat 0 = true ∨ below k.psn (d.flow i).rxCredit = true) :
    ((takeData k i d).flow i).expect (bit k.flags.toNat 0) = k.psn + 1 ∧
      .deliver (BitVec.ofNat 16 i) (bit k.flags.toNat 0) k.payload ∈ (takeData k i d).out := by
  rw [takeData_inTurn hmode hst hheld hclose hpsn hcredit]
  obtain ⟨hexpect, hout⟩ := regrant_keeps (d.handedOver i (bit k.flags.toNat 0) k.payload) i i (bit k.flags.toNat 0)
  refine ⟨?_, (out_oweAck _ _ _ _ _).subset ?_⟩
  · rw [lasting_field ((lasting_flowKeeps i).oweAck _ _ _ _) (fun f => f.expect (bit k.flags.toNat 0)), hexpect, flow_handedOver, hpsn]
    cases bit k.flags.toNat 0 <;> rfl
  · rw [hout]
    exact List.mem_append_right _ (List.mem_singleton.mpr rfl)

-- ACK (R299, R302).

theorem flow_takeHeader_covered {k : Packet} {i : Nat} {d : Device} (hst : (d.flow i).st = .opened) (hquiet : (d.flow i).quiet)
    (hsome : (d.flow i).unacked ≠ []) (hall : ∀ u ∈ (d.flow i).unacked, covers (bit k.flags.toNat 0) k.ackPsn k.sack u = true)
    (hnew : ((if bit k.flags.toNat 0 then (d.flow i).ctlTxNext else (d.flow i).txNext) - k.ackPsn).toNat < 2 ^ 31) :
    ((takeHeader k i d).flow i).unacked = [] ∧ ((takeHeader k i d).flow i).retries = 0 := by
  have htold := flow_told d k i
  have hgot : ((d.told k i).flow i).unacked.filter (covers (bit k.flags.toNat 0) k.ackPsn k.sack) ≠ [] := by
    rw [htold]
    exact (List.filter_eq_self.mpr hall).symm ▸ hsome
  have hrest : ((d.told k i).flow i).unacked.filter (fun u => !covers (bit k.flags.toNat 0) k.ackPsn k.sack u) = [] := by
    rw [htold]
    exact List.filter_eq_nil_iff.mpr fun u hu => by simp [hall u hu]
  obtain ⟨us, hus, htake⟩ := takeAck_covered (bit k.flags.toNat 1) (by rw [htold]; exact (by rw [hst]; decide : (d.flow i).st ≠ .closing)) hgot (by rw [htold]; exact hnew)
  obtain ⟨hunacked, hretries, hwait, hdue, -⟩ := flow_confirmed (d := d.told k i) (i := i) (ctrl := bit k.flags.toNat 0) (ack := k.ackPsn) (sack := k.sack)
    (bit k.flags.toNat 1)
  obtain ⟨hw, hc⟩ := hquiet
  have hstill : (((d.told k i).confirmed i (bit k.flags.toNat 0) (bit k.flags.toNat 1) k.ackPsn k.sack).flow i).quiet :=
    ⟨by rw [hwait, htold]; exact hw, by rw [hdue, htold]; exact hc⟩
  rw [hrest] at hus hunacked
  rw [List.subset_nil.mp hus, List.foldl_nil] at htake
  rw [takeHeader_eq, htake, flow_pump_quiet (by rw [flow_pump_quiet hstill]; exact hstill), flow_pump_quiet hstill]
  exact ⟨hunacked, hretries⟩

/-- A flow whose PROBE an ACK of the data space answers (R302). -/
def Flow.answered (f : Flow) (ctrl : Bool) : Flow := if f.probing && !ctrl then { f with retries := 0, probing := false } else f

/-- The device once an ACK has answered its flow's PROBE. -/
def Device.answered (d : Device) (i : Nat) (ctrl : Bool) : Device := d.modFlow i (·.answered ctrl)

/-- The answer to a PROBE changes nothing of a flow but the expiries counted and that a PROBE is out. -/
theorem field_answered {γ : Type} (d : Device) (i : Nat) (ctrl : Bool) (g : Flow → γ)
    (hg : ∀ f, g { f with retries := 0, probing := false } = g f := by intro; rfl) : g ((d.answered i ctrl).flow i) = g (d.flow i) := by
  rw [Device.answered, flow_modFlow_same, Flow.answered]
  split
  · exact hg _
  · rfl

theorem flow_answered_idle {d : Device} {i : Nat} (h : (d.flow i).probing = false) (ctrl : Bool) : (d.answered i ctrl).flow i = d.flow i := by
  simp [Device.answered, Flow.answered, h]

-- OPEN at a listener (R293).

theorem openArrive_host {k : Packet} {p j : Nat} {d : Device} (hmode : d.rd fMode = 2) (hst : (d.flow p).st = .listen) (hkind : fld k.payload 0 1 ≤ 1)
    (hasks : openRefused d p k = false) (hnew : ∀ x ∈ d.flows, x.2.st = .opened → x.2.part = p → x.2.kind = fld k.payload 0 1 →
      x.2.peerFlow = k.srcFlow → x.2.incarn ≠ k.incarn) (hroom : d.hostFlows p < 256) (hfree : d.freeCtx 0 = some j) :
    openArrive k p d = acceptOpen d p j k := by
  have hsame : d.flows.find? (fun e => decide (e.2.st = .opened) && decide (e.2.part = p) && decide (e.2.kind = fld k.payload 0 1) &&
      decide (e.2.peerFlow = k.srcFlow) && decide (e.2.incarn = k.incarn) &&
      (decide (fld k.payload 0 1 ≠ 2) || decide (e.2.peerDev.toNat = fld k.payload 8 2))) = none := by
    refine List.find?_eq_none.mpr fun x hx => ?_
    simp only [Bool.and_eq_true, decide_eq_true_eq]
    rintro ⟨⟨⟨⟨⟨hopened, hpart⟩, hkinds⟩, hfar⟩, hincarn⟩, -⟩
    exact hnew x hx hopened hpart hkinds hfar hincarn
  have hhost : fld k.payload 0 1 ≠ 2 := by omega
  unfold openArrive
  dsimp only
  rw [if_neg (by simp [hmode]), if_neg (by simp [hst]), if_neg (by simp [hasks]), hsame]
  simp [hhost, hroom, hfree]

theorem lasting_sendOpenAck (d : Device) (i : Nat) : (sendOpenAck d i).lasting = d.lasting := by
  unfold sendOpenAck
  dsimp only
  rw [apply_ite Device.lasting, (lasting_flowKeeps i).sendNew, ite_self]

theorem flow_becomeOpen (d : Device) (i : Nat) : ∃ b c, (becomeOpen d i).flow i =
    { d.flow i with st := .opened, floor := b, rxCredit := c, retries := 0 } :=
  ⟨_, _, (flow_of_flows (flows_notePorts _) i).trans (flow_setFlow_same _ _ _)⟩

theorem flow_acceptOpen {k : Packet} (hhost : fld k.payload 0 1 ≠ 2) (d : Device) (p j : Nat) : let f := (acceptOpen d p j k).flow j
    f.st = .opened ∧ f.kind = fld k.payload 0 1 ∧ f.part = p ∧ f.peerFlow = k.srcFlow ∧ f.incarn = k.incarn := by
  have hsent (e : Device) : (pumpPeers (pump (sendOpenAck e j) j) p).lasting = e.lasting :=
    (lasting_pumpPeers _ _).trans ((lasting_pump _ _).trans (lasting_sendOpenAck _ _))
  unfold acceptOpen
  simp only [hhost, decide_false, Bool.false_and, Bool.false_eq_true, if_false]
  rw [lasting_field (hsent _) Flow.st, lasting_field (hsent _) Flow.kind, lasting_field (hsent _) Flow.part, lasting_field (hsent _) Flow.peerFlow,
    lasting_field (hsent _) Flow.incarn]
  obtain ⟨b, c, hopen⟩ := flow_becomeOpen _ j
  rw [hopen, flow_setFlow_same]
  exact ⟨rfl, rfl, rfl, rfl, rfl⟩

-- OPEN_ACK (R296, R298).

theorem flows_handOver (d : Device) (i : Nat) (ctrl : Bool) (bs : List Byte) : (handOver d i ctrl bs).flows = d.flows := by
  unfold handOver
  split
  · split
    · split <;> rfl
    · rfl
  · rfl

theorem bond_expectNext (f : Flow) (ctrl : Bool) : (f.expectNext ctrl).bond = f.bond := by cases ctrl <;> rfl

/-- Delivering what was held leaves a flow bound as it was. -/
theorem bond_drainHeld (i : Nat) (ctrl : Bool) (n : Nat) (d : Device) : ((drainHeld i ctrl n d).flow i).bond = (d.flow i).bond := by
  induction n generalizing d with
  | zero => rfl
  | succ n ih =>
    unfold drainHeld
    dsimp only
    split
    · rfl
    · rw [ih]
      split
      · rw [flow_setFlow_same, bond_expectNext]; rfl
      · rw [flow_of_flows (flows_handOver _ _ _ _), flow_setFlow_same, bond_expectNext]; rfl

theorem bond_drainSpace {d : Device} {i : Nat} (h : (d.flow i).closeAt = none) (ctrl : Bool) :
    ((drainSpace d i ctrl).flow i).bond = (d.flow i).bond := by
  have hdrained := bond_drainHeld i ctrl (d.flow i).held.length d
  have hclose : ((drainHeld i ctrl (d.flow i).held.length d).flow i).closeAt = none := (congrArg (fun b => b.2.2) hdrained).trans h
  have hsettled : settleClose (drainHeld i ctrl (d.flow i).held.length d) i = drainHeld i ctrl (d.flow i).held.length d := by
    simp [settleClose, hclose]
  unfold drainSpace
  dsimp only
  rw [hsettled, bond_drainHeld, hdrained]

theorem bond_takeHeader (k : Packet) {d : Device} {i : Nat} (h : (d.flow i).st ≠ .closing) : ((takeHeader k i d).flow i).bond = (d.flow i).bond := by
  rw [takeHeader_eq, lasting_field (lasting_pump _ _) Flow.bond, bond_takeAck _ (by rw [flow_told]; exact h), flow_told]
  rfl

theorem bond_becomeOpen (d : Device) (i : Nat) : ((becomeOpen d i).flow i).bond = (.opened, (d.flow i).peerFlow, (d.flow i).closeAt) := by
  obtain ⟨b, c, hopen⟩ := flow_becomeOpen d i
  rw [hopen]
  rfl

/-- The device once OPEN_ACK has named the far context and its next PSN. -/
def Device.named (d : Device) (i : Nat) (k : Packet) : Device := d.setFlow i { d.flow i with peerFlow := k.srcFlow, ctlRxNext := k.psn + 1 }

theorem bond_named (d : Device) (i : Nat) (k : Packet) : ((d.named i k).flow i).bond = ((d.flow i).st, k.srcFlow, (d.flow i).closeAt) :=
  congrArg Flow.bond (flow_setFlow_same d i _)

/-- A flow whose OPEN is acknowledged. -/
def Flow.openHeard (f : Flow) : Flow := { f with unacked := f.unacked.filter (fun u => decide (u.typ ≠ 4)) }

theorem bond_openHeard (d : Device) (i : Nat) : ((d.modFlow i Flow.openHeard).flow i).bond = (d.flow i).bond := by
  rw [flow_modFlow_same]; rfl

theorem openAck_opening {k : Packet} {d : Device} {i : Nat} (hst : (d.flow i).st = .opening) : openAck k i d =
    pump (oweAck (drainSpace ((takeHeader k i (becomeOpen (d.named i k) i)).modFlow i Flow.openHeard) i true) i true k.ce (bit k.flags.toNat 3)) i :=
  if_neg (not_not_intro hst)

/-- OPEN_ACK leaves an OPENING flow with no CLOSE waiting OPEN to the far context that sent it. -/
theorem bond_openAck {k : Packet} {d : Device} {i : Nat} (hst : (d.flow i).st = .opening) (hclose : (d.flow i).closeAt = none) :
    ((openAck k i d).flow i).bond = (.opened, k.srcFlow, none) := by
  have hopen : ((becomeOpen (d.named i k) i).flow i).bond = (.opened, k.srcFlow, none) := by
    obtain ⟨-, hfar, hwaits⟩ : _ ∧ _ ∧ _ := by simpa only [Flow.bond, Prod.mk.injEq] using bond_named d i k
    rw [bond_becomeOpen, hfar, hwaits, hclose]
  have hstays : ((becomeOpen (d.named i k) i).flow i).st ≠ .closing := by
    rw [show ((becomeOpen (d.named i k) i).flow i).st = .opened from congrArg Prod.fst hopen]; decide
  have hacked : (((takeHeader k i (becomeOpen (d.named i k) i)).modFlow i Flow.openHeard).flow i).bond = (.opened, k.srcFlow, none) := by
    rw [bond_openHeard, bond_takeHeader k hstays, hopen]
  rw [openAck_opening hst, lasting_field ((lasting_pump _ _).trans ((lasting_flowKeeps i).oweAck _ _ _ _)) Flow.bond,
    bond_drainSpace (congrArg (fun b => b.2.2) hacked), hacked]

-- CLOSE (R296, R298).

theorem flow_closeArrive {k : Packet} {d : Device} {i : Nat} (hst : (d.flow i).st = .opened) (hun : (d.flow i).unacked = []) (hquiet : (d.flow i).quiet)
    (hheld : (d.flow i).held = []) (hclose : (d.flow i).closeAt = none) (hpsn : k.psn = (d.flow i).ctlRxNext) :
    ((closeArrive k i d).flow i).st = .closing ∧ ((closeArrive k i d).flow i).ctlRxNext = k.psn + 1 := by
  have hflow : (takeHeader k i d).flow i = (d.flow i).told k := flow_takeHeader_uncovered (by simp [hun]) hquiet
  have hgap : (k.psn - ((takeHeader k i d).flow i).ctlRxNext).toNat = 0 := by
    rw [hflow, hpsn]; exact congrArg BitVec.toNat (BitVec.sub_self _)
  have hst' : ((takeHeader k i d).flow i).st = .opened := by rw [hflow]; exact hst
  have hheld' : ((takeHeader k i d).flow i).held = [] := by rw [hflow]; exact hheld
  have hclose' : ((takeHeader k i d).flow i).closeAt = none := by rw [hflow]; exact hclose
  have hnext : ((takeHeader k i d).flow i).ctlRxNext = k.psn := by rw [hflow, hpsn]; rfl
  have hsettled : settleClose ((takeHeader k i d).setFlow i { (takeHeader k i d).flow i with closeAt := some k.psn }) i =
      leaveOpen (((takeHeader k i d).setFlow i { (takeHeader k i d).flow i with closeAt := some k.psn }).setFlow i
        { (({ (takeHeader k i d).flow i with closeAt := some k.psn } : Flow).expectNext true) with closeAt := none }) i .closing := by
    simp [settleClose, hst', hnext]
  unfold closeArrive
  dsimp only
  rw [if_neg (by simp [live_of_opened hst]), if_neg (by simp [live_of_opened hst']), if_neg (by simp [hgap, hheld', hclose']), if_pos hst', hsettled,
    lasting_field ((lasting_flowKeeps i).oweAck _ _ _ _) Flow.st, lasting_field ((lasting_flowKeeps i).oweAck _ _ _ _) Flow.ctlRxNext,
    flow_leaveOpen, flow_setFlow_same]
  exact ⟨rfl, congrArg (· + 1) hnext⟩

-- Each packet, from the wire to its flow.

/-- What the header of a packet says does not depend on its payload. -/
theorem inside_field {γ : Type} (d : Device) (k : Packet) (g : Packet → γ) (hg : ∀ k bs, g { k with payload := bs } = g k := by intros; rfl) :
    g (d.inside k) = g k := by
  obtain ⟨bs, hbs⟩ := inside_eq d k
  rw [hbs, hg]

section
variable {d : Device} {k : Packet} {typ : Nat}

/-- Opening a packet changes nothing of a flow but its key slot and the epochs seen. -/
theorem field_unsealed (h : d.takes typ k) {γ : Type} (g : Flow → γ) (hg : ∀ f es key, g (f.keyed es key) = g f := by intros; rfl) :
    g ((d.unsealed typ k).flow k.dstFlow.toNat) = g (d.flow k.dstFlow.toNat) := by
  obtain ⟨es, key, hflow⟩ := flow_unsealed h
  rw [hflow, hg]

theorem live_unsealed (h : d.takes typ k) (hst : (d.flow k.dstFlow.toNat).st = .opened ∨ (d.flow k.dstFlow.toNat).st = .closing) :
    (d.unsealed typ k).live k.dstFlow.toNat = true := by
  simpa [Device.live, field_unsealed h Flow.st] using hst

theorem chindData_live (h : d.takes 1 k) (hst : (d.flow k.dstFlow.toNat).st = .opened ∨ (d.flow k.dstFlow.toNat).st = .closing) :
    chindData k d = takeData (d.inside k) k.dstFlow.toNat (takeHeader (d.inside k) k.dstFlow.toNat (d.unsealed 1 k)) :=
  (flowPacket_of_takes h _).trans (if_pos (live_unsealed h hst))

theorem chindAck_live (h : d.takes 2 k) (hst : (d.flow k.dstFlow.toNat).st = .opened) : chindAck k d =
    takeHeader (d.inside k) k.dstFlow.toNat ((d.unsealed 2 k).answered k.dstFlow.toNat (bit k.flags.toNat 0)) := by
  have hflags : (d.inside k).flags = k.flags := inside_field d k Packet.flags
  refine (flowPacket_of_takes h _).trans ((if_pos (live_unsealed h (.inl hst))).trans ?_)
  rw [hflags]
  rfl

theorem quiet_answered (h : d.takes 2 k) (hquiet : (d.flow k.dstFlow.toNat).quiet) (ctrl : Bool) :
    (((d.unsealed 2 k).answered k.dstFlow.toNat ctrl).flow k.dstFlow.toNat).quiet := by
  obtain ⟨hwait, hdue⟩ := hquiet
  exact ⟨(field_answered _ _ _ Flow.waiting).trans ((field_unsealed h Flow.waiting).trans hwait),
    (field_answered _ _ _ Flow.closeDue).trans ((field_unsealed h Flow.closeDue).trans hdue)⟩

/-- An ACK of everything sent leaves nothing unacknowledged, and no expiry counted. -/
theorem chindAck_covered (h : d.takes 2 k) (hst : (d.flow k.dstFlow.toNat).st = .opened) (hquiet : (d.flow k.dstFlow.toNat).quiet)
    (hsome : (d.flow k.dstFlow.toNat).unacked ≠ [])
    (hall : ∀ u ∈ (d.flow k.dstFlow.toNat).unacked, covers (bit k.flags.toNat 0) k.ackPsn k.sack u = true)
    (hnew : ((if bit k.flags.toNat 0 then (d.flow k.dstFlow.toNat).ctlTxNext else (d.flow k.dstFlow.toNat).txNext) - k.ackPsn).toNat < 2 ^ 31) :
    ((chindAck k d).flow k.dstFlow.toNat).unacked = [] ∧ ((chindAck k d).flow k.dstFlow.toNat).retries = 0 := by
  have hflags : (d.inside k).flags = k.flags := inside_field d k Packet.flags
  have hack : (d.inside k).ackPsn = k.ackPsn := inside_field d k Packet.ackPsn
  have hsack : (d.inside k).sack = k.sack := inside_field d k Packet.sack
  have hunacked := (field_answered (d.unsealed 2 k) k.dstFlow.toNat (bit k.flags.toNat 0) Flow.unacked).trans (field_unsealed h Flow.unacked)
  have hnext := (field_answered (d.unsealed 2 k) k.dstFlow.toNat (bit k.flags.toNat 0) Flow.txNext).trans (field_unsealed h Flow.txNext)
  have hctl := (field_answered (d.unsealed 2 k) k.dstFlow.toNat (bit k.flags.toNat 0) Flow.ctlTxNext).trans (field_unsealed h Flow.ctlTxNext)
  rw [chindAck_live h hst]
  refine flow_takeHeader_covered ((field_answered _ _ _ Flow.st).trans ((field_unsealed h Flow.st).trans hst)) (quiet_answered h hquiet _) ?_ ?_ ?_
  · rw [hunacked]; exact hsome
  · rw [hunacked, hflags, hack, hsack]; exact hall
  · rw [hnext, hctl, hflags, hack]; exact hnew

/-- An ACK that covers nothing, of a flow with no PROBE out, leaves what is unacknowledged and the expiries counted. -/
theorem chindAck_uncovered (h : d.takes 2 k) (hst : (d.flow k.dstFlow.toNat).st = .opened) (hquiet : (d.flow k.dstFlow.toNat).quiet)
    (hprobe : (d.flow k.dstFlow.toNat).probing = false)
    (hnone : ∀ u ∈ (d.flow k.dstFlow.toNat).unacked, covers (bit k.flags.toNat 0) k.ackPsn k.sack u = false) :
    ((chindAck k d).flow k.dstFlow.toNat).unacked = (d.flow k.dstFlow.toNat).unacked ∧
      ((chindAck k d).flow k.dstFlow.toNat).retries = (d.flow k.dstFlow.toNat).retries := by
  have hflags : (d.inside k).flags = k.flags := inside_field d k Packet.flags
  have hack : (d.inside k).ackPsn = k.ackPsn := inside_field d k Packet.ackPsn
  have hsack : (d.inside k).sack = k.sack := inside_field d k Packet.sack
  have hunacked := (field_answered (d.unsealed 2 k) k.dstFlow.toNat (bit k.flags.toNat 0) Flow.unacked).trans (field_unsealed h Flow.unacked)
  have hidle := flow_answered_idle ((field_unsealed h Flow.probing).trans hprobe) (bit k.flags.toNat 0)
  rw [chindAck_live h hst, flow_takeHeader_uncovered (by rw [hunacked, hflags, hack, hsack]; exact hnone) (quiet_answered h hquiet _), hidle]
  exact ⟨field_unsealed h Flow.unacked, field_unsealed h Flow.retries⟩

theorem chindProbe_live (h : d.takes 3 k) (hst : (d.flow k.dstFlow.toNat).st = .opened ∨ (d.flow k.dstFlow.toNat).st = .closing) :
    chindProbe k d = probe k.dstFlow.toNat (takeHeader (d.inside k) k.dstFlow.toNat (d.unsealed 3 k)) :=
  (flowPacket_of_takes h _).trans (if_pos (live_unsealed h hst))

/-- OPEN_NAK: NOT_READY has the flow wait, another reason frees it, and loses the peer where the work item has met it (R296, R304). -/
theorem chindOpenNak_opening (h : d.takes 6 k) (hst : (d.flow k.dstFlow.toNat).st = .opening) : let i := k.dstFlow.toNat
    let e := d.unsealed 6 k
    let f := d.flow i
    chindOpenNak k d = if fld (d.inside k).payload 0 1 = 1 then e.modFlow i (fun f => { f with retries := 0 })
      else if f.waiting = [] ∧ (e.part f.part).meets f.peerDev.toNat = false then freeFlow e i
      else pumpPeers (losePeer (freeFlow e i) f.part f.peerDev.toNat) f.part := by
  refine (flowPacket_of_takes h _).trans ?_
  unfold openNak
  dsimp only
  rw [field_unsealed h Flow.st, field_unsealed h Flow.waiting, field_unsealed h Flow.part, field_unsealed h Flow.peerDev,
    if_neg (by simp [hst])]
  simp only [Bool.and_eq_true, decide_eq_true_eq, Bool.not_eq_true']

end

/-- Settles O39: `flowPacket_of_takes` hands each packet, opened, to its flow, and what the flow makes of it is said by the lemma of its type. -/
theorem packetsReachTheirFlow : Obligations.PacketsReachTheirFlow := by
  unfold Obligations.PacketsReachTheirFlow
  intro k s
  have hflags : (s.dev.inside k).flags = k.flags := inside_field s.dev k Packet.flags
  have hpsn : (s.dev.inside k).psn = k.psn := inside_field s.dev k Packet.psn
  have hfar : (s.dev.inside k).srcFlow = k.srcFlow := inside_field s.dev k Packet.srcFlow
  have hincarn : (s.dev.inside k).incarn = k.incarn := inside_field s.dev k Packet.incarn
  refine ⟨fun h hst => ?data, fun h hst hmode hun hwait hheld hdue hclose hturn hcredit => ?delivered,
    fun h hst hwait hdue hsome hall hnew => ?covered, fun h hst hwait hdue hprobe hnone => ?uncovered, fun h hst => ?probe,
    fun j h hst hmode hkind hasks hnew hroom hfree => ?opened, fun h hst hclose => ?openAck, fun h hst => ?openNak,
    fun h hst hun hwait hdue hheld hclose hturn => ?closed⟩
  case data => rw [exec_chindData, chindData_live h hst]
  case delivered =>
    have hquiet : ((s.dev.unsealed 1 k).flow k.dstFlow.toNat).quiet :=
      ⟨(field_unsealed h Flow.waiting).trans hwait, (field_unsealed h Flow.closeDue).trans hdue⟩
    have hnone : ((s.dev.unsealed 1 k).flow k.dstFlow.toNat).unacked = [] := (field_unsealed h Flow.unacked).trans hun
    have hflow := flow_takeHeader_uncovered (k := s.dev.inside k) (i := k.dstFlow.toNat) (d := s.dev.unsealed 1 k) (by simp [hnone]) hquiet
    have hmode' := (mode_takeHeader_uncovered (k := s.dev.inside k) (i := k.dstFlow.toNat) (d := s.dev.unsealed 1 k) (by simp [hnone])).trans ((rd_unsealed h fMode).trans hmode)
    obtain ⟨hexpect, hout⟩ := takeData_delivers (k := s.dev.inside k) hmode' (by rw [hflow]; exact (field_unsealed h Flow.st).trans hst)
      (by rw [hflow]; exact (field_unsealed h Flow.held).trans hheld) (by rw [hflow]; exact (field_unsealed h Flow.closeAt).trans hclose)
      (by rw [hflow, hflags, hpsn]; exact hturn.trans (field_unsealed h (fun f => f.expect (bit k.flags.toNat 0))).symm)
      (by rw [hflow, hflags, hpsn]; exact hcredit.imp_right ((congrArg (below k.psn) (field_unsealed h Flow.rxCredit)).trans ·))
    refine ⟨_, exec_chindData k s, ?_⟩
    rw [chindData_live h (.inl hst)]
    rw [hflags, BitVec.ofNat_toNat, BitVec.setWidth_eq] at hout
    rw [hflags, hpsn] at hexpect
    exact ⟨hexpect, hout⟩
  case covered => exact ⟨_, exec_chindAck k s, chindAck_covered h hst ⟨hwait, hdue⟩ hsome hall hnew⟩
  case uncovered => exact ⟨_, exec_chindAck k s, chindAck_uncovered h hst ⟨hwait, hdue⟩ hprobe hnone⟩
  case probe => rw [exec_chindProbe, chindProbe_live h hst]
  case opened =>
    have hmode' := (rd_unsealed h fMode).trans hmode
    have hst' := (field_unsealed h Flow.st).trans hst
    have hhost : fld (s.dev.inside k).payload 0 1 ≠ 2 := by omega
    have hopens := flow_acceptOpen hhost (s.dev.unsealed 4 k) k.dstFlow.toNat j
    rw [← openArrive_host hmode' hst' hkind hasks (by rw [hfar, hincarn]; exact hnew) hroom hfree, hfar, hincarn] at hopens
    exact ⟨_, exec_chindOpen k s, by rw [show chindOpen k s.dev = _ from flowPacket_of_takes h openArrive]; exact hopens⟩
  case openAck =>
    have hbond := bond_openAck (k := s.dev.inside k) ((field_unsealed h Flow.st).trans hst) ((field_unsealed h Flow.closeAt).trans hclose)
    rw [hfar] at hbond
    refine ⟨_, exec_chindOpenAck k s, ?_⟩
    rw [show chindOpenAck k s.dev = _ from flowPacket_of_takes h openAck]
    exact ⟨congrArg Prod.fst hbond, congrArg (fun b => b.2.1) hbond⟩
  case openNak => rw [exec_chindOpenNak, chindOpenNak_opening h hst]
  case closed =>
    have hcloses := flow_closeArrive (k := s.dev.inside k) ((field_unsealed h Flow.st).trans hst) ((field_unsealed h Flow.unacked).trans hun)
      ⟨(field_unsealed h Flow.waiting).trans hwait, (field_unsealed h Flow.closeDue).trans hdue⟩ ((field_unsealed h Flow.held).trans hheld)
      ((field_unsealed h Flow.closeAt).trans hclose) (hpsn.trans (hturn.trans (field_unsealed h Flow.ctlRxNext).symm))
    rw [hpsn] at hcloses
    exact ⟨_, exec_chindClose k s, by rw [show chindClose k s.dev = _ from flowPacket_of_takes h closeArrive]; exact hcloses⟩

end Sys2Proof.Machine
end

section
/-! PROOF. The machine at reset (R310, R362, R377, R413, R416). -/
namespace Sys2Proof.Machine

/-- A register nothing has written holds its reset value. -/
theorem reg_reset (a : Nat) : Device.reset.reg a = regReset a := rfl

/-- Every domain but D.AON stands OFF. -/
theorem regReset_dom {n : Nat} (h : n < 79) : regReset (fDom n).addr = 2#64 := by
  show regReset (0x20100 + 8 * n) = 2#64
  unfold regReset
  rw [if_neg (by omega), if_neg (by omega), if_neg (by omega), if_neg (by omega), if_pos (by omega)]

/-- Every channel of a stack stands ACTIVE. -/
theorem regReset_channels {x : Nat} (h : x < 32) : regReset (stkReg x 0x100) = 0 := by
  unfold stkReg regReset
  rw [if_neg (by omega), if_neg (by omega), if_neg (by omega), if_neg (by omega), if_neg (by omega), if_neg (by omega),
    if_neg (by omega), if_neg (by omega), if_neg (by omega), if_neg (by omega)]

theorem rd_reset_dom {n : Nat} (h : n < 80) : Device.reset.rd (fDom n) = if n = 79 then 0 else 2 := by
  unfold Device.rd
  rw [reg_reset]
  split
  · next hn => subst hn; rfl
  · rw [regReset_dom (by omega)]; simp [fDom, bits]

theorem ch_reset {x : Nat} (h : x < 32) (c : Nat) : Device.reset.ch x c = 0 := by
  show bits (Device.reset.reg (stkReg x 0x100)).toNat (2 * c + 1) (2 * c) = 0
  rw [reg_reset, regReset_channels h]
  simp [bits]

/-- Settles O59: every register is read at its reset value (`reg_reset`), and no table has an entry. -/
theorem resetState : Obligations.ResetState := by
  unfold Obligations.ResetState
  refine ⟨rfl, ⟨rfl, rfl⟩, ?meter, rfl, rfl, rfl, rfl, rfl, rfl, rfl, ?temps, fun n hn => rd_reset_dom hn, ?parts,
    fun x c hx _ => ch_reset hx c, fun _ => rfl⟩
  case meter => unfold Meter.sound; decide
  case temps => decide
  case parts => decide

end Sys2Proof.Machine
end

section
/-! SUPPORT. A Weneus request of an open session that passes every check before its own is answered by its own rule (R396 to R399). -/
namespace Sys2Proof.Machine

/-- The checks that come before a request's own read nothing that taking the request changes. -/
theorem gateCode_begun (d : Device) (m : WenMsg) (x : Sess) (typ : Nat) (roles : List Nat) (adm : Bool) :
    gateCode (d.begun m x) m x typ roles adm = gateCode d m x typ roles adm := rfl

/-- The reply is what the request's own rule answers to the decrypted message, the request outstanding. -/
theorem wenRequest_of_asked {d e : Device} {typ : Nat} {roles : List Nat} {adm : Bool} {m : WenMsg} {x : Sess} {code : Nat}
    {body : List Byte} {f : WenMsg → Sess → Device → Answer × Device} (h : d.asked typ roles adm m x)
    (hf : f (x.plain m) x (d.begun m x) = (some (code, body), e)) :
    wenRequest typ roles adm m f d = replyTo e x.id typ code body := by
  obtain ⟨hsess, hmgt, hver, hopen, hlen, htag, hseq, hlast, hgate⟩ := h
  have htaken : ¬ (!d.mgtTakes m || m.ver ≠ 1 || !x.opened || 4096 < m.body.length ||
      m.tag ≠ Config.gcmTag x.kcd (wenNonce x.id.toNat m.seq.toNat) (headerOf typ m) (x.plain m).body) = true := by
    simp [hmgt, hver, hopen, hlen, ← htag]
  have hnew : ¬ m.seq.toNat = x.seq := by omega
  have hturn : ¬ (m.seq.toNat ≠ x.seq + 1 || (x.last.isNone && x.seq ≠ 0)) = true := by
    rcases hlast with hlast | hlast
    · simp [hseq, Option.isSome_iff_ne_none.mp hlast]
    · simp [hseq, hlast]
  have hpass : ¬ gateCode (d.begun m x) m x typ roles adm ≠ 0 := not_not.mpr ((gateCode_begun d m x typ roles adm).trans hgate)
  unfold wenRequest
  rw [hsess]
  refine (if_neg htaken).trans ((if_neg hnew).trans ((if_neg hturn).trans ((if_neg hpass).trans ?_)))
  rw [show modSess d x.id _ = d.begun m x from rfl, hf]

end Sys2Proof.Machine
end

section
/-! PROOF. Weneus requests that read, and WRITE and LOG_CLEAR (R329, R363, R375, R400, R402). -/
namespace Sys2Proof.Machine

theorem exec_weneusRead (m : WenMsg) (s : State) : exec (.weneusRead m) s = .next (s.withDev (weneusRead m s.dev)) := rfl
theorem exec_weneusWrite (m : WenMsg) (s : State) : exec (.weneusWrite m) s = .next (s.withDev (weneusWrite m s.dev)) := rfl
theorem exec_telemetry (m : WenMsg) (s : State) : exec (.telemetry m) s = .next (s.withDev (telemetry m s.dev)) := rfl
theorem exec_logRead (m : WenMsg) (s : State) : exec (.logRead m) s = .next (s.withDev (logRead m s.dev)) := rfl
theorem exec_logClear (m : WenMsg) (s : State) : exec (.logClear m) s = .next (s.withDev (logClear m s.dev)) := rfl
theorem exec_meterRead (m : WenMsg) (s : State) : exec (.meterRead m) s = .next (s.withDev (meterRead m s.dev)) := rfl
theorem exec_getCert (m : WenMsg) (s : State) : exec (.getCert m) s = .next (s.withDev (getCert m s.dev)) := rfl
theorem exec_attest (m : WenMsg) (s : State) : exec (.attest m) s = .next (s.withDev (attest m s.dev)) := rfl

/-- Settles O53: each request is answered by its own rule (`wenRequest_of_asked`), whose checks pass. -/
theorem readRequests : Obligations.ReadRequests := by
  unfold Obligations.ReadRequests
  intro m s x
  refine ⟨fun h hlen hcode => ?read, fun h hlen hzero halign hblock hidle => ?write, fun h hbody => ?telemetry,
    fun h hlen hlow hhigh => ?logRead, fun h hbody => ?logClear, fun h hbody => ?meterRead, fun h hbody => ?getCert, fun h hcode => ?attest⟩
  case read =>
    rw [exec_weneusRead, weneusRead, wenRequest_of_asked h]
    dsimp only
    rw [if_pos hlen, hcode]
    exact if_neg (not_not.mpr rfl)
  case write =>
    rw [exec_weneusWrite, weneusWrite, wenRequest_of_asked h]
    dsimp only
    rw [if_neg (by simp [hlen, hzero, halign, hblock]), if_neg (by simpa [imp_iff_not_or] using hidle)]
    rfl
  case telemetry => rw [exec_telemetry, telemetry, wenRequest_of_asked h (if_neg (not_not.mpr hbody))]
  case logRead =>
    rw [exec_logRead, logRead, wenRequest_of_asked h (if_neg (by simp [within, hlen, hlow, hhigh]))]
  case logClear => rw [exec_logClear, logClear, wenRequest_of_asked h (if_neg (not_not.mpr hbody))]
  case meterRead => rw [exec_meterRead, meterRead, wenRequest_of_asked h (if_neg (not_not.mpr hbody))]
  case getCert => rw [exec_getCert, getCert, wenRequest_of_asked h (if_pos hbody)]
  case attest =>
    rw [exec_attest, attest, wenRequest_of_asked h]
    exact if_neg (not_not.mpr hcode)

end Sys2Proof.Machine
end

section
/-! PROOF. Weneus requests that install keys and firmware (R318, R322, R326, R394, R398, R401). -/
namespace Sys2Proof.Machine

theorem exec_keyInstall (m : WenMsg) (s : State) : exec (.keyInstall m) s = .next (s.withDev (keyInstall m s.dev)) := rfl
theorem exec_setRoleKey (m : WenMsg) (s : State) : exec (.setRoleKey m) s = .next (s.withDev (setRoleKey m s.dev)) := rfl
theorem exec_setCak (m : WenMsg) (s : State) : exec (.setCak m) s = .next (s.withDev (setCak m s.dev)) := rfl
theorem exec_raiseSvn (m : WenMsg) (s : State) : exec (.raiseSvn m) s = .next (s.withDev (raiseSvn m s.dev)) := rfl
theorem exec_fwBegin (m : WenMsg) (s : State) : exec (.fwBegin m) s = .next (s.withDev (fwBegin m s.dev)) := rfl
theorem exec_fwData (m : WenMsg) (s : State) : exec (.fwData m) s = .next (s.withDev (fwData m s.dev)) := rfl
theorem exec_fwEnd (m : WenMsg) (s : State) : exec (.fwEnd m) s = .next (s.withDev (fwEnd m s.dev)) := rfl

/-- The load that an FW_BEGIN's body asks for, none of its bytes there yet (R401). -/
def loadAsked (b : List Byte) : FwLoad :=
  { target := fld b 0 2, chind := decide (fld b 2 1 = 1), addr := BitVec.ofNat 128 (leNat ((b.drop 16).take 16).reverse),
    length := fld b 8 8, data := [] }

/-- The device once a load has begun in place of any before it; over Chind, flow context 0 listens (R401). -/
def Device.loading (d : Device) (b : List Byte) : Device :=
  let e : Device := { endLoad d with load := some (loadAsked b) }
  if fld b 2 1 = 1 then listen e 0 else e

theorem flow_listen (d : Device) (p : Nat) :
    (listen d p).flow p = { Flow.reset with st := .listen, kind := 3, part := p, peerDev := 0xFFFF } := flow_setFlow_same _ _ _

theorem load_loading (d : Device) (b : List Byte) : (d.loading b).load = some (loadAsked b) := by
  unfold Device.loading
  dsimp only
  split <;> rfl

theorem st_loading_chind {d : Device} {b : List Byte} (h : fld b 2 1 = 1) : ((d.loading b).flow 0).st = .listen := by
  unfold Device.loading
  dsimp only
  rw [if_pos h, flow_listen]

/-- Settles O54: each request is answered by its own rule (`wenRequest_of_asked`), whose checks pass. -/
theorem keyAndFirmwareRequests : Obligations.KeyAndFirmwareRequests := by
  unfold Obligations.KeyAndFirmwareRequests
  intro m s x
  refine ⟨fun ts h hcode hts => ?keyInstall, fun h hlen hrole hzero hown hheld => ?setRoleKey, fun h hlen hlow hhigh hzero => ?setCak,
    fun h hlen hlow hhigh hverified => ?raiseSvn, fun h hlen htarget hvia hzero hrecovery => ?fwBegin,
    fun l h hload hlen hfits => ?fwData, fun l h hload hbody => ?fwEnd⟩
  case keyInstall =>
    rw [exec_keyInstall, keyInstall, wenRequest_of_asked h]
    dsimp only
    rw [if_neg (not_not.mpr hcode), hts]
    rfl
  case setRoleKey =>
    rw [exec_setRoleKey, setRoleKey, wenRequest_of_asked h]
    have hpart : fld (x.plain m).body 0 1 = 1 → fld (x.plain m).body 1 1 ≤ 7 := fun h1 => (hheld h1).1
    have hkeys : fld (x.plain m).body 0 1 = 1 → (s.dev.begun m x).rd (fPartState (fld (x.plain m).body 1 1)) ≠ 2 →
        (s.dev.begun m x).rd (fPartState (fld (x.plain m).body 1 1)) = 3 := fun h1 h2 => by
      obtain ⟨-, hlow, hhigh⟩ := hheld h1
      omega
    dsimp only
    rw [if_neg (by simpa [hlen, hrole, hzero] using hpart), if_neg (by simpa using hown), if_neg (by simpa using hkeys)]
    rfl
  case setCak =>
    rw [exec_setCak, setCak, wenRequest_of_asked h]
    exact if_neg (by simp [within, hlen, hlow, hhigh, hzero])
  case raiseSvn =>
    rw [exec_raiseSvn, raiseSvn, wenRequest_of_asked h]
    dsimp only
    rw [if_neg (by simp [within, hlen, hlow, hhigh]), if_neg (not_not.mpr hverified)]
  case fwBegin =>
    refine ⟨(s.dev.begun m x).loading (x.plain m).body, loadAsked (x.plain m).body, ?_, load_loading _ _, rfl, rfl, rfl, st_loading_chind⟩
    have hknown : within 1 6 (fld (x.plain m).body 0 2) = true ∨ fld (x.plain m).body 0 2 = 0x10 :=
      htarget.imp_left (fun ⟨hlow, hhigh⟩ => by simp [within, hlow, hhigh])
    rw [exec_fwBegin, fwBegin, wenRequest_of_asked h]
    dsimp only
    rw [if_neg (by simpa [hlen, hvia, hzero, imp_iff_not_or] using hknown), if_neg (by simpa [imp_iff_not_or] using hrecovery)]
    rfl
  case fwData =>
    rw [exec_fwData, fwData, wenRequest_of_asked h]
    dsimp only
    rw [hload]
    exact if_neg (by simp [hlen, hfits])
  case fwEnd =>
    rw [exec_fwEnd, fwEnd, wenRequest_of_asked h]
    dsimp only
    rw [hload]
    exact if_neg (not_not.mpr hbody)

end Sys2Proof.Machine
end

section
/-! PROOF. Key epochs, derivations, cleansing, erasure and passages (R312, R313, R316, R319, R321, R332). -/
namespace Sys2Proof.Machine

theorem exec_keyEpochRollover (p : Fin 8) (s : State) : exec (.keyEpochRollover p) s = .next (s.withDev (epochRollover p s.dev)) := rfl
theorem exec_keyDerivationDone (die : Fin 2) (s : State) : exec (.keyDerivationDone die) s = .next (s.withDev (keyDone die s.dev)) := rfl
theorem exec_partitionCleansed (p : Fin 8) (s : State) :
    exec (.partitionCleansed p) s = .next (s.withDev (partitionCleansed p s.dev)) := rfl
theorem exec_partitionErased (p : Fin 8) (s : State) : exec (.partitionErased p) s = .next (s.withDev (partitionErased p s.dev)) := rfl
theorem exec_passageStepDone (s : State) : exec .passageStepDone s = .next (s.withDev (passageStep s.dev)) := rfl

theorem ok_partState (p : Nat) : (fPartState p).ok := ⟨show 0 ≤ 2 by decide, show 2 < 64 by decide⟩

section
variable {d : Device} {p : Nat}

-- Key epochs (R319).

section
variable (hkeyed : d.rd (fPartState p) = 3) (hfull : 2 ^ 40 ≤ (d.part p).count0 ∨ 2 ^ 40 ≤ (d.part p).count1)
include hkeyed hfull

/-- The event occurs: the partition is KEYED, and a COUNTER is full. -/
theorem counter_full :
    ¬ (d.rd (fPartState p) ≠ 3 || (decide ((d.part p).count0 < 2 ^ 40) && decide ((d.part p).count1 < 2 ^ 40))) = true := by
  rw [Bool.or_eq_true, Bool.and_eq_true, decide_eq_true_eq, decide_eq_true_eq, decide_eq_true_eq]
  omega

theorem epochRollover_silent (hlast : 0xFFFE ≤ d.rd (fKeyEpoch p)) :
    epochRollover p d = d.modPart p (fun P => { P with silent := true }) := by
  unfold epochRollover
  dsimp only
  rw [if_neg (counter_full hkeyed hfull), if_neg (by omega)]

theorem epochRollover_next (hepoch : d.rd (fKeyEpoch p) < 0xFFFE) (hflows : ∀ f ∈ d.flows, f.2.part ≠ p) : epochRollover p d =
    (d.wr (fKeyEpoch p) (d.rd (fKeyEpoch p) + 1)).modPart p (fun P => { P with count0 := 1, count1 := 1 }) := by
  have hnone : d.flows.filter (fun e => decide (e.2.part = p)) = [] := List.filter_eq_nil_iff.mpr (by simpa using hflows)
  unfold epochRollover
  dsimp only
  rw [if_neg (counter_full hkeyed hfull), if_pos hepoch, modPart_flows, wr_flows, hnone]
  rfl

end

-- Derivations (R321, R332).

/-- The oldest derivation of a die ends: its slot holds the key, or is free again where the partition's secret is gone. -/
theorem keys_keyDone {die : Nat} {k : KeySlot} {ks : List KeySlot} (hkeys : (d.die die).keys = k :: ks) (hready : k.ready = false) :
    ((keyDone die d).die die).keys = if (d.part k.part).ts ≠ [] then
      { k with ready := true, key := (d.store k.part (envKey (d.part k.part).ts k.sender.toNat k.epoch)).1 } :: ks else ks := by
  have holdest : (d.die die).keys.find? (fun s => !s.ready) = some k := by simp [hkeys, hready]
  unfold keyDone
  rw [holdest]
  dsimp only
  by_cases hts : (d.part k.part).ts = []
  case pos =>
    rw [if_pos hts, if_neg (not_not.mpr hts), die_modDie_same, hkeys]
    simp [dropFirst, hready]
  case neg =>
    have hstore : (d.store k.part (envKey (d.part k.part).ts k.sender.toNat k.epoch)).2.die die = d.die die := rfl
    rw [if_neg hts, if_pos hts, die_modDie_same, hstore, hkeys]
    simp [replaceFirst, hready]

-- Cleansing and erasure (R313, R316).

theorem partitionCleansed_of_cleansed (h : d.cleansed p = true) : partitionCleansed p d = listen (d.wr (fPartState p) 2) p := if_pos h

/-- The device once a partition is ABSENT, its swatch kept (R316). -/
def Device.emptied (d : Device) (p : Nat) : Device := (d.wr (fPartState p) 0).setPart p { Part.reset with swatch := (d.part p).swatch }

theorem rd_emptied_other {g : Fld} (h : (fPartState p).addr ≠ g.addr) (hg : g.ok) : (d.emptied p).rd g = d.rd g := by
  rw [Device.emptied, rd_setPart, rd_wr_apart _ _ _ _ (ok_partState p) hg (.inl h)]

/-- An erased partition is not made anew outside SERVICE or while its entry is not valid. -/
theorem partitionErased_absent (h : d.erased p = true) (hstays : d.rd fMode ≠ 2 ∨ d.rd (fValid p) = 0) :
    partitionErased p d = d.emptied p := by
  have hmode : (d.emptied p).rd fMode = d.rd fMode := rd_emptied_other (by simp only [fPartState, fMode]; omega) (by simp [Fld.ok, fMode])
  have hvalid : (d.emptied p).rd (fValid p) = d.rd (fValid p) :=
    rd_emptied_other (by simp only [fPartState, fValid]; omega) (by simp [Fld.ok, fValid])
  have hnone : ¬ ((d.emptied p).rd fMode = 2 && (d.emptied p).rd (fValid p) = 1) = true := by
    rw [hmode, hvalid, Bool.and_eq_true, decide_eq_true_eq, decide_eq_true_eq]
    omega
  exact (if_neg (by simp [h])).trans (if_neg hnone)

-- Passages (R312).

/-- Steps 1, 3 and 4 of a passage go on to the next step once their work is done. -/
theorem passageStep_next (hmode : d.rd fMode = 1)
    (hdone : (d.rd fPassStep = 1 ∧ d.passageForce = false) ∨ (d.rd fPassStep = 3 ∧ d.tilesOff = true) ∨
      (d.rd fPassStep = 4 ∧ d.stacksClean = true)) : passageStep d = d.wr fPassStep (d.rd fPassStep + 1) := by
  unfold passageStep
  dsimp only
  rw [if_neg (not_not.mpr hmode)]
  obtain ⟨hstep, hforce⟩ | ⟨hstep, hoff⟩ | ⟨hstep, hclean⟩ := hdone
  · simp [hstep, hforce]
  · simp [hstep, hoff]
  · simp [hstep, hclean]

theorem passageReply_none (h : d.passageVia = none) : passageReply d = d := by
  unfold passageReply
  rw [h]

/-- An inward passage that no request awaits, with no rise of TEST_EN on the way, ends in SERVICE. -/
theorem passageStep_service (hmode : d.rd fMode = 1) (hstep : d.rd fPassStep = 6) (hin : d.rd fInward = 1) (hvia : d.passageVia = none)
    (hout : d.thenOut = false) : passageStep d = ((d.wr fMode 2).wr fPassStep 0).wr fInward 0 := by
  have hend : passageEnd d = ((d.wr fMode 2).wr fPassStep 0).wr fInward 0 := by
    unfold passageEnd
    rw [if_pos hin]
    dsimp only
    rw [passageReply_none (show (((d.wr fMode 2).wr fPassStep 0).wr fInward 0).passageVia = none from hvia)]
    exact if_neg (Bool.not_eq_true _ ▸ hout)
  simp [passageStep, hmode, hstep, hend]

/-- MODE, STEP and INWARD of SEC_MODE read as written one after the other. -/
theorem rd_wr_secMode (d : Device) :
    (((d.wr fMode 2).wr fPassStep 0).wr fInward 0).rd fMode = 2 ∧ (((d.wr fMode 2).wr fPassStep 0).wr fInward 0).rd fPassStep = 0 ∧
      (((d.wr fMode 2).wr fPassStep 0).wr fInward 0).rd fInward = 0 := by
  have okMode : fMode.ok := by simp [Fld.ok, fMode]
  have okStep : fPassStep.ok := by simp [Fld.ok, fPassStep]
  have okIn : fInward.ok := by simp [Fld.ok, fInward]
  refine ⟨?_, ?_, ?_⟩
  · rw [rd_wr_apart _ _ _ _ okIn okMode (.inr (.inr (by decide))),
      rd_wr_apart _ _ _ _ okStep okMode (.inr (.inr (by decide))), rd_wr_same _ _ _ okMode]
    rfl
  · rw [rd_wr_apart _ _ _ _ okIn okStep (.inr (.inl (by decide))), rd_wr_same _ _ _ okStep]
    rfl
  · rw [rd_wr_same _ _ _ okIn]
    rfl

end

/-- Settles O51: an epoch by `epochRollover_next` and `epochRollover_silent`, a derivation by `keys_keyDone`, a partition by
`partitionCleansed_of_cleansed` and `partitionErased_absent`, a passage by `passageStep_next` and `passageStep_service`. -/
theorem securityEvents : Obligations.SecurityEvents := by
  unfold Obligations.SecurityEvents
  refine ⟨fun p s hkeyed hfull => ⟨fun hepoch hflows => ?epoch, fun hlast => ?silent⟩,
    fun die s k ks hkeys hready => ⟨_, exec_keyDerivationDone die s, keys_keyDone hkeys hready⟩,
    fun p s => ⟨fun h => ⟨_, exec_partitionCleansed p s, ?cleansed⟩, fun h hstays => ⟨_, exec_partitionErased p s, ?erased⟩⟩,
    fun s hmode => ⟨fun hdone => ?next, fun hstep hin hvia hout => ⟨_, exec_passageStepDone s, ?service⟩⟩⟩
  case epoch => rw [exec_keyEpochRollover, epochRollover_next hkeyed hfull hepoch hflows]
  case silent => rw [exec_keyEpochRollover, epochRollover_silent hkeyed hfull hlast]
  case cleansed =>
    rw [partitionCleansed_of_cleansed h, flow_listen, listen, rd_setFlow, rd_wr_same _ _ _ (ok_partState p)]
    exact ⟨rfl, rfl, rfl⟩
  case erased =>
    rw [partitionErased_absent h hstays, Device.emptied, rd_setPart, rd_wr_same _ _ _ (ok_partState p), part_setPart_same]
    exact ⟨rfl, rfl, rfl⟩
  case next => rw [exec_passageStepDone, passageStep_next hmode hdone]
  case service =>
    rw [passageStep_service hmode hstep hin hvia hout]
    exact rd_wr_secMode s.dev

end Sys2Proof.Machine
end

section
/-! SUPPORT. What a wake makes of power domains: the exit that it starts, what it leaves alone, and the domains
that no wake touches (R342 to R345). -/
namespace Sys2Proof.Machine

theorem dom_modDom_other (d : Device) {n m : Nat} (f : Dom → Dom) (h : m ≠ n) : (d.modDom n f).dom m = d.dom m := tget_tput_other _ _ _ h

/-- Device `e` is device `d` but for the power domains of a set and their PWR_DOM registers. -/
structure OnlyDoms (M : Nat → Prop) (d e : Device) : Prop where
  rest : { e with regs := d.regs, doms := d.doms } = d
  dom : ∀ m, ¬ M m → e.dom m = d.dom m
  reg : ∀ a, (∀ m, M m → a ≠ 0x20100 + 8 * m) → e.reg a = d.reg a

namespace OnlyDoms
variable {M N : Nat → Prop} {d e f : Device}

theorem refl (d : Device) : OnlyDoms M d d := ⟨rfl, fun _ _ => rfl, fun _ _ => rfl⟩

theorem trans (h : OnlyDoms M d e) (g : OnlyDoms M e f) : OnlyDoms M d f where
  rest := by
    have hrest := congrArg (fun x : Device => { x with regs := d.regs, doms := d.doms }) g.rest
    exact hrest.trans h.rest
  dom m hm := (g.dom m hm).trans (h.dom m hm)
  reg a ha := (g.reg a ha).trans (h.reg a ha)

theorem mono (h : OnlyDoms M d e) (hMN : ∀ m, M m → N m) : OnlyDoms N d e :=
  ⟨h.rest, fun m hm => h.dom m (fun hM => hm (hMN m hM)), fun a ha => h.reg a (fun m hM => ha m (hMN m hM))⟩

theorem foldl {α : Type} {g : Device → α → Device} {as : List α} (h : ∀ a ∈ as, ∀ d, OnlyDoms M d (g d a)) (d : Device) :
    OnlyDoms M d (as.foldl g d) := by
  induction as generalizing d with
  | nil => exact refl d
  | cons a as ih => exact (h a List.mem_cons_self d).trans (ih (fun b hb => h b (List.mem_cons_of_mem a hb)) _)

theorem thermTrip (h : OnlyDoms M d e) : e.thermTrip = d.thermTrip := (congrArg Device.thermTrip h.rest :)

theorem rd (h : OnlyDoms M d e) {g : Fld} (hg : ∀ m, M m → g.addr ≠ 0x20100 + 8 * m) : e.rd g = d.rd g := rd_of_reg (h.reg _ hg)

end OnlyDoms

/-- A domain whose exit touches no register but its own: a tile or one beyond the ports (R343). -/
def plainDom (n : Nat) : Prop := n < 32 ∨ 72 ≤ n ∧ n < 80

section
variable (d : Device) (n c : Nat)

theorem reg_exiting_other {a : Nat} (h : a ≠ 0x20100 + 8 * n) : (d.exiting n c).reg a = d.reg a := by
  have hother (e : Device) {f : Fld} (hf : f.addr = 0x20100 + 8 * n) (v : Nat) : (e.wr f v).reg a = e.reg a := reg_wr_other (hf ▸ h.symm) v
  unfold Device.exiting
  rw [hother _ (f := fLastWake n) rfl, hother _ (f := fTarget n) rfl, hother _ (f := fDomReady n) rfl, hother _ (f := fDomStep n) rfl,
    hother _ (f := fDom n) rfl, reg_modDom]

theorem onlyDoms_exiting : OnlyDoms (· = n) d (d.exiting n c) :=
  ⟨rfl, fun _ hm => dom_modDom_other d (fun x => { x with wake := none, refuse := none }) hm, fun _ ha => reg_exiting_other d n c (ha n rfl)⟩

theorem startExit_plain (h : plainDom n) : startExit d n c = d.exiting n c := by
  have hport : ¬ (64 ≤ n && n < 72) = true := by simp only [Bool.and_eq_true, decide_eq_true_eq]; unfold plainDom at h; omega
  have hstack : ¬ (32 ≤ n && n < 64 && decide (d.rd (fDom n) = 2)) = true := by
    simp only [Bool.and_eq_true, decide_eq_true_eq]; unfold plainDom at h; omega
  unfold startExit
  dsimp only
  rw [if_neg hport, if_neg hstack]
  rfl

/-- A wake of a domain that has no register but its own changes that domain alone. -/
theorem onlyDoms_wakeOne (h : plainDom n) : OnlyDoms (· = n) d (wakeOne d n c) := by
  have hwake : OnlyDoms (· = n) d (d.modDom n (fun x => { x with wake := some c })) :=
    ⟨rfl, fun _ hm => dom_modDom_other d _ hm, fun _ _ => rfl⟩
  unfold wakeOne
  dsimp only
  split
  · exact .refl d
  · split
    · split
      · exact .refl d
      · split
        · exact .refl d
        · split
          · exact .refl d
          · exact hwake
    · rw [startExit_plain d n c h]
      exact onlyDoms_exiting d n c

/-- The wake of the four fabric domains with source FABRIC_MSG (Table 13-6). -/
def wakeFabric (d : Device) : Device := (List.range 4).foldl (fun d k => wakeOne d (74 + k) 11) d

theorem onlyDoms_wakeFabric : OnlyDoms (fun m => 74 ≤ m ∧ m < 78) d (wakeFabric d) :=
  OnlyDoms.foldl (fun k hk d =>
    have hk : k < 4 := List.mem_range.mp hk
    (onlyDoms_wakeOne d (74 + k) 11 (.inr (by omega))).mono fun m hm => by omega) d

end

theorem wakeDom_eq (d : Device) (n c : Nat) : wakeDom d n c = wakeOne (if n < 64 && !d.domOn n then wakeFabric d else d) n c := rfl

/-- A domain that is ON or already on its way back: no wake source is recorded for it (R344). -/
def Device.awake (d : Device) (n : Nat) : Prop := d.rd (fDom n) = 0 ∨ d.rd (fDom n) = 3 ∧ d.rd (fDomStep n) = 6
/-- A domain in RET or OFF. -/
def Device.asleep (d : Device) (n : Nat) : Prop := d.rd (fDom n) = 1 ∨ d.rd (fDom n) = 2

theorem awake_of_reg {d e : Device} {n : Nat} (h : e.reg (0x20100 + 8 * n) = d.reg (0x20100 + 8 * n)) : e.awake n ↔ d.awake n := by
  have hrd {g : Fld} (hg : g.addr = 0x20100 + 8 * n) : e.rd g = d.rd g := rd_of_reg (hg ▸ h)
  unfold Device.awake
  rw [hrd (g := fDom n) rfl, hrd (g := fDomStep n) rfl]

theorem wakeOne_of_awake {d : Device} {n : Nat} (h : d.awake n) (c : Nat) : wakeOne d n c = d := by
  unfold wakeOne
  obtain hon | ⟨hexits, hstep⟩ := h
  · simp [hon]
  · simp [hexits, hstep]

theorem wakeOne_of_asleep {d : Device} {n : Nat} (h : d.asleep n) (haon : d.domOn 79 = true) (htrip : d.thermTrip = false) (c : Nat) :
    wakeOne d n c = startExit d n c := by
  unfold wakeOne
  obtain hret | hoff := h
  · simp [hret, haon, htrip]
  · simp [hoff, haon, htrip]

/-- PWR_DOM of domain `n` and what is recorded beside it. -/
def Device.domState (n : Nat) (d : Device) : Word × Dom := (d.reg (0x20100 + 8 * n), d.dom n)

theorem OnlyDoms.domState {M : Nat → Prop} {d e : Device} (h : OnlyDoms M d e) {n : Nat} (hn : ¬ M n) : e.domState n = d.domState n :=
  Prod.ext (h.reg _ fun m hm he => hn (by rwa [show n = m by omega])) (h.dom n hn)

/-- Wakes leave a domain alone that is awake (R344). -/
theorem domState_wakeOne {d : Device} {n : Nat} (h : d.awake n) {m : Nat} (hm : plainDom m) (c : Nat) :
    (wakeOne d m c).domState n = d.domState n := by
  by_cases hmn : n = m
  · subst hmn; rw [wakeOne_of_awake h]
  · exact (onlyDoms_wakeOne d m c hm).domState hmn

theorem domState_wakeFabric {d : Device} {n : Nat} (h : d.awake n) : (wakeFabric d).domState n = d.domState n := by
  refine List.foldlRecOn (motive := fun e : Device => e.domState n = d.domState n) (List.range 4) _ rfl (fun e he k hk => ?_)
  have hk : k < 4 := List.mem_range.mp hk
  have hawake : e.awake n := (awake_of_reg (congrArg Prod.fst he)).mpr h
  exact (domState_wakeOne hawake (.inr (by omega)) 11).trans he

end Sys2Proof.Machine
end

section
/-! PROOF. A wake source starts an exit from RET or OFF (R343, R345, R268). -/
namespace Sys2Proof.Machine

theorem exec_wakeSource (n : Fin 80) (code : Fin 14) (s : State) :
    exec (.wakeSource n code) s = .next (s.withDev (wakeSource n code s.dev)) := rfl

/-- The exit of a domain under way, with no phase ended, and the source that started it (R343, R345). -/
def Device.woken (d : Device) (n c : Nat) : Prop :=
  d.rd (fDom n) = 3 ∧ d.rd (fDomStep n) = 6 ∧ d.rd (fDomReady n) = 0 ∧ d.rd (fLastWake n) = c

theorem woken_of_reg {d e : Device} {n c : Nat} (h : e.reg (0x20100 + 8 * n) = d.reg (0x20100 + 8 * n)) (hw : d.woken n c) : e.woken n c := by
  have hrd {g : Fld} (hg : g.addr = 0x20100 + 8 * n) : e.rd g = d.rd g := rd_of_reg (hg ▸ h)
  unfold Device.woken
  rwa [hrd (g := fDom n) rfl, hrd (g := fDomStep n) rfl, hrd (g := fDomReady n) rfl, hrd (g := fLastWake n) rfl]

theorem asleep_of_reg {d e : Device} {n : Nat} (h : e.reg (0x20100 + 8 * n) = d.reg (0x20100 + 8 * n)) (hs : d.asleep n) : e.asleep n := by
  have hrd : e.rd (fDom n) = d.rd (fDom n) := rd_of_reg h
  unfold Device.asleep
  rwa [hrd]

theorem woken_exiting (d : Device) (n : Nat) {c : Nat} (hc : c < 256) : (d.exiting n c).woken n c := by
  obtain ⟨hdom, hstep, hlast⟩ := rd_exiting d n hc
  refine ⟨hdom, hstep, ?_, hlast⟩
  rw [Device.exiting, rd_wr_disjoint (f := fLastWake n) rfl, rd_wr_disjoint (f := fTarget n) rfl, rd_wr_fits rfl]

/-- Beside its own PWR_DOM an exit writes registers of its port or its stack alone. -/
theorem reg_startExit_pwr (d : Device) {n : Nat} (c : Nat) {m : Nat} (hm : m < 80) :
    (startExit d n c).reg (0x20100 + 8 * m) = (d.exiting n c).reg (0x20100 + 8 * m) := by
  have hport (e : Device) {f : Fld} (hf : f.addr = 0x80400 + 8 * (n - 64)) (v : Nat) :
      (e.wr f v).reg (0x20100 + 8 * m) = e.reg (0x20100 + 8 * m) := reg_wr_other (by omega) v
  have hstack (e : Device) (v : Nat) : (e.wr (fTrain (n - 32)) v).reg (0x20100 + 8 * m) = e.reg (0x20100 + 8 * m) :=
    reg_wr_other (by simp only [fTrain, stkReg]; omega) v
  unfold startExit
  dsimp only
  split
  · rw [reg_modPort, apply_ite (Device.reg · (0x20100 + 8 * m))]
    rw [hport _ (f := fLink (n - 64)) rfl, hport _ (f := fWakeSrc (n - 64)) rfl, ite_self]
    rfl
  · rw [apply_ite (Device.reg · (0x20100 + 8 * m))]
    rw [hstack, ite_self]
    rfl

theorem woken_startExit (d : Device) {n c : Nat} (hn : n < 80) (hc : c < 256) : (startExit d n c).woken n c :=
  woken_of_reg (reg_startExit_pwr d c hn) (woken_exiting d n hc)

/-- The exit of one domain leaves the exits of the others alone. -/
theorem woken_startExit_other {d : Device} {n m : Nat} (hm : m < 80) (hne : m ≠ n) (c : Nat) {c' : Nat} (h : d.woken m c') :
    (startExit d n c).woken m c' :=
  woken_of_reg ((reg_startExit_pwr d c hm).trans (reg_exiting_other d n c (by omega))) h

/-- From OFF a stack trains (R268). -/
theorem startExit_stack_off {d : Device} {n : Nat} (hn : isStackDom n = true) (hoff : d.rd (fDom n) = 2) (c : Nat) :
    startExit d n c = (d.exiting n c).wr (fTrain (n - 32)) 1 := by
  simp only [isStackDom, Bool.and_eq_true, decide_eq_true_eq] at hn
  have hport : ¬ (64 ≤ n && n < 72) = true := by simp only [Bool.and_eq_true, decide_eq_true_eq]; omega
  have hstack : (32 ≤ n && n < 64 && decide (d.rd (fDom n) = 2)) = true := by simp [hn, hoff]
  exact (if_neg hport).trans (if_pos hstack)

/-- From OFF the link of a port trains (R268), unless the port is FAILED (R373). -/
theorem link_startExit {d : Device} {n : Nat} (hlo : 64 ≤ n) (hhi : n < 72) (hoff : d.rd (fDom n) = 2)
    (hok : (d.port (n - 64)).failed = false) (c : Nat) :
    (startExit d n c).rd (fLink (n - 64)) = 1 := by
  unfold startExit
  dsimp only
  rw [if_pos (by simp [hlo, hhi]), rd_modPort, if_pos (by simp [hoff, hok])]
  exact rd_wr_fits rfl _

-- The fabric.

/-- A wake of some of the fabric domains starts the exit of each of them that is in RET or OFF. -/
theorem woken_foldl {ks : List Nat} (hks : ∀ k ∈ ks, k < 4) {d : Device} (haon : d.domOn 79 = true) (htrip : d.thermTrip = false) {k : Nat}
    (hk : k ∈ ks) (hsleep : d.asleep (74 + k)) : (ks.foldl (fun d k => wakeOne d (74 + k) 11) d).woken (74 + k) 11 := by
  induction ks generalizing d with
  | nil => cases hk
  | cons j js ih =>
    have hjs : ∀ k ∈ js, k < 4 := fun k hk => hks k (List.mem_cons_of_mem j hk)
    have hj : j < 4 := hks j List.mem_cons_self
    have honly := onlyDoms_wakeOne d (74 + j) 11 (.inr (by omega))
    rw [List.foldl_cons]
    by_cases hkj : k = j
    · subst hkj
      have hwoken : (wakeOne d (74 + k) 11).woken (74 + k) 11 := by
        rw [wakeOne_of_asleep hsleep haon htrip]
        exact woken_startExit d (by omega) (by decide)
      refine List.foldlRecOn (motive := fun e : Device => e.woken (74 + k) 11) js _ hwoken (fun e he i hi => ?_)
      have hi : i < 4 := hjs i hi
      exact woken_of_reg (congrArg Prod.fst (domState_wakeOne (.inr ⟨he.1, he.2.1⟩) (.inr (by omega)) 11)) he
    · have hmem : k ∈ js := (List.mem_cons.mp hk).resolve_left hkj
      refine ih hjs ?_ (honly.thermTrip.trans htrip) hmem (asleep_of_reg (honly.reg _ (by omega)) hsleep)
      unfold Device.domOn
      rwa [honly.rd (g := fDom 79) (by intro m hm; simp only [fDom]; omega)]

theorem woken_wakeFabric {d : Device} (haon : d.domOn 79 = true) (htrip : d.thermTrip = false) {k : Nat} (hk : k < 4) (hsleep : d.asleep (74 + k)) :
    (wakeFabric d).woken (74 + k) 11 :=
  woken_foldl (fun _ h => List.mem_range.mp h) haon htrip (List.mem_range.mpr hk) hsleep

-- The sources.

theorem wakeSource_of_fits {d : Device} {n c : Nat} (h : sourceFits d n c = true) :
    wakeSource n c d = if c = 11 then wakeFabric d else wakeDom d n c := if_pos h

theorem isFabDom_of_fits {d : Device} {n : Nat} (h : sourceFits d n 11 = true) : 74 ≤ n ∧ n < 78 := by
  simpa [sourceFits, isFabDom] using h

/-- Sources of Table 13-6 wake a port that is not FAILED, or none (R373). -/
theorem port_of_fits {d : Device} {n c : Nat} (h : sourceFits d n c = true) (hlo : 64 ≤ n) (hhi : n < 72) : (d.port (n - 64)).failed = false := by
  have htile : isTileDom n = false := by simp [isTileDom]; omega
  have hstack : isStackDom n = false := by simp [isStackDom]; omega
  have hfab : isFabDom n = false := by simp [isFabDom]; omega
  unfold sourceFits at h
  dsimp only at h
  split at h <;> simp_all

/-- The wake of a domain in RET or OFF: the fabric's first, if it is a tile or a stack, then its exit. -/
theorem wakeDom_of_asleep {d : Device} {n : Nat} (h : d.asleep n) (haon : d.domOn 79 = true) (htrip : d.thermTrip = false) (c : Nat) :
    wakeDom d n c = startExit (if n < 64 then wakeFabric d else d) n c := by
  have hoff : d.domOn n = false := by
    obtain h | h := h <;> simp [Device.domOn, h]
  rw [wakeDom_eq, hoff]
  by_cases hn : n < 64
  case pos =>
    have honly := onlyDoms_wakeFabric d
    have haon' : (wakeFabric d).domOn 79 = true := by
      unfold Device.domOn
      rwa [honly.rd (g := fDom 79) (by intro m hm; simp only [fDom]; omega)]
    rw [if_pos hn, if_pos (by simp [hn])]
    exact wakeOne_of_asleep (asleep_of_reg (honly.reg _ (by omega)) h) haon' (honly.thermTrip.trans htrip) c
  case neg =>
    rw [if_neg hn, if_neg (by simp [hn])]
    exact wakeOne_of_asleep h haon htrip c

/-- Settles O46: FABRIC_MSG by `woken_wakeFabric`, every other source by `wakeDom_of_asleep` and what an exit writes. -/
theorem wakeStartsAnExit : Obligations.WakeStartsAnExit := by
  unfold Obligations.WakeStartsAnExit
  intro n code s hsleep hfits haon htrip wakes
  refine ⟨_, exec_wakeSource n code s, ?_⟩
  rw [wakeSource_of_fits hfits]
  by_cases hcode : code.val = 11
  case pos =>
    rw [hcode] at hfits
    obtain ⟨hlo, hhi⟩ := isFabDom_of_fits hfits
    have hfabric (k : Nat) (hk : k < 4) (hk' : s.dev.asleep (74 + k)) := woken_wakeFabric haon htrip hk hk'
    have hn : 74 + (n.val - 74) = n := by omega
    rw [if_pos hcode, hcode]
    refine ⟨?_, fun _ => hfabric, fun _ => ⟨fun hstack => ?_, fun _ hport => absurd hport (by omega)⟩⟩
    · exact hn ▸ hfabric (n - 74) (by omega) (hn.symm ▸ hsleep)
    · simp only [isStackDom, Bool.and_eq_true, decide_eq_true_eq] at hstack
      omega
  case neg =>
    have hoff (hoff : s.dev.rd (fDom n) = 2) : (if n.val < 64 then wakeFabric s.dev else s.dev).rd (fDom n) = 2 := by
      split
      · exact ((onlyDoms_wakeFabric s.dev).rd (by intro m hm; simp only [fDom]; omega)).trans hoff
      · exact hoff
    rw [if_neg hcode, wakeDom_of_asleep hsleep haon htrip]
    refine ⟨woken_startExit _ n.isLt (by omega), fun hfab k hk hk' => ?_, fun h => ⟨fun hstack => ?_, fun hlo hhi => ?_⟩⟩
    · have hn : n.val < 64 := hfab.resolve_right fun h => hcode (congrArg Fin.val h)
      rw [if_pos hn]
      exact woken_startExit_other (by omega) (by omega) _ (woken_wakeFabric haon htrip hk hk')
    · rw [startExit_stack_off hstack (hoff h)]
      exact rd_wr_fits rfl _
    · rw [if_neg (by omega)]
      exact link_startExit hlo hhi h (port_of_fits hfits hlo hhi) _

end Sys2Proof.Machine
end

section
/-! SUPPORT. What a fault changes of the power domains, and what a domain that goes OFF takes with it: facts that posts, causes and losses leave
alone (R49, R53 to R56, R220, R346, Table 13-1). -/
namespace Sys2Proof.Machine

/-- A fact about the device that a post and a cause keep: wakes of tiles and of the fabric, changes of partitions and logical tiles, and the
register of the slot pool. -/
structure FaultKeeps (I : Device → Prop) : Prop where
  wake : ∀ d m c, plainDom m → I d → I (wakeOne d m c)
  part : ∀ d p P, I d → I (d.setPart p P)
  tile : ∀ d p l t, I d → I (d.setLt p l t)
  pool : ∀ d p v, I d → I (d.wr (fPool p) v)

namespace FaultKeeps
variable {I : Device → Prop} (h : FaultKeeps I) {d : Device}
include h

theorem wakeDom {n : Nat} (hn : n < 32) (c : Nat) (hd : I d) : I (wakeDom d n c) := by
  rw [wakeDom_eq]
  refine h.wake _ n c (.inl hn) ?_
  split
  · refine List.foldlRecOn (motive := I) _ _ hd fun d hd k hk => ?_
    have hk : k < 4 := List.mem_range.mp hk
    exact h.wake d (74 + k) 11 (.inr (by omega)) hd
  · exact hd

theorem wakeTiles (p c : Nat) (hd : I d) : I (wakeTiles d p c) :=
  List.foldlRecOn (motive := I) _ _ hd fun _ hd _ ht => h.wakeDom (usableTiles_lt ht) c hd

theorem recordFault (p : Nat) (c : Cause) (hd : I d) : I (recordFault d p c) := by
  unfold Machine.recordFault
  dsimp only
  split
  · exact hd
  · split
    · exact h.part d p _ hd
    · exact h.wakeTiles p 3 (h.part d p _ hd)

theorem tilesFault (p : Nat) (ls : List Nat) (c : Cause) (hd : I d) : I (tilesFault d p ls c) := by
  unfold Machine.tilesFault
  dsimp only
  split
  · exact List.foldlRecOn (motive := I) _ _ (h.recordFault p c hd) fun d hd l _ => h.tile d p l _ hd
  · exact h.recordFault p c hd

theorem slotTrack (p : Nat) (hd : I d) : I (slotTrack d p) := by
  have hpool (js : List Nat) : I (setPool d p js) := h.pool _ p _ (h.part d p _ hd)
  unfold Machine.slotTrack
  dsimp only
  split
  · exact hd
  · split
    · exact h.part _ p _ (hpool _)
    · exact hpool _

theorem bumpCounter (src : List Nat) (p l c n : Nat) (hd : I d) : I (bumpCounter d src p l c n) := by
  unfold Machine.bumpCounter
  dsimp only
  split
  · exact h.tilesFault p src _ hd
  · exact h.slotTrack p (h.tile d p l _ hd)

/-- The posts that a fabric node held are applied (R346). -/
theorem applyPosts (n : Nat) (hd : I d) (hfreed : I (d.modDom n (fun x => { x with posts := [] }))) : I (applyPosts d n) := by
  unfold Machine.applyPosts
  dsimp only
  split
  · exact hd
  · refine List.foldlRecOn (motive := I) _ _ hfreed fun d hd q _ => ?_
    split
    · exact h.bumpCounter _ _ _ _ _ hd
    · exact hd

end FaultKeeps

theorem domState_wr {d : Device} {n : Nat} {f : Fld} (h : f.addr ≠ 0x20100 + 8 * n) (v : Nat) : (d.wr f v).domState n = d.domState n :=
  congrArg (·, d.dom n) (reg_wr_other h v)

theorem domState_pool {d : Device} {n : Nat} (hn : n < 80) (p v : Nat) : (d.wr (fPool p) v).domState n = d.domState n :=
  domState_wr (by simp only [fPool]; omega) v

theorem awake_of_domState {d e : Device} {n : Nat} (h : e.domState n = d.domState n) : e.awake n ↔ d.awake n :=
  awake_of_reg (congrArg Prod.fst h)

/-- A domain that is awake stays as it is (R344). -/
theorem faultKeeps_awake {n : Nat} (hn : n < 80) (φ : Word × Dom → Prop) : FaultKeeps (fun d => d.awake n ∧ φ (d.domState n)) where
  wake d m c hm hd := by
    have hkept := domState_wakeOne hd.1 hm c
    exact ⟨(awake_of_domState hkept).mpr hd.1, hkept.symm ▸ hd.2⟩
  part _ _ _ hd := hd
  tile _ _ _ _ hd := hd
  pool d p x hd := by
    have hkept := domState_pool (d := d) hn p x
    exact ⟨(awake_of_domState hkept).mpr hd.1, hkept.symm ▸ hd.2⟩

/-- A stack or port domain stays as it is. -/
theorem faultKeeps_domState {n : Nat} (hn : n < 80) (hother : ¬ plainDom n) (v : Word × Dom) : FaultKeeps (fun d => d.domState n = v) where
  wake d m c hm hd := ((onlyDoms_wakeOne d m c hm).domState fun he => hother (by rwa [he])).trans hd
  part _ _ _ hd := hd
  tile _ _ _ _ hd := hd
  pool _ p x hd := (domState_pool hn p x).trans hd

/-- No post and no cause changes TRAIN of a stack. -/
theorem faultKeeps_train (x v : Nat) : FaultKeeps (fun d => d.rd (fTrain x) = v) where
  wake d m c hm hd := by
    have hreg : (fTrain x).addr ≠ 0x20100 + 8 * m := by unfold plainDom at hm; simp only [fTrain, stkReg]; omega
    exact ((onlyDoms_wakeOne d m c hm).rd fun _ he => he ▸ hreg).trans hd
  part _ _ _ hd := hd
  tile _ _ _ _ hd := hd
  pool d p w hd := (rd_wr_disjoint (f := fPool p) rfl d w).trans hd

/-- A quantity of the device that nothing which is lost with a domain's supply touches: messages, flow contexts, ports, tiles, stacks, memories,
partitions, and the registers beyond those of power and security. -/
structure LossKeeps {γ : Type} (π : Device → γ) : Prop where
  emit : ∀ d o, π (d.emit o) = π d
  flow : ∀ d i f, π (d.setFlow i f) = π d
  port : ∀ d n f, π (d.modPort n f) = π d
  part : ∀ d p P, π (d.setPart p P) = π d
  lt : ∀ d p l t, π (d.setLt p l t) = π d
  tile : ∀ d t f, π (d.modTile t f) = π d
  stack : ∀ d x f, π (d.modStack x f) = π d
  drawn : ∀ (d : Device) n, π { d with free := n } = π d
  mem : ∀ (d : Device) m, π { d with mem := m } = π d
  spad : ∀ (d : Device) m, π { d with spad := m } = π d
  reg : ∀ d f v, 0x58000 ≤ f.addr → π (d.wr f v) = π d

namespace LossKeeps
variable {γ : Type} {π : Device → γ} (h : LossKeeps π)
include h

theorem send : SendKeeps π where
  emit := h.emit
  flow := h.flow
  port := h.port
  counter d p _ _ := h.part d p _
  waiting d p _ := h.part d p _
  sent d p _ := h.reg d _ _ (by simp only [fSwSent]; omega)
  drawn := h.drawn

theorem endItem (d : Device) (p : Nat) (w : WorkItem) : π (endItem d p w) = π d := by
  unfold Machine.endItem sendWiStatus
  rw [apply_ite π, h.send.sendHost, ite_self]
  exact h.part d p _

theorem flushQueued (d : Device) (p : Nat) : π (flushQueued d p) = π d :=
  (foldl_keeps π _ (fun d _ => h.endItem d p _) _ _).trans (h.part d p _)

theorem releaseFinal (d : Device) (p : Nat) : π (releaseFinal d p) = π d :=
  (foldl_keeps π _ (fun d w => h.endItem d p w) _ _).trans (h.part d p _)

theorem hdrWrite (d : Device) (p x off n v : Nat) : π (hdrWrite d p x off n v) = π d := by
  unfold Machine.hdrWrite Device.hStore
  dsimp only
  split
  · exact h.mem d _
  · exact (h.part _ p _).trans (h.mem d _)

theorem dropStaged (d : Device) (p x : Nat) : π (dropStaged d p x) = π d := by
  refine foldl_keeps π _ (fun d y => ?_) _ _
  split
  · exact (h.reg _ _ _ (by simp only [fStaged, stkReg]; omega)).trans (h.stack d y _)
  · rfl

/-- A shard that turns TORN ends its update, and may fault and end work items (R220). -/
theorem tearShard (hfault : ∀ d p c, π (recordFault d p c) = π d) (d : Device) (p x : Nat) : π (tearShard d p x) = π d := by
  have htorn (e : Device) : π (e.inc fTorn) = π e := h.reg e _ _ (by decide)
  have hpending (e : Device) : π (setPending e p) = π e := h.reg e _ _ (by simp only [fPending]; omega)
  have hheader : π ((Machine.hdrWrite (Machine.dropStaged d p x) p x 0x54 1 1).inc fTorn) = π d := by
    rw [htorn, h.hdrWrite, h.dropStaged]
  unfold Machine.tearShard
  dsimp only
  split
  · exact hheader
  · rw [h.releaseFinal, apply_ite π, h.flushQueued, ite_self, hfault, hpending]
    exact (h.part _ p _).trans hheader

/-- What a domain loses in RET or OFF; only a stack's staged blocks make shards TORN (Table 13-1, R220). -/
theorem loseContents {n : Nat} (hfault : isStackDom n = true → ∀ d p c, π (recordFault d p c) = π d) (d : Device) (target : Nat) :
    π (loseContents d n target) = π d := by
  have hstk (e : Device) {f : Fld} {off : Nat} (hf : f.addr = stkReg (n - 32) off) (v : Nat) : π (e.wr f v) = π e :=
    h.reg e f v (by simp only [hf, stkReg]; omega)
  have hport (e : Device) {f : Fld} (hf : f.addr = 0x80400 + 8 * (n - 64)) (v : Nat) : π (e.wr f v) = π e := h.reg e f v (by omega)
  unfold Machine.loseContents
  split
  case isTrue =>
    split
    · rfl
    · exact foldl_keeps π _ (fun d l => h.lt d _ l _) _ _
  case isFalse =>
    split
    case isTrue =>
      dsimp only
      split
      · exact h.tile d n _
      · refine (foldl_keeps π _ (fun d l => ?_) _ _).trans (h.tile d n _)
        exact (h.spad _ _).trans (h.lt d _ l _)
    case isFalse =>
      split
      case isTrue hstack =>
        dsimp only
        rw [h.stack, hstk _ (f := fStaged (n - 32)) rfl, hstk _ (f := fTrain (n - 32)) rfl]
        exact foldl_keeps π _ (fun d (b : Staged) => h.tearShard (hfault hstack) d b.part b.shard) _ _
      case isFalse =>
        split
        · rw [hport _ (f := fFecLock (n - 64)) rfl, hport _ (f := fLink (n - 64)) rfl]
        · rfl

end LossKeeps

end Sys2Proof.Machine
end

section
/-! SUPPORT. Requests for entries of power domains, the steps of an entry and the phases of an exit (R338 to R344, R346). -/
namespace Sys2Proof.Machine

theorem exec_powerEntryRequest (n : Fin 80) (who : Requester) (s : State) :
    exec (.powerEntryRequest n who) s = .next (s.withDev (requestEntry n who s.dev)) := rfl
theorem exec_tileIdleTimer (u : Fin 32) (s : State) : exec (.tileIdleTimer u) s = .next (s.withDev (requestEntry u .tileIdle s.dev)) := rfl
theorem exec_stackIdleTimer (u : Fin 32) (s : State) :
    exec (.stackIdleTimer u) s = .next (s.withDev (requestEntry (32 + u) .stackIdle s.dev)) := rfl
theorem exec_portIdleTimer (n : Fin 8) (s : State) : exec (.portIdleTimer n) s = .next (s.withDev (requestEntry (64 + n) .portIdle s.dev)) := rfl
theorem exec_refusalReevaluate (n : Fin 80) (s : State) : exec (.refusalReevaluate n) s = .next (s.withDev (reevaluate n s.dev)) := rfl
theorem exec_entryStepDone (n : Fin 80) (s : State) : exec (.entryStepDone n) s = .next (s.withDev (retryAll (entryStep n s.dev))) := rfl
theorem exec_exitPhaseDone (x : ExitPhase) (s : State) : exec (.exitPhaseDone x) s =
    .next (s.withDev (retryAll (exitTrained x.d (x.failed.map (·.val)) (x.degraded.map (·.val)) x.found s.dev))) := rfl

-- Requests (R338, R340, R344).

section
variable {d : Device} {n : Nat} {who : Requester}

theorem modDom_congr {f g : Dom → Dom} (h : f (d.dom n) = g (d.dom n)) : d.modDom n f = d.modDom n g := by unfold Device.modDom; rw [h]

/-- A request takes its place in front of one that may be dropped (R340). -/
theorem keep_request (hkeep : (d.dom n).want.any (fun w => insists w.2) = true → insists who = true) (t : Nat) :
    d.modDom n (fun x => { x with want := if x.want.any (fun w => insists w.2) && !insists who then x.want else some (t, who) }) =
      d.modDom n (fun x => { x with want := some (t, who) }) := by
  refine modDom_congr ?_
  rw [if_neg (by simpa using hkeep)]

theorem dom_countRefusal (d : Device) (n : Nat) (r : Refuser) (m : Nat) : (countRefusal d n r).dom m = d.dom m := by
  unfold countRefusal
  simp only [apply_ite (Device.dom · m), dom_inc, dom_modPort, ite_self]

section
variable (hasks : asks d n who = true)
include hasks

theorem requestEntry_of_free (hon : d.rd (fDom n) = 0) (hfree : refuser d n (entryTarget d who) who = none) :
    requestEntry n who d = startEntry d n (entryTarget d who) := by
  simp [requestEntry, hasks, hon, hfree]

theorem requestEntry_of_refused (hon : d.rd (fDom n) = 0) {r : Refuser} (href : refuser d n (entryTarget d who) who = some r)
    (hkeep : (d.dom n).want.any (fun w => insists w.2) = true → insists who = true) :
    requestEntry n who d = (countRefusal d n r).modDom n (fun x => { x with want := some (entryTarget d who, who) }) := by
  rw [← keep_request (by rwa [dom_countRefusal])]
  simp [requestEntry, hasks, hon, href]

/-- A request made during an exit waits (R344). -/
theorem requestEntry_of_exiting (hexits : d.rd (fDom n) = 3) (hstep : d.rd (fDomStep n) = 6)
    (hkeep : (d.dom n).want.any (fun w => insists w.2) = true → insists who = true) :
    requestEntry n who d = d.modDom n (fun x => { x with want := some (entryTarget d who, who) }) := by
  rw [← keep_request hkeep]
  simp [requestEntry, hasks, hexits, hstep]

end

theorem reevaluate_of_none (h : (d.dom n).want = none) : reevaluate n d = d := by unfold reevaluate; rw [h]

theorem reevaluate_of_want {t : Nat} (h : (d.dom n).want = some (t, who)) (hnot : d.rd (fDom n) ≠ 3) :
    reevaluate n d = requestEntry n who (d.modDom n (fun x => { x with want := none })) := by
  unfold reevaluate
  rw [h]
  exact if_neg hnot

end

-- The steps of an entry (R341, R342).

section
variable {d : Device} {n : Nat}

section
variable (hlo : 1 ≤ d.rd (fDomStep n)) (hhi : d.rd (fDomStep n) ≤ 3)
  (hdrain : isPortDom n = true → d.rd (fDomStep n) = 1 → (d.port (n - 64)).draining = false)
include hlo hhi hdrain

/-- The step under way may end: it is one of steps 1 to 3, and a port has drained. -/
theorem entry_goes : ¬ (decide (d.rd (fDomStep n) = 0) || decide (5 < d.rd (fDomStep n)) ||
    (decide (d.rd (fDomStep n) = 1) && isPortDom n && (d.port (n - 64)).draining)) = true := by
  simp only [Bool.or_eq_true, Bool.and_eq_true, decide_eq_true_eq, not_or]
  refine ⟨⟨by omega, by omega⟩, fun h => ?_⟩
  simp [hdrain h.1.2 h.1.1] at h

/-- At an abort point a wake that has met the domain abandons its entry. -/
theorem entryStep_of_wake {c : Nat} (hwake : (d.dom n).wake = some c) : entryStep n d = abandon d n (wakeRefuser c) := by
  unfold entryStep
  dsimp only
  rw [if_neg (entry_goes hlo hhi hdrain), if_neg (by omega), if_neg (by omega)]
  simp only [hwake]

/-- So does a refuser's condition that has arisen meanwhile. -/
theorem entryStep_of_refuse (hwake : (d.dom n).wake = none) {r : Nat} (href : (d.dom n).refuse = some r) :
    entryStep n d = abandon d n (some (Refuser.ofNum r)) := by
  unfold entryStep
  dsimp only
  rw [if_neg (entry_goes hlo hhi hdrain), if_neg (by omega), if_neg (by omega)]
  simp only [hwake, href]

/-- With neither, and with nothing that refuses the entry now, the next step begins. -/
theorem entryStep_next (hwake : (d.dom n).wake = none) (href : (d.dom n).refuse = none)
    (hfree : refuser d n (d.rd (fTarget n))
      (if d.rd (fTarget n) = 2 && (asks d n .placementOff || asks d n .security) then .placementOff else .hint) = none) :
    entryStep n d = d.wr (fDomStep n) (d.rd (fDomStep n) + 1) := by
  unfold entryStep
  dsimp only
  rw [if_neg (entry_goes hlo hhi hdrain), if_neg (by omega), if_neg (by omega)]
  simp only [hwake, href, hfree]

end

theorem entryStep_four (h : d.rd (fDomStep n) = 4) : entryStep n d = d.wr (fDomStep n) 5 := by simp [entryStep, h]
theorem entryStep_five (h : d.rd (fDomStep n) = 5) : entryStep n d = enterDone d n := by simp [entryStep, h]

/-- PWR_DOM of a domain that has reached the target of its entry. -/
def Device.entered (d : Device) (n : Nat) : Device :=
  (((d.wr (fDom n) (d.rd (fTarget n))).wr (fDomStep n) 0).wr (fDomReady n) 0).inc (fEntries n)

theorem rd_entered (d : Device) (n : Nat) : (d.entered n).rd (fDom n) = d.rd (fTarget n) ∧ (d.entered n).rd (fDomStep n) = 0 := by
  have hfits : (fDom n).fits (d.rd (fTarget n)) = true := decide_eq_true (rd_lt d (fTarget n))
  unfold Device.entered Device.inc
  refine ⟨?_, ?_⟩
  · rw [rd_wr_disjoint (f := fEntries n) rfl, rd_wr_disjoint (f := fDomReady n) rfl, rd_wr_disjoint (f := fDomStep n) rfl, rd_wr_fits hfits]
  · rw [rd_wr_disjoint (f := fEntries n) rfl, rd_wr_disjoint (f := fDomReady n) rfl, rd_wr_fits rfl]

/-- Losses write no PWR_DOM register and nothing that is recorded beside one. -/
theorem lossKeeps_domState {n : Nat} (hn : n < 80) : LossKeeps (Device.domState n) where
  emit _ _ := rfl
  flow _ _ _ := rfl
  port _ _ _ := rfl
  part _ _ _ := rfl
  lt _ _ _ _ := rfl
  tile _ _ _ := rfl
  stack _ _ _ := rfl
  drawn _ _ := rfl
  mem _ _ := rfl
  spad _ _ := rfl
  reg _ _ v hf := domState_wr (by omega) v

theorem domState_loseContents (hn : n < 80) (d : Device) (target : Nat) : (loseContents d n target).domState n = d.domState n := by
  refine (lossKeeps_domState hn).loseContents (fun hstack d p c => ?_) d target
  simp only [isStackDom, Bool.and_eq_true, decide_eq_true_eq] at hstack
  exact (faultKeeps_domState hn (by unfold plainDom; omega) (d.domState n)).recordFault p c rfl

/-- The same domain with its contents lost, before what waits is looked at. -/
def Device.settled (d : Device) (n : Nat) : Device :=
  let e := (loseContents (d.entered n) n (d.rd (fTarget n))).modDom n (fun x => { x with changing := x.changing && decide (d.rd (fTarget n) ≠ 2) })
  if isPortDom n then e.modPort (n - 64) (fun x => { x with draining := false }) else e

theorem settled_domState (hn : n < 80) (d : Device) :
    (d.settled n).reg (0x20100 + 8 * n) = (d.entered n).reg (0x20100 + 8 * n) ∧ ((d.settled n).dom n).want = (d.dom n).want := by
  obtain ⟨hreg, hdom⟩ := Prod.ext_iff.mp (domState_loseContents hn (d.entered n) (d.rd (fTarget n)))
  have hwant : ((loseContents (d.entered n) n (d.rd (fTarget n))).dom n).want = (d.dom n).want := congrArg Dom.want hdom
  unfold Device.settled
  dsimp only
  split
  · exact ⟨hreg, by rw [dom_modPort, dom_modDom_same]; exact hwant⟩
  · exact ⟨hreg, by rw [dom_modDom_same]; exact hwant⟩

/-- An entry that nothing has woken and after which no request waits leaves the domain in its target state. -/
theorem enterDone_of_quiet (hn : n < 80) (hwake : (d.dom n).wake = none) (hthen : (d.dom n).thenOff = false) (hwant : (d.dom n).want = none) :
    enterDone d n = d.settled n := by
  have hend : enterDone d n = reevaluate n (d.settled n) := by
    unfold enterDone
    simp only [hwake, hthen, Bool.false_and, Bool.false_eq_true, if_false]
    rfl
  exact hend.trans (reevaluate_of_none ((settled_domState hn d).2.trans hwant))

end

-- The phases of an exit (R343, R352).

section
variable {d : Device} {n : Nat}

/-- PWR_DOM of a domain that is ON again, its registers shown as they stand (Table 13-14). -/
def Device.exited (d : Device) (n : Nat) : Device :=
  (((d.wr (fDom n) 0).wr (fDomStep n) 0).wr (fTarget n) 0).modDom n (fun x => { x with shown := none })
/-- The same domain with the posts held for it applied, and a port advertised (R346). -/
def Device.served (d : Device) (n : Nat) : Device :=
  if isPortDom n && (applyPosts (d.exited n) n).rd (fLink (n - 64)) = 2 then (applyPosts (d.exited n) n).wr (fAdvertised (n - 64)) 1
  else applyPosts (d.exited n) n

theorem exitDone_eq (d : Device) (n : Nat) : exitDone d n = reevaluate n (d.served n) := rfl

theorem rd_exited (d : Device) (n : Nat) : (d.exited n).rd (fDom n) = 0 ∧ (d.exited n).rd (fDomStep n) = 0 ∧
    (d.exited n).rd (fDomReady n) = d.rd (fDomReady n) := by
  unfold Device.exited
  refine ⟨?_, ?_, ?_⟩
  · rw [rd_modDom, rd_wr_disjoint (f := fTarget n) rfl, rd_wr_disjoint (f := fDomStep n) rfl, rd_wr_fits rfl]
  · rw [rd_modDom, rd_wr_disjoint (f := fTarget n) rfl, rd_wr_fits rfl]
  · rw [rd_modDom, rd_wr_disjoint (f := fTarget n) rfl, rd_wr_disjoint (f := fDomStep n) rfl, rd_wr_disjoint (f := fDom n) rfl]

/-- The posts that waited for the domain take it neither out of ON nor the request that waits. -/
theorem served_domState (hn : n < 80) (d : Device) : (d.served n).reg (0x20100 + 8 * n) = (d.exited n).reg (0x20100 + 8 * n) ∧
    ((d.served n).dom n).want = (d.dom n).want := by
  let φ (x : Word × Dom) : Prop := x.1 = (d.exited n).reg (0x20100 + 8 * n) ∧ x.2.want = (d.dom n).want
  have hwant : ((d.exited n).dom n).want = (d.dom n).want := by
    rw [Device.exited, dom_modDom_same]
    rfl
  have hawake : (d.exited n).awake n := .inl (rd_exited d n).1
  have hfreed : ((d.exited n).modDom n (fun x => { x with posts := [] })).awake n :=
    (awake_of_reg (reg_modDom (d.exited n) n _ _)).mpr hawake
  have hφ : φ (((d.exited n).modDom n (fun x => { x with posts := [] })).domState n) :=
    ⟨reg_modDom _ _ _ _, (congrArg Dom.want (dom_modDom_same (d.exited n) n (fun x => { x with posts := [] }))).trans hwant⟩
  obtain ⟨-, hreg, hwant⟩ := (faultKeeps_awake hn φ).applyPosts n ⟨hawake, rfl, hwant⟩ ⟨hfreed, hφ⟩
  have hport : (fAdvertised (n - 64)).addr ≠ 0x20100 + 8 * n := by simp only [fAdvertised]; omega
  unfold Device.served
  split
  · exact ⟨(reg_wr_other hport 1).trans hreg, hwant⟩
  · exact ⟨hreg, hwant⟩

theorem rd_served (hn : n < 80) (d : Device) : (d.served n).rd (fDom n) = 0 ∧ (d.served n).rd (fDomStep n) = 0 ∧
    (d.served n).rd (fDomReady n) = d.rd (fDomReady n) := by
  have hreg := (served_domState hn d).1
  have hrd {g : Fld} (hg : g.addr = 0x20100 + 8 * n) : (d.served n).rd g = (d.exited n).rd g := rd_of_reg (hg ▸ hreg)
  rw [hrd (g := fDom n) rfl, hrd (g := fDomStep n) rfl, hrd (g := fDomReady n) rfl]
  exact rd_exited d n

section
variable (hstep : d.rd (fDomStep n) = 6) (hfab : n < 64 → d.fabricExits = false)
include hstep hfab

/-- The phase under way may end: the fabric is ON where a tile or stack needs it (R345). -/
theorem exit_goes : ¬ (decide (d.rd (fDomStep n) ≠ 6) || (decide (n < 64) && d.fabricExits)) = true := by
  simpa [hstep] using hfab

/-- A phase before logic ready ends. -/
theorem exitPhase_early (hready : d.rd (fDomReady n) ≠ 7) : exitPhase n d =
    if d.rd (fDomReady n) = 3 && isStackDom n then trained (d.wr (fDomReady n) (2 * d.rd (fDomReady n) + 1)) (n - 32)
    else d.wr (fDomReady n) (2 * d.rd (fDomReady n) + 1) := by
  unfold exitPhase
  rw [if_neg (exit_goes hstep hfab)]
  dsimp only
  rw [if_neg hready]

/-- Logic ready. -/
theorem exitPhase_last (hready : d.rd (fDomReady n) = 7) : exitPhase n d = exitDone (d.wr (fDomReady n) 15) n := by
  unfold exitPhase
  rw [if_neg (exit_goes hstep hfab)]
  dsimp only
  rw [if_neg (by simp [hready]), if_pos hready, hready]

end

end

end Sys2Proof.Machine
end

section
/-! PROOF. Entries and exits of power domains, and the wakes and requests that meet them on the way (R338 to R345, R352). -/
namespace Sys2Proof.Machine

-- The training of a stack whose exit ends (R268).

section
variable {n : Nat} (hstack : isStackDom n = true)
include hstack

theorem stackDom_bounds : 32 ≤ n ∧ n < 64 := by simpa [isStackDom] using hstack

theorem not_port_of_stack : isPortDom n = false := by
  obtain ⟨-, hhi⟩ := stackDom_bounds hstack
  simp [isPortDom, hhi]

/-- A request for an entry of a stack's domain writes registers of power management alone. -/
theorem reg_requestEntry {a : Nat} (ha : 0x100000 ≤ a) (who : Requester) (d : Device) : (requestEntry n who d).reg a = d.reg a := by
  obtain ⟨hlo, hhi⟩ := stackDom_bounds hstack
  have hdom (e : Device) {f : Fld} (hf : f.addr = 0x20100 + 8 * n) (v : Nat) : (e.wr f v).reg a = e.reg a := reg_wr_other (by omega) v
  have hcount (r : Refuser) : (countRefusal d n r).reg a = d.reg a := by
    have haddr : (fRefused n r).addr ≠ a := by cases r <;> simp only [fRefused, Refuser.fld, Refuser.num] <;> omega
    rw [countRefusal, if_pos hhi]
    exact reg_wr_other haddr _
  have hfreeze : (freeze d n).reg a = d.reg a := by unfold freeze; split <;> rfl
  have hstart (t : Nat) : (startEntry d n t).reg a = d.reg a := by
    unfold startEntry
    dsimp only
    rw [if_neg (by simp [not_port_of_stack hstack]), hdom _ (f := fTarget n) rfl, hdom _ (f := fDomStep n) rfl, hdom _ (f := fDom n) rfl, reg_modDom]
    exact hfreeze
  unfold requestEntry
  dsimp only
  split
  · rfl
  · split
    · rfl
    · split
      · split <;> rfl
      · split
        · exact hcount _
        · exact hstart _

theorem train_reevaluate (d : Device) : (reevaluate n d).rd (fTrain (n - 32)) = d.rd (fTrain (n - 32)) := by
  unfold reevaluate
  split
  · rfl
  · split
    · rfl
    · exact rd_of_reg (reg_requestEntry hstack (by simp only [fTrain, stkReg]; omega) _ _)

theorem train_served (d : Device) : (d.served n).rd (fTrain (n - 32)) = d.rd (fTrain (n - 32)) := by
  obtain ⟨hlo, hhi⟩ := stackDom_bounds hstack
  have haddr {f : Fld} (hf : f.addr = 0x20100 + 8 * n) : f.addr ≠ (fTrain (n - 32)).addr := by simp only [hf, fTrain, stkReg]; omega
  have hexited : (d.exited n).rd (fTrain (n - 32)) = d.rd (fTrain (n - 32)) := by
    rw [Device.exited, rd_modDom, rd_wr_addr (haddr (f := fTarget n) rfl), rd_wr_addr (haddr (f := fDomStep n) rfl),
      rd_wr_addr (haddr (f := fDom n) rfl)]
  rw [Device.served, if_neg (by simp [not_port_of_stack hstack])]
  exact (faultKeeps_train (n - 32) (d.rd (fTrain (n - 32)))).applyPosts n hexited ((rd_modDom _ _ _ _).trans hexited)

end

/-- A training that has found no channel bad turns FAILED at most (R268). -/
theorem trainingFound_nil (x : Nat) (d : Device) :
    trainingFound x [] [] d = if d.rd (fChFailed x) = 32 then d.wr (fTrain x) 3 else d := rfl

section
variable {d : Device} {n : Nat} (hn : n < 80) (hstep : d.rd (fDomStep n) = 6) (hfab : n < 64 → d.fabricExits = false)
include hn hstep hfab

/-- With logic ready nothing is found: the domain is ON, and what waits is looked at (R343, R344). -/
theorem exitTrained_last (hready : d.rd (fDomReady n) = 7) (failed degraded : List Nat) (found : TileFind) :
    exitTrained n failed degraded found d = reevaluate n ((d.wr (fDomReady n) 15).served n) := by
  have hend : exitPhase n d = reevaluate n ((d.wr (fDomReady n) 15).served n) := (exitPhase_last hstep hfab hready).trans (exitDone_eq _ _)
  have htrain (hstack : isStackDom n = true) : (reevaluate n ((d.wr (fDomReady n) 15).served n)).rd (fTrain (n - 32)) = d.rd (fTrain (n - 32)) := by
    have haddr : (fDomReady n).addr ≠ (fTrain (n - 32)).addr := by simp only [fDomReady, fTrain, stkReg]; omega
    rw [train_reevaluate hstack, train_served hstack, rd_wr_addr haddr]
  unfold exitTrained
  dsimp only
  rw [hend, if_neg (by simp [hready])]
  refine if_neg ?_
  simp only [Bool.and_eq_true, decide_eq_true_eq, not_and]
  intro h htwo
  rw [htrain h.1] at htwo
  omega

/-- A phase before logic ready counts in READY, with nothing found in what it makes ready (R343). -/
theorem ready_exitTrained (hready : d.rd (fDomReady n) < 7) {failed degraded : List Nat}
    (hcalm : isStackDom n = false ∨ failed = [] ∧ degraded = []) :
    (exitTrained n failed degraded .none d).rd (fDomReady n) = 2 * d.rd (fDomReady n) + 1 := by
  have haddr : (fTrain (n - 32)).addr ≠ (fDomReady n).addr := by simp only [fDomReady, fTrain, stkReg]; omega
  have hfits : (fDomReady n).fits (2 * d.rd (fDomReady n) + 1) = true := decide_eq_true (show 2 * d.rd (fDomReady n) + 1 < 16 by omega)
  have hphase : (exitPhase n d).rd (fDomReady n) = 2 * d.rd (fDomReady n) + 1 := by
    rw [exitPhase_early hstep hfab (by omega)]
    split
    · exact (rd_wr_addr haddr _ _).trans (rd_wr_fits hfits d)
    · exact rd_wr_fits hfits d
  have hcalm' (h : isStackDom n = true) : failed = [] ∧ degraded = [] := hcalm.resolve_left (by simp [h])
  unfold exitTrained
  dsimp only
  split
  · exact hphase
  · split
    case isTrue h =>
      obtain ⟨rfl, rfl⟩ := hcalm' (by simp only [Bool.and_eq_true] at h; exact h.1.1)
      rw [trainingFound_nil, apply_ite (Device.rd · (fDomReady n)), rd_wr_addr haddr, ite_self]
      exact hphase
    case isFalse => exact hphase

end

-- An error in a tile's retained SRAM (R352).

/-- A post and a fault create no record. -/
theorem staged_postKeeps : PostKeeps Device.staged where
  wr _ _ _ := rfl
  dom _ _ _ := rfl
  port _ _ _ := rfl
  part _ _ _ := rfl
  tile _ _ _ _ _ _ := rfl

/-- The work item and the step that a record concerns are all that its partition adds to it. -/
theorem inPart_eq (r : ERec) (d : Device) (p : Nat) : ∃ a w k, r.inPart d p = { r with part := a, wi := w, step := k } := by
  unfold ERec.inPart
  dsimp only
  split
  · exact ⟨_, r.wi, r.step, rfl⟩
  · exact ⟨_, _, _, rfl⟩

/-- A UE of a work item leaves its one record, with no check waiting (R368). -/
theorem staged_ueFault {d : Device} (h : d.checks = []) (p : Nat) (ls : List Nat) (r : ERec) :
    ∃ x, (ueFault d p ls r).staged = d.staged ++ [x] ∧ x.cls = 1 ∧ x.source = r.source ∧ x.kind = r.kind ∧ x.unit = r.unit := by
  obtain ⟨a, w, k, hpart⟩ := inPart_eq { r with cls := 1, action := if (d.part p).isRunning then 11 else 0 } d p
  refine ⟨_, (by rw [ueFault, staged_postKeeps.tilesFault, staged_errorCheck h]), ?_⟩
  rw [hpart]
  exact ⟨rfl, rfl, rfl, rfl⟩

/-- A double error in an SRAM structure of a tile is a UE, of its partition's work item where it has one. -/
theorem staged_unitFound_sram {d : Device} (h : d.checks = []) (t : Nat) (who : Option (Nat × List Nat)) (opc : Nat) (part : Fin 5) :
    ∃ x, (unitFound d t who opc (.sram part true)).staged = d.staged ++ [x] ∧ x.cls = 1 ∧ x.source = 4 ∧ x.kind = 2 ∧
      x.unit = t + 256 * part := by
  cases who with
  | none => exact ⟨_, staged_errorCheck (d := { d with free := d.free + 2 }) h _, rfl, rfl, rfl, rfl⟩
  | some who => exact staged_ueFault (d := { d with free := d.free + 2 }) h who.1 who.2 _

theorem staged_exitTrained_sram {d : Device} {n : Nat} (hstep : d.rd (fDomStep n) = 6) (hready : d.rd (fDomReady n) = 3) (hn : n < 32)
    (hfab : d.fabricExits = false) (hchecks : d.checks = []) (part : Fin 5) :
    ∃ r, (exitTrained n [] [] (.sram part true) d).staged = d.staged ++ [r] ∧ r.cls = 1 ∧ r.source = 4 ∧ r.kind = 2 ∧
      r.unit = n + 256 * part := by
  have htile : isTileDom n = true := decide_eq_true hn
  have hstack : isStackDom n = false := by simp [isStackDom]; omega
  have hphase : exitPhase n d = d.wr (fDomReady n) 7 := by
    rw [exitPhase_early hstep (fun _ => hfab) (by omega), hready, hstack]
    rfl
  have hseven : (d.wr (fDomReady n) 7).rd (fDomReady n) = 7 := rd_wr_fits rfl d
  unfold exitTrained
  dsimp only
  rw [hphase, if_pos (by simp [htile, hready, hseven])]
  exact staged_unitFound_sram (d := d.wr (fDomReady n) 7) hchecks n _ 0 part

/-- Settles O44: requests by `requestEntry_of_free` and `requestEntry_of_refused`, steps by the lemmas of `entryStep` and `enterDone_of_quiet`,
phases by `ready_exitTrained`, `exitTrained_last` and `staged_exitTrained_sram`. -/
theorem powerEntries : Obligations.PowerEntries := by
  unfold Obligations.PowerEntries
  refine ⟨fun n who s hasks hon => ⟨fun hfree => ?free, fun r href hkeep => ?refused⟩,
    fun u n s => ⟨fun hasks hon hfree => ?tile, fun hasks hon hfree => ?stack, fun hasks hon hfree => ?port⟩,
    fun n s => ⟨fun hlo hhi hdrain => ⟨fun hwake href hfree => ?next, fun hwake r href => ?abandoned, fun c hwake => ?woken⟩,
      fun h4 => ?four, fun h5 hwake hthen hwant => ?entered, fun t who hwant hnot => ?again, fun failed degraded found h6 hfab =>
        ⟨fun hready => ?phase, fun hready _ hwant => ?ends⟩, fun part h6 hready hn hfab hchecks => ?sram⟩⟩
  case free => rw [exec_powerEntryRequest, requestEntry_of_free hasks hon hfree]
  case refused => rw [exec_powerEntryRequest, requestEntry_of_refused hasks hon href hkeep]
  case tile => rw [exec_tileIdleTimer, requestEntry_of_free hasks hon hfree]; rfl
  case stack => rw [exec_stackIdleTimer, requestEntry_of_free hasks hon hfree]; rfl
  case port => rw [exec_portIdleTimer, requestEntry_of_free hasks hon hfree]; rfl
  case next => rw [exec_entryStepDone, entryStep_next hlo hhi hdrain hwake href hfree]
  case abandoned => rw [exec_entryStepDone, entryStep_of_refuse hlo hhi hdrain hwake href]
  case woken => rw [exec_entryStepDone, entryStep_of_wake hlo hhi hdrain hwake]
  case four => rw [exec_entryStepDone, entryStep_four h4]
  case entered =>
    refine ⟨_, exec_entryStepDone n s, ?_⟩
    have hreg := (settled_domState n.isLt s.dev).1
    have hrd {g : Fld} (hg : g.addr = 0x20100 + 8 * n.val) : (s.dev.settled n).rd g = (s.dev.entered n).rd g := rd_of_reg (hg ▸ hreg)
    rw [entryStep_five h5, enterDone_of_quiet n.isLt hwake hthen hwant, hrd (g := fDom n) rfl, hrd (g := fDomStep n) rfl]
    exact rd_entered s.dev n
  case again => rw [exec_refusalReevaluate, reevaluate_of_want hwant hnot]
  case phase =>
    refine ⟨_, exec_exitPhaseDone _ s, fun hfound hcalm => ?_⟩
    subst hfound
    exact ready_exitTrained n.isLt h6 hfab hready (hcalm.imp_right fun h => ⟨by simp [h.1], by simp [h.2]⟩)
  case ends =>
    refine ⟨_, exec_exitPhaseDone _ s, ?_⟩
    have hnone : (((s.dev.wr (fDomReady n) 15).served n).dom n).want = none := (served_domState n.isLt _).2.trans hwant
    obtain ⟨hdom, hstep, hlast⟩ := rd_served n.isLt (s.dev.wr (fDomReady n) 15)
    rw [exitTrained_last n.isLt h6 hfab hready, reevaluate_of_none hnone]
    exact ⟨hdom, hstep, hlast.trans (rd_wr_fits rfl _)⟩
  case sram =>
    obtain ⟨r, hstaged, hrec⟩ := staged_exitTrained_sram h6 hready hn hfab hchecks part
    exact ⟨_, r, exec_exitPhaseDone _ s, hstaged, hrec⟩

-- Wakes that meet exiting domains and ON ones (R344).

theorem wakeDom_of_awake {d : Device} {n : Nat} (h : d.awake n) (c : Nat) :
    wakeDom d n c = if n < 64 && !d.domOn n then wakeFabric d else d := by
  rw [wakeDom_eq]
  refine wakeOne_of_awake ?_ c
  split
  · exact (awake_of_domState (domState_wakeFabric h)).mpr h
  · exact h

/-- A source that meets a domain that is awake wakes the fabric at most: with FABRIC_MSG, or for a tile or stack that is not ON (R344, R345). -/
theorem wakeSource_of_awake {d : Device} {n : Nat} (h : d.awake n) (c : Nat) :
    wakeSource n c d = if sourceFits d n c && (decide (c = 11) || decide (n < 64) && !d.domOn n) then wakeFabric d else d := by
  cases hfits : sourceFits d n c with
  | false => simp [wakeSource, occurs, hfits]
  | true =>
    rw [wakeSource_of_fits hfits, wakeDom_of_awake h]
    by_cases hc : c = 11
    · simp [hc]
    · simp [hc]

theorem wakeFabric_of_on {d : Device} (h : ∀ k < 4, d.rd (fDom (74 + k)) = 0) : wakeFabric d = d := by
  refine List.foldlRecOn (motive := fun e => e = d) _ _ rfl fun e he k hk => ?_
  rw [he, wakeOne_of_awake (.inl (h k (List.mem_range.mp hk)))]

/-- Settles O45: wakes by `wakeSource_of_awake`, a request by `requestEntry_of_exiting`, its evaluation by `exitTrained_last`. -/
theorem wakesAndExits : Obligations.WakesAndExits := by
  unfold Obligations.WakesAndExits
  intro n s
  refine ⟨fun code hexits hstep => ⟨_, exec_wakeSource n code s, ?exiting⟩, fun code hon hcode => ?on,
    fun who hexits hstep hasks hkeep => ?waits, fun t who failed degraded found hstep hready hfab hwant => ?evaluated⟩
  case exiting =>
    have hawake : s.dev.awake n := .inr ⟨hexits, hstep⟩
    rw [wakeSource_of_awake hawake]
    split
    case isTrue h =>
      obtain ⟨hreg, hdom⟩ := Prod.ext_iff.mp (domState_wakeFabric hawake)
      have honly := onlyDoms_wakeFabric s.dev
      refine ⟨hdom, hreg, fun hn hc => ?_, honly.rest, honly.dom, fun a ha => honly.reg a fun m hm => ?_⟩
      · simp only [Bool.and_eq_true, Bool.or_eq_true, decide_eq_true_eq] at h
        exact absurd (h.2.resolve_left fun hc' => hc (Fin.ext hc')).1 (by omega)
      · have hfab := ha (m - 74) (by omega)
        rwa [show 74 + (m - 74) = m by omega] at hfab
    case isFalse => exact ⟨rfl, rfl, fun _ _ => rfl, rfl, fun _ _ => rfl, fun _ _ => rfl⟩
  case on =>
    have hd : wakeSource n code s.dev = s.dev := by
      rw [wakeSource_of_awake (.inl hon)]
      split
      case isTrue h =>
        simp only [Bool.and_eq_true, Bool.or_eq_true, decide_eq_true_eq, Device.domOn, hon, decide_true, Bool.not_true, Bool.false_eq_true,
          and_false, or_false] at h
        exact wakeFabric_of_on (hcode.resolve_left fun hne => hne (Fin.ext h.2))
      case isFalse => rfl
    rw [exec_wakeSource, hd]
    rfl
  case waits => rw [exec_powerEntryRequest, requestEntry_of_exiting hasks hexits hstep hkeep]
  case evaluated =>
    have hkept := (served_domState n.isLt (s.dev.wr (fDomReady n) 15)).2.trans hwant
    have hon := (rd_served n.isLt (s.dev.wr (fDomReady n) 15)).1
    refine ⟨((s.dev.wr (fDomReady n) 15).served n).modDom n (fun x => { x with want := none }), ?_, ?_⟩
    case refine_2 => exact decide_eq_true ((rd_modDom _ _ _ _).trans hon)
    rw [exec_exitPhaseDone, exitTrained_last n.isLt hstep hfab hready, reevaluate_of_want hkept (by rw [hon]; decide)]

end Sys2Proof.Machine
end

section
/-! PROOF. The throttle level follows the cap and the sensors (R350, R402 to R404). -/
namespace Sys2Proof.Machine

theorem exec_capWindow (w v i : BitVec 16) (s : State) :
    exec (.capWindow w v i) s = .next (s.withDev (capWindow w.toNat v.toNat i.toNat s.dev)) := rfl
theorem exec_sensorSample (x : SensorReport) (s : State) : exec (.sensorSample x) s = .next (s.withDev (sensorSample x s.dev)) := rfl

theorem rd_level_lt (d : Device) : d.rd fLevel < 16 := rd_lt d fLevel

theorem rd_setLevel (d : Device) {l : Nat} (hl : l < 16) : (setLevel d l).rd fLevel = l := by
  have hfits : fLevel.fits l = true := decide_eq_true hl
  rw [setLevel, rd_wr_disjoint (f := fCapped) rfl, rd_wr_fits hfits]
theorem rd_setLevel_pinW (d : Device) (l : Nat) : (setLevel d l).rd fPinW = d.rd fPinW := by
  rw [setLevel, rd_wr_disjoint (f := fCapped) rfl, rd_wr_disjoint (f := fLevel) rfl]

-- The window of the cap (R350).

/-- The count of low windows shows in no register. -/
theorem rd_pauseLow (d : Device) (k : Nat) (g : Fld) : ({ d with pauseLow := k } : Device).rd g = d.rd g := rfl

/-- The device once a window's averages are shown. -/
def Device.windowed (d : Device) (w v i : Nat) : Device := ((d.wr fPinW w).wr fVin v).wr fIin i

section
variable (d : Device) {w : Nat} (v i : Nat)

theorem rd_windowed_level (w : Nat) : (d.windowed w v i).rd fLevel = d.rd fLevel := by
  rw [Device.windowed, rd_wr_disjoint (f := fIin) rfl, rd_wr_disjoint (f := fVin) rfl, rd_wr_disjoint (f := fPinW) rfl]
theorem rd_windowed_cap (w : Nat) : (d.windowed w v i).rd fCapW = d.rd fCapW := by
  rw [Device.windowed, rd_wr_addr (f := fIin) (by decide), rd_wr_addr (f := fVin) (by decide), rd_wr_addr (f := fPinW) (by decide)]
theorem rd_windowed_pinW (hw : w < 2 ^ 16) : (d.windowed w v i).rd fPinW = w := by
  have hfits : fPinW.fits w = true := decide_eq_true hw
  rw [Device.windowed, rd_wr_disjoint (f := fIin) rfl, rd_wr_disjoint (f := fVin) rfl, rd_wr_fits hfits]

end

section
variable {d : Device} {w : Nat} (v i : Nat) (haon : d.domOn 79 = true)
include haon

/-- Above the cap the level rises. -/
theorem capWindow_above (h : d.rd fCapW < w) :
    capWindow w v i d = { setLevel (d.windowed w v i) (min 15 (d.rd fLevel + 1)) with pauseLow := 0 } := by
  have h' : (d.windowed w v i).rd fCapW < w := by rwa [rd_windowed_cap]
  rw [← rd_windowed_level d v i w]
  unfold capWindow occurs
  rw [if_pos haon]
  exact if_pos h'

section
variable (hcap : w ≤ d.rd fCapW)
include hcap

theorem capWindow_within : capWindow w v i d =
    if 100 * w < 97 * d.rd fCapW && !d.warm then
      (if d.pauseLow = 3 then { setLevel (d.windowed w v i) (d.rd fLevel - 1) with pauseLow := 0 }
       else { d.windowed w v i with pauseLow := d.pauseLow + 1 })
    else { d.windowed w v i with pauseLow := 0 } := by
  have hnot : ¬ (d.windowed w v i).rd fCapW < w := by rw [rd_windowed_cap]; omega
  rw [← rd_windowed_level d v i w, ← rd_windowed_cap d v i w]
  unfold capWindow occurs
  rw [if_pos haon]
  exact if_neg hnot

/-- A window below 97 % of the cap counts, with no sensor near its limit (R403), and the fourth in a row lowers the level. -/
theorem capWindow_low (hlow : 100 * w < 97 * d.rd fCapW) (hcool : d.warm = false) : capWindow w v i d =
    if d.pauseLow = 3 then { setLevel (d.windowed w v i) (d.rd fLevel - 1) with pauseLow := 0 }
    else { d.windowed w v i with pauseLow := d.pauseLow + 1 } := by
  rw [capWindow_within v i haon hcap]
  exact if_pos (by simp [hlow, hcool])

theorem capWindow_restart (h : 97 * d.rd fCapW ≤ 100 * w ∨ d.warm = true) : capWindow w v i d = { d.windowed w v i with pauseLow := 0 } := by
  rw [capWindow_within v i haon hcap]
  refine if_neg ?_
  obtain hhigh | hwarm := h
  · simp [Nat.not_lt.mpr hhigh]
  · simp [hwarm]

end

end

-- The sensors (R402 to R404).

/-- Does a reading lie at or above a threshold of its sensor (Table 16-9)? -/
def Device.anyAt (d : Device) (ts : List (BitVec 8)) (f : Nat × Nat × Nat → Nat) : Bool :=
  (readings ts).any (fun x => decide (f (d.thresholds x.1) + 40 ≤ x.2))

/-- The readings show in DEV_TEMP, and nowhere else. -/
theorem reg_showTemps (d : Device) (ts : List (BitVec 8)) {a : Nat} (ha : 0x148 ≤ a) : (showTemps d ts).reg a = d.reg a :=
  foldl_keeps_of_mem (Device.reg · a) (fun k hk d => reg_setReg_other d _ (by rw [List.mem_range] at hk; omega)) d

theorem anyAt_showTemps (d : Device) (ts us : List (BitVec 8)) (f : Nat × Nat × Nat → Nat) : (showTemps d ts).anyAt us f = d.anyAt us f := by
  unfold Device.anyAt Device.thresholds
  rw [reg_showTemps d ts (by decide)]

/-- The device once a sample is shown: the warning, and the level higher where a sensor is at its throttle limit. -/
def Device.warned (d : Device) (ts : List (BitVec 8)) : Device :=
  let e := (showTemps d ts).wr fThermWarn (if d.anyAt ts (fun t => t.1) then 1 else 0)
  if d.anyAt ts (fun t => t.2.1) then setLevel e (min 15 (e.rd fLevel + 1)) else e
/-- The same device with what the sample means for the windows that follow (R403; log entry 83). -/
def Device.sampled (d : Device) (ts : List (BitVec 8)) : Device :=
  let hot := d.anyAt ts (fun t => t.2.1 - 2)
  { d.warned ts with warm := hot, pauseLow := if hot then 0 else (d.warned ts).pauseLow }

theorem sensorSample_eq {d : Device} (haon : d.domOn 79 = true) (ts : List (BitVec 8)) : sensorSample ⟨ts, []⟩ d =
    if d.anyAt ts (fun t => t.2.2) then thermShutdown (d.sampled ts) else d.sampled ts := by
  unfold Device.sampled Device.warned
  simp only [← anyAt_showTemps d ts]
  unfold sensorSample
  rw [if_neg (by simp [haon])]
  rfl

theorem rd_warned_thermWarn (d : Device) (ts : List (BitVec 8)) :
    (d.warned ts).rd fThermWarn = if d.anyAt ts (fun t => t.1) then 1 else 0 := by
  have hshown (e : Device) : (e.wr fThermWarn (if d.anyAt ts (fun t => t.1) then 1 else 0)).rd fThermWarn =
      if d.anyAt ts (fun t => t.1) then 1 else 0 := rd_wr_fits (by split <;> rfl) e
  unfold Device.warned
  dsimp only
  split
  · rw [setLevel, rd_wr_addr (f := fCapped) (by decide), rd_wr_addr (f := fLevel) (by decide), hshown]
  · exact hshown _

theorem rd_warned_level (d : Device) (ts : List (BitVec 8)) :
    (d.warned ts).rd fLevel = if d.anyAt ts (fun t => t.2.1) then min 15 (d.rd fLevel + 1) else d.rd fLevel := by
  have hkept (v : Nat) : ((showTemps d ts).wr fThermWarn v).rd fLevel = d.rd fLevel := by
    rw [rd_wr_addr (by decide)]
    exact rd_of_reg (reg_showTemps d ts (by decide))
  unfold Device.warned
  dsimp only
  rw [hkept]
  split
  · rw [rd_setLevel _ (by omega)]
  · exact hkept _

-- The trip (R404).

/-- THERM_TRIP_N is none of what posts, faults and losses write. -/
theorem thermTrip_postKeeps : PostKeeps Device.thermTrip where
  wr _ _ _ := rfl
  dom _ _ _ := rfl
  port _ _ _ := rfl
  part _ _ _ := rfl
  tile _ _ _ _ _ _ := rfl
theorem thermTrip_lossKeeps : LossKeeps Device.thermTrip where
  emit _ _ := rfl
  flow _ _ _ := rfl
  port _ _ _ := rfl
  part _ _ _ := rfl
  lt _ _ _ _ := rfl
  tile _ _ _ := rfl
  stack _ _ _ := rfl
  drawn _ _ := rfl
  mem _ _ := rfl
  spad _ _ := rfl
  reg _ _ _ _ := rfl

theorem thermTrip_refuseDom (d : Device) (n r : Nat) : (refuseDom d n r).thermTrip = d.thermTrip := by
  unfold refuseDom; split <;> rfl

theorem thermTrip_addRecord (d : Device) (r : ERec) : (addRecord d r).thermTrip = d.thermTrip := by
  unfold addRecord
  dsimp only
  simp only [apply_ite Device.thermTrip, inc_thermTrip, wr_thermTrip, ite_self]
  split
  · rw [apply_ite Device.thermTrip, thermTrip_refuseDom, ite_self]; rfl
  · rfl

theorem thermTrip_forceOff (d : Device) (n : Nat) : (forceOff d n).thermTrip = d.thermTrip := by
  have hfreeze : (freeze d n).thermTrip = d.thermTrip := by unfold freeze; split <;> rfl
  have hports (e : Device) : (notePorts e).thermTrip = e.thermTrip :=
    foldl_keeps Device.thermTrip _ (fun d n => thermTrip_refuseDom d n _) _ _
  unfold forceOff
  dsimp only
  simp only [apply_ite Device.thermTrip, hports, modDom_thermTrip, modPort_thermTrip, wr_thermTrip, inc_thermTrip, hfreeze, ite_self,
    thermTrip_lossKeeps.loseContents fun _ d p c => thermTrip_postKeeps.recordFault d p c]

/-- At a trip threshold THERM_TRIP_N is asserted, and nothing that the shutdown does takes it back. -/
theorem thermTrip_thermShutdown (d : Device) : (thermShutdown d).thermTrip = true := by
  unfold thermShutdown
  split
  · assumption
  · dsimp only
    rw [foldl_keeps Device.thermTrip _ thermTrip_forceOff, foldl_keeps Device.thermTrip _ (fun d p => thermTrip_postKeeps.recordFault d p _),
      thermTrip_addRecord]

/-- Settles O47: a window by `capWindow_above`, `capWindow_low` and `capWindow_restart`, a sample by `sensorSample_eq`, a trip by
`thermTrip_thermShutdown`. -/
theorem capAndSensors : Obligations.CapAndSensors := by
  unfold Obligations.CapAndSensors
  refine ⟨fun w v i s haon => ⟨_, exec_capWindow w v i s, ?shown, fun h => ?above, fun hcap hlow hcool hthree => ?fourth,
    fun hcap hlow hcool hthree => ?counted, fun hcap h => ?restart⟩, fun ts s haon => ⟨fun htrip => ⟨_, exec_sensorSample _ s, ?sampled⟩,
    fun htrip => ⟨_, exec_sensorSample _ s, ?trip⟩⟩⟩
  case shown =>
    have hpin := rd_windowed_pinW s.dev v.toNat i.toNat w.isLt
    by_cases hcap : s.dev.rd fCapW < w.toNat
    case pos => rw [capWindow_above _ _ haon hcap, rd_pauseLow, rd_setLevel_pinW, hpin]
    case neg =>
      rw [capWindow_within _ _ haon (Nat.not_lt.mp hcap)]
      split
      · split
        · rw [rd_pauseLow, rd_setLevel_pinW, hpin]
        · rw [rd_pauseLow, hpin]
      · rw [rd_pauseLow, hpin]
  case above =>
    rw [capWindow_above _ _ haon h, rd_pauseLow, rd_setLevel _ (by omega)]
    exact ⟨rfl, rfl⟩
  case fourth =>
    have hlevel := rd_level_lt s.dev
    rw [capWindow_low _ _ haon hcap hlow hcool, if_pos hthree, rd_pauseLow, rd_setLevel _ (by omega)]
    exact ⟨rfl, rfl⟩
  case counted =>
    rw [capWindow_low _ _ haon hcap hlow hcool, if_neg hthree, rd_pauseLow, rd_windowed_level]
    exact ⟨rfl, rfl⟩
  case restart =>
    rw [capWindow_restart _ _ haon hcap h, rd_pauseLow, rd_windowed_level]
    exact ⟨rfl, rfl⟩
  case sampled =>
    have hcool : ¬ s.dev.anyAt ts (fun t => t.2.2) = true := Bool.not_eq_true _ ▸ htrip
    rw [sensorSample_eq haon, if_neg hcool]
    exact ⟨rfl, rd_warned_thermWarn _ _, rd_warned_level _ _⟩
  case trip =>
    have hhot : s.dev.anyAt ts (fun t => t.2.2) = true := htrip
    rw [sensorSample_eq haon, if_pos hhot]
    exact thermTrip_thermShutdown _

end Sys2Proof.Machine
end

section
/-! SUPPORT. What a command does to the machine outside its device: every command goes on, none touches the queue, and the meter chip and the
test access port change by rules of their own (R354 to R365, R416, R417). -/
namespace Sys2Proof.Machine

/-- What a command makes of the meter chip. -/
def meterAfter (c : Instr) (m : Meter) : Meter :=
  match c with
  | .meterStart fw ver sig => meterStart fw ver sig m
  | .meterRecord mj _ _ => if m.running then (m.integrate mj).sent else m
  | .meterInputLoss mj => if m.running then inputLoss mj m else m
  | .metPulseStart => if m.running then pulseStart m else m
  | .meterPulseEnd => { m with pulse := false }
  | .meterCalibration => if m.running then calibrate m else m
  | .meterSelfCheck x => if m.running then selfCheck x m else m
  | _ => m

/-- The cells drive under no instruction but EXTEST. -/
def Tap.obeys (t : Tap) : Prop := t.driving = true → t.ir = 0x00#8

theorem Tap.obeys_of_not_driving {t : Tap} (h : t.driving = false) : t.obeys := fun hd => by rw [h] at hd; contradiction

/-- A session that ends takes its instruction along. -/
theorem Tap.obeys_closed {t : Tap} (h : t.obeys) : t.closed.obeys := by
  unfold Tap.closed
  split
  · exact obeys_of_not_driving rfl
  · exact h

theorem obeys_tapFollows {s : State} (d : Device) (h : s.tap.obeys) : (tapFollows s d).tap.obeys := by
  unfold tapFollows
  dsimp only
  split
  · exact Tap.obeys_of_not_driving rfl
  · split
    · exact h
    · exact Tap.obeys_closed h

/-- The machine after a command: the queue as it was, the meter as the command leaves it, and the cells driving under EXTEST alone if they did
before. -/
def State.follows (c : Instr) (s t : State) : Prop :=
  t.pending = s.pending ∧ t.meter = meterAfter c s.meter ∧ (s.tap.obeys → t.tap.obeys)

section
variable {c : Instr} {s : State}

/-- A command whose effect is on the device. -/
theorem next_of_dev {d : Device} (he : exec c s = .next (s.withDev d)) (h : meterAfter c s.meter = s.meter) :
    ∃ t, exec c s = .next t ∧ s.follows c t :=
  ⟨_, he, rfl, h.symm, id⟩

/-- A command that may start the module or end a session. -/
theorem next_of_module {d : Device} (he : exec c s = .next (tapFollows s d)) (h : meterAfter c s.meter = s.meter) :
    ∃ t, exec c s = .next t ∧ s.follows c t :=
  ⟨_, he, rfl, h.symm, obeys_tapFollows _⟩

/-- An event of the meter chip. -/
theorem next_of_meter {f : Meter → Meter} (he : exec c s = onMeter f s)
    (h : meterAfter c s.meter = if s.meter.running then f s.meter else s.meter) : ∃ t, exec c s = .next t ∧ s.follows c t := by
  refine ⟨_, he, ?_⟩
  unfold State.follows
  rw [h]
  split <;> exact ⟨rfl, rfl, id⟩

/-- A TAP instruction that drives the cells under EXTEST at most. -/
theorem next_of_tap {f : Device → Tap → Tap} (he : exec c s = onTap f s) (h : meterAfter c s.meter = s.meter)
    (hf : (f s.dev s.tap).obeys) : ∃ t, exec c s = .next t ∧ s.follows c t := by
  rw [he]
  unfold onTap
  split
  · exact ⟨_, rfl, rfl, h.symm, fun _ => hf⟩
  · exact ⟨s, rfl, rfl, h.symm, id⟩

end

-- The instructions of the test access port.

theorem exec_tapReset (s : State) : exec .tapReset s = onTap (fun _ _ => Tap.reset) s := rfl
theorem exec_idcode (s : State) :
    exec .idcode s = onTap (fun _ t => { t with ir := 0x02#8, driving := false, dr := 0x1A32E36F#32 }) s := rfl
theorem exec_bypass (code : BitVec 8) (s : State) : exec (.bypass code) s = onTap (fun _ t => t.bypassed) s := rfl
theorem exec_samplePreload (cells : BitVec 13) (s : State) : exec (.samplePreload cells) s =
    onTap (fun d _ => { ir := 0x01#8, cells := cells, driving := false, dr := d.pins.setWidth 32 }) s := rfl
/-- What USERCODE shows of the straps. -/
def Device.userCode (d : Device) : Nat := (if d.strapBoard then 256 else 0) + 64 * d.strapPos.toNat + d.strapSlot.toNat
theorem exec_usercode (s : State) : exec .usercode s =
    onTap (fun d t => { t with ir := 0x03#8, driving := false, dr := BitVec.ofNat 32 d.userCode }) s := rfl
theorem exec_extest (cells : BitVec 13) (s : State) : exec (.extest cells) s = onTap (fun d t => if d.jtagOpen then
    { ir := 0x00#8, cells := cells, driving := true, dr := d.pins.setWidth 32 } else t.bypassed) s := rfl
theorem exec_tlaneaTest (code : BitVec 8) (s : State) : exec (.tlaneaTest code) s = onTap (fun d t =>
    if d.jtagOpen && 0x10#8 ≤ code && code ≤ 0x7F#8 then
      { t with ir := code, driving := false, dr := (Config.freeWord d.free).setWidth 32 } else t.bypassed) s := rfl

/-- Every command goes on (the model's choice, log entry 4), and changes queue, meter and cells as `State.follows` says. -/
theorem exec_next (c : Instr) (s : State) : ∃ t, exec c s = .next t ∧ s.follows c t := by
  cases c with
  | meterStart fw ver sig => exact ⟨_, rfl, rfl, rfl, id⟩
  | meterPulseEnd => exact ⟨_, rfl, rfl, rfl, id⟩
  | meterRecord mj mw x =>
    refine ⟨_, rfl, ?_⟩
    unfold State.follows meterAfter
    split <;> exact ⟨rfl, rfl, id⟩
  | meterInputLoss mj => exact next_of_meter (f := inputLoss mj) rfl rfl
  | metPulseStart => exact next_of_meter (f := pulseStart) rfl rfl
  | meterCalibration => exact next_of_meter (f := calibrate) rfl rfl
  | meterSelfCheck x => exact next_of_meter (f := selfCheck x) rfl rfl
  | errorLogCommit => exact next_of_module rfl rfl
  | fullReset m => exact next_of_module rfl rfl
  | vinRise mv => exact next_of_module rfl rfl
  | vinLow mv => exact next_of_module rfl rfl
  | vinOver mv => exact next_of_module rfl rfl
  | overVoltageLockoutEnd mv => exact next_of_module rfl rfl
  | resetNFall => exact next_of_module rfl rfl
  | resetNRise st => exact next_of_module rfl rfl
  | testEnFall => exact ⟨_, rfl, rfl, rfl, Tap.obeys_closed⟩
  | tapReset => exact next_of_tap (exec_tapReset s) rfl (Tap.obeys_of_not_driving rfl)
  | samplePreload cells => exact next_of_tap (exec_samplePreload cells s) rfl (Tap.obeys_of_not_driving rfl)
  | idcode => exact next_of_tap (exec_idcode s) rfl (Tap.obeys_of_not_driving rfl)
  | usercode => exact next_of_tap (exec_usercode s) rfl (Tap.obeys_of_not_driving rfl)
  | bypass code => exact next_of_tap (exec_bypass code s) rfl (Tap.obeys_of_not_driving rfl)
  | extest cells =>
    refine next_of_tap (exec_extest cells s) rfl ?_
    split
    · exact fun _ => rfl
    · exact Tap.obeys_of_not_driving rfl
  | tlaneaTest code =>
    refine next_of_tap (exec_tlaneaTest code s) rfl (Tap.obeys_of_not_driving ?_)
    split <;> rfl
  | test via => cases via <;> exact next_of_dev rfl rfl
  | swap via => cases via <;> exact next_of_dev rfl rfl
  | cancel via => cases via <;> exact next_of_dev rfl rfl
  | revert via => cases via <;> exact next_of_dev rfl rfl
  | _ => exact next_of_dev rfl rfl

/-- A command that answers a state answers this one. -/
theorem follows_of_exec {c : Instr} {s t : State} (h : exec c s = .next t) : s.follows c t := by
  obtain ⟨u, hu, hf⟩ := exec_next c s
  rw [hu] at h
  cases h
  exact hf

/-- A step idles, or runs the command at the front of the queue. -/
theorem step_cases {s t : State} (h : step s = .next t) :
    t = s ∨ ∃ c cs, s.pending = c :: cs ∧ exec c { s with pending := cs } = .next t := by
  unfold step at h
  split at h
  · exact .inl (by cases h; rfl)
  · exact .inr ⟨_, _, ‹_›, h⟩

/-- Settles O1: the front of the queue is what `step` takes. -/
theorem stepRunsTheFrontCommand : Obligations.StepRunsTheFrontCommand := fun _ _ => rfl

/-- Settles O2, by what each command changes outside the device (`exec_next`). -/
theorem everyCommandGoesOn : Obligations.EveryCommandGoesOn := by
  unfold Obligations.EveryCommandGoesOn
  intro c s
  obtain ⟨t, ht, hqueue, -, -⟩ := exec_next c s
  exact ⟨t, ht, hqueue⟩

end Sys2Proof.Machine
end

section
/-! PROOF. The meter: what its events make of its register and counts, and what every step keeps of them (R354 to R365). -/
namespace Sys2Proof.Machine

section
variable (m : Meter) (mj : Nat)

/-- A meter whose FAULT is INVALID counts no more (R365). -/
theorem integrate_of_invalid {m : Meter} (h : m.fault = 2) : m.integrate mj = m := if_pos h

/-- Otherwise the register rises, up to 2^64 - 1, and gives the pulses that the new value calls for (R359, R361). -/
theorem integrate_of_valid {m : Meter} (h : m.fault ≠ 2) : m.integrate mj =
    { m with energy := satAdd (2 ^ 64 - 1) m.energy mj,
             pulses := m.pulses + (pulsesAt (satAdd (2 ^ 64 - 1) m.energy mj) - pulsesAt m.energy),
             pulse := m.pulse || decide (pulsesAt m.energy < pulsesAt (satAdd (2 ^ 64 - 1) m.energy mj)) } := if_neg h

@[simp] theorem integrate_running : (m.integrate mj).running = m.running := by unfold Meter.integrate; split <;> rfl
@[simp] theorem integrate_seq : (m.integrate mj).seq = m.seq := by unfold Meter.integrate; split <;> rfl
@[simp] theorem integrate_nv : (m.integrate mj).nv = m.nv := by unfold Meter.integrate; split <;> rfl
@[simp] theorem integrate_audit : (m.integrate mj).audit = m.audit := by unfold Meter.integrate; split <;> rfl

theorem satAdd_of_lt {a b : Nat} (h : a + b < 2 ^ 64) : satAdd (2 ^ 64 - 1) a b = a + b := if_pos (by omega)

theorem satAdd_bounds {a : Nat} (b : Nat) (h : a < 2 ^ 64) : a ≤ satAdd (2 ^ 64 - 1) a b ∧ satAdd (2 ^ 64 - 1) a b < 2 ^ 64 := by
  unfold satAdd; split <;> omega

/-- Later states of a meter: its register and its counts have not fallen. -/
def Meter.before (m k : Meter) : Prop := m.energy ≤ k.energy ∧ m.seq ≤ k.seq ∧ m.pulses ≤ k.pulses

theorem Meter.before_self : m.before m := ⟨le_rfl, le_rfl, le_rfl⟩

variable {m}

/-- What a running meter counts keeps it sound: a pulse starts only where the register passes a multiple of 360,000 mJ. -/
theorem sound_integrate (h : m.sound) (hrun : m.running = true) : (m.integrate mj).sound ∧ m.before (m.integrate mj) := by
  by_cases hf : m.fault = 2
  · rw [integrate_of_invalid mj hf]; exact ⟨h, m.before_self⟩
  obtain ⟨hbound, hpulses, henergy, hseq, hgiven, hcommitted, -⟩ := h
  obtain ⟨hle, hlt⟩ := satAdd_bounds mj hbound
  rw [integrate_of_valid mj hf]
  unfold Meter.sound Meter.before
  unfold pulsesAt at hpulses ⊢
  dsimp only
  have hdiv := Nat.div_le_div_right (c := 360000) hle
  exact ⟨⟨hlt, by omega, by omega, hseq, by omega, hcommitted, fun hoff => absurd hrun (by simp [hoff])⟩, hle, le_rfl, by omega⟩

theorem sound_sent (h : m.sound) (hrun : m.running = true) : m.sent.sound ∧ m.before m.sent := by
  obtain ⟨hbound, hpulses, henergy, hseq, hgiven, hcommitted, -⟩ := h
  exact ⟨⟨hbound, hpulses, henergy, Nat.le_succ_of_le hseq, hgiven, hcommitted, fun hoff => absurd hrun (by simp [show m.running = false from hoff])⟩,
    le_rfl, Nat.le_succ _, le_rfl⟩

/-- At a loss of input everything counted is committed (R360). -/
theorem sound_commit (h : m.sound) :
    ({ m with running := false, nv := { energy := m.energy, seq := m.seq, pulses := m.pulses } } : Meter).sound := by
  obtain ⟨hbound, hpulses, -, -, -, -, -⟩ := h
  exact ⟨hbound, hpulses, le_rfl, le_rfl, le_rfl, hpulses, fun _ => rfl⟩

/-- A start takes up the committed values, which are those the meter stopped with (R360). -/
theorem sound_meterStart (fw : List Byte) (ver : BitVec 32) (sig : List Byte) (h : m.sound) :
    (meterStart fw ver sig m).sound ∧ m.before (meterStart fw ver sig m) := by
  unfold meterStart
  split
  · exact ⟨h, m.before_self⟩
  next hstart =>
    obtain ⟨hbound, hpulses, -, -, -, hcommitted, hoff⟩ := h
    have hnv : m.nv = ⟨m.energy, m.seq, m.pulses⟩ := hoff (by simp_all)
    unfold Meter.sound Meter.before
    simp only [hnv] at hcommitted ⊢
    exact ⟨⟨hbound, hcommitted, le_rfl, le_rfl, le_rfl, hcommitted, by simp⟩, le_rfl, le_rfl, le_rfl⟩

/-- Soundness and the counts read nothing of FAULT, of MET_PULSE and of the audit counter. -/
theorem sound_of_same_counts {k : Meter} (h : m.sound) (he : k.energy = m.energy) (hs : k.seq = m.seq) (hp : k.pulses = m.pulses)
    (hn : k.nv = m.nv) (hr : k.running = m.running) : k.sound ∧ m.before k := by
  unfold Meter.sound Meter.before
  rw [he, hs, hp, hn, hr]
  exact ⟨h, le_rfl, le_rfl, le_rfl⟩

/-- A calibration changes the audit counter at most (R358). -/
theorem calibrate_audit (m : Meter) : ∃ a, calibrate m = { m with audit := a } := by
  unfold calibrate
  split
  · exact ⟨_, rfl⟩
  · exact ⟨m.audit, rfl⟩

/-- A self-check changes FAULT at most (R365). -/
theorem selfCheck_fault (x : MeterCheck) (m : Meter) : ∃ f, selfCheck x m = { m with fault := f } := by
  cases x with
  | pass => exact ⟨m.fault, rfl⟩
  | invalid => exact ⟨2, rfl⟩
  | selftest =>
    unfold selfCheck
    dsimp only
    split
    · exact ⟨m.fault, rfl⟩
    · exact ⟨1, rfl⟩

/-- Whatever a command makes of the meter keeps it sound and lowers nothing. -/
theorem sound_meterAfter (c : Instr) (h : m.sound) : (meterAfter c m).sound ∧ m.before (meterAfter c m) := by
  have running {k : Meter} (hk : m.running = true → k.sound ∧ m.before k) :
      (if m.running then k else m).sound ∧ m.before (if m.running then k else m) := by
    split
    · exact hk ‹_›
    · exact ⟨h, m.before_self⟩
  cases c with
  | meterStart fw ver sig => exact sound_meterStart fw ver sig h
  | meterPulseEnd => exact sound_of_same_counts h rfl rfl rfl rfl rfl
  | meterRecord mj mw x =>
    refine running fun hrun => ?_
    obtain ⟨hsound, henergy, hseq, hpulses⟩ := sound_integrate mj h hrun
    obtain ⟨hsent, -, hnext, -⟩ := sound_sent hsound ((integrate_running m mj).trans hrun)
    exact ⟨hsent, henergy, hseq.trans hnext, hpulses⟩
  | meterInputLoss mj =>
    refine running fun hrun => ?_
    obtain ⟨hsound, hbefore⟩ := sound_integrate mj h hrun
    exact ⟨sound_commit hsound, hbefore⟩
  | metPulseStart => exact running fun hrun => sound_integrate _ h hrun
  | meterCalibration =>
    refine running fun _ => ?_
    obtain ⟨a, ha⟩ := calibrate_audit m
    exact ha ▸ sound_of_same_counts h rfl rfl rfl rfl rfl
  | meterSelfCheck x =>
    refine running fun _ => ?_
    obtain ⟨f, hf⟩ := selfCheck_fault x m
    exact hf ▸ sound_of_same_counts h rfl rfl rfl rfl rfl
  | _ => exact ⟨h, m.before_self⟩

end

/-- Settles O50: a step idles or runs a command, and a command changes the meter by `meterAfter` alone. -/
theorem everyStepKeepsTheMeter : Obligations.EveryStepKeepsTheMeter := by
  unfold Obligations.EveryStepKeepsTheMeter
  intro s t h ht
  rcases step_cases ht with rfl | ⟨c, cs, -, hc⟩
  · exact ⟨h, Meter.before_self _⟩
  · obtain ⟨-, hmeter, -⟩ := follows_of_exec hc
    rw [hmeter]
    exact sound_meterAfter c h

-- The audit counter (R358).

/-- No event but a calibration touches the counter. -/
theorem audit_meterAfter {c : Instr} (hc : c ≠ .meterCalibration) (m : Meter) : (meterAfter c m).audit = m.audit := by
  have running {k : Meter} (hk : k.audit = m.audit) : (if m.running then k else m).audit = m.audit := by
    split
    · exact hk
    · rfl
  cases c with
  | meterStart fw ver sig => unfold meterAfter meterStart; dsimp only; split <;> rfl
  | meterRecord mj mw x => exact running (integrate_audit m mj)
  | meterInputLoss mj => exact running (integrate_audit m mj)
  | metPulseStart => exact running (integrate_audit m _)
  | meterSelfCheck x =>
    obtain ⟨f, hf⟩ := selfCheck_fault x m
    exact running (hf ▸ rfl)
  | meterCalibration => exact absurd rfl hc
  | _ => rfl

/-- A calibration adds 1 at most, and nothing at the limit. -/
theorem audit_calibration (m : Meter) : m.audit ≤ (meterAfter .meterCalibration m).audit ∧
    (m.audit ≤ 0xFFFFFFFF → (meterAfter .meterCalibration m).audit ≤ 0xFFFFFFFF) := by
  unfold meterAfter calibrate
  dsimp only
  split
  · split
    · next hlow => exact ⟨Nat.le_succ _, fun _ => hlow⟩
    · exact ⟨le_rfl, id⟩
  · exact ⟨le_rfl, id⟩

theorem exec_meterCalibration (s : State) : exec .meterCalibration s = onMeter calibrate s := rfl

/-- Settles O49: calibration is the only command that touches the counter (`audit_meterAfter`). -/
theorem auditCounter : Obligations.AuditCounter := by
  unfold Obligations.AuditCounter
  intro s
  refine ⟨fun hrun hlow => ?accepted, fun htop => ?refused, fun c t ht => ?counts⟩
  case accepted =>
    rw [exec_meterCalibration, onMeter, calibrate, if_pos hrun, if_pos hlow]
  case refused =>
    rw [exec_meterCalibration, onMeter, calibrate, if_neg (by omega : ¬ s.meter.audit < 0xFFFFFFFF)]
    split <;> rfl
  case counts =>
    obtain ⟨-, hmeter, -⟩ := follows_of_exec ht
    rw [hmeter]
    by_cases hc : c = .meterCalibration
    · subst hc
      obtain ⟨hle, hlimit⟩ := audit_calibration s.meter
      exact ⟨hle, fun h => absurd rfl h, hlimit⟩
    · rw [audit_meterAfter hc]
      exact ⟨le_rfl, fun _ => rfl, id⟩

-- The meter's commands (R357, R359 to R365).

theorem exec_meterStart (fw : List Byte) (ver : BitVec 32) (sig : List Byte) (s : State) :
    exec (.meterStart fw ver sig) s = .next { s with meter := meterStart fw ver sig s.meter } := rfl
theorem exec_meterRecord (mj : Nat) (mw : BitVec 32) (x : RecordPath) (s : State) : exec (.meterRecord mj mw x) s =
    let m := s.meter.integrate mj
    .next (if s.meter.running then
      { s with meter := m.sent, dev := if x.path = .whole then takeRecord m mw.toNat x.shares s.dev else s.dev } else s) := rfl
theorem exec_metPulseStart (s : State) : exec .metPulseStart s = onMeter pulseStart s := rfl
theorem exec_meterInputLoss (mj : Nat) (s : State) : exec (.meterInputLoss mj) s = onMeter (inputLoss mj) s := rfl
theorem exec_meterSelfCheck (x : MeterCheck) (s : State) : exec (.meterSelfCheck x) s = onMeter (selfCheck x) s := rfl

theorem onMeter_running {s : State} (h : s.meter.running = true) (f : Meter → Meter) :
    onMeter f s = .next { s with meter := f s.meter } := by
  unfold onMeter; rw [if_pos h]

/-- X0 mirrors the record's SEQ and register, and keeps the record (R363). -/
theorem takeRecord_shows {d : Device} (h : d.domOn 72 = true) (m : Meter) (mw : Nat) (es : List Nat) :
    (takeRecord m mw es d).rd fMetSeq = m.seq % 2 ^ 64 ∧ (takeRecord m mw es d).rd fMetEnergy = m.energy % 2 ^ 64 ∧
    (takeRecord m mw es d).metRecord = m.record mw := by
  unfold takeRecord
  rw [if_neg (by simp [h])]
  dsimp only
  refine ⟨?seq, ?energy, rfl⟩
  case seq =>
    rw [rd_wr_addr (by decide), rd_wr_addr (by decide), rd_wr_addr (by decide), rd_wr_addr (by decide),
      rd_of_reg (reg_setReg_other _ _ (by decide)), rd_wr_addr (by decide)]
    exact rd_wr_same _ fMetSeq _ (by unfold Fld.ok; decide)
  case energy =>
    rw [rd_wr_addr (by decide), rd_wr_addr (by decide), rd_wr_addr (by decide), rd_wr_addr (by decide),
      rd_of_reg (reg_setReg_other _ _ (by decide)), rd_wr_addr (by decide), rd_wr_addr (by decide)]
    exact rd_wr_same _ fMetEnergy _ (by unfold Fld.ok; decide)

/-- The next multiple of 360,000 mJ starts one pulse (R361). -/
theorem pulseStart_valid {m : Meter} (hf : m.fault ≠ 2) (hlt : m.energy + 360000 < 2 ^ 64) :
    pulseStart m = { m with energy := 360000 * (m.energy / 360000 + 1), pulse := true, pulses := m.pulses + 1 } := by
  have hnext : satAdd (2 ^ 64 - 1) m.energy (360000 - m.energy % 360000) = 360000 * (m.energy / 360000 + 1) := by
    rw [satAdd_of_lt (by omega)]; omega
  have hpulse : pulsesAt (360000 * (m.energy / 360000 + 1)) = m.energy / 360000 + 1 := Nat.mul_div_cancel_left _ (by decide)
  have hgiven : pulsesAt m.energy = m.energy / 360000 := rfl
  unfold pulseStart
  rw [integrate_of_valid _ hf, hnext, hpulse, hgiven]
  simp

/-- Settles O48: each command is its event of the meter chip, at a meter that runs (`onMeter_running`). -/
theorem meterCommands : Obligations.MeterCommands := by
  unfold Obligations.MeterCommands
  intro s
  refine ⟨fun fw ver sig hoff => ?start, fun mj mw es hrun => ⟨fun hon => ?whole, fun w hw => ?lost, fun hf hlt => ?counts⟩,
    fun hrun hf hlt => ?pulse, rfl, fun mj hrun => ?loss, fun hrun => ⟨?pass, fun hf => ?selftest, ?invalid, fun mj => integrate_of_invalid mj⟩⟩
  case start =>
    rw [exec_meterStart, meterStart, hoff, Bool.false_or]
    by_cases hsig : Config.meterVerify fw sig = true
    · rw [if_neg (by simp [hsig]), if_pos hsig]
    · rw [if_pos (by simpa using hsig), if_neg hsig]
  case whole =>
    obtain ⟨hseq, henergy, hrecord⟩ := takeRecord_shows hon (s.meter.integrate mj) mw.toNat es
    refine ⟨_, ?_, ?_, henergy, hrecord⟩
    · rw [exec_meterRecord]; dsimp only; rw [if_pos hrun, if_pos rfl]
    · rw [hseq, integrate_seq]
  case lost => rw [exec_meterRecord]; dsimp only; rw [if_pos hrun, if_neg hw]
  case counts =>
    rw [integrate_of_valid mj hf, satAdd_of_lt hlt]
    exact ⟨rfl, rfl⟩
  case pulse => rw [exec_metPulseStart, onMeter_running hrun, pulseStart_valid hf hlt]
  case loss => rw [exec_meterInputLoss, onMeter_running hrun, inputLoss]
  case pass => rw [exec_meterSelfCheck, onMeter_running hrun]; rfl
  case selftest => rw [exec_meterSelfCheck, onMeter_running hrun, selfCheck, if_neg hf]
  case invalid => rw [exec_meterSelfCheck, onMeter_running hrun, selfCheck]

end Sys2Proof.Machine
end

section
/-! PROOF. The test access port and its instructions (R416, R417). -/
namespace Sys2Proof.Machine

/-- On a powered module a TAP instruction takes effect. -/
theorem onTap_powered {s : State} (h : s.dev.powered = true) (f : Device → Tap → Tap) :
    onTap f s = .next { s with dev := { s.dev with free := s.dev.free + 1 }, tap := f s.dev s.tap } := if_pos h

theorem userCode_eq (d : Device) : ∃ b, b = (if d.strapBoard then 1 else 0) ∧ b ≤ 1 ∧
    d.userCode = 256 * b + 64 * d.strapPos.toNat + d.strapSlot.toNat := by
  refine ⟨_, rfl, ?_, ?_⟩
  · split <;> decide
  · unfold Device.userCode; split <;> rfl

/-- USERCODE takes SLOT_ID, BRD_POS and BOARD_MODE apart. -/
theorem userCode_fields (d : Device) : (BitVec.ofNat 32 d.userCode).toNat % 64 = d.strapSlot.toNat ∧
    (BitVec.ofNat 32 d.userCode).toNat / 64 % 4 = d.strapPos.toNat ∧
    (BitVec.ofNat 32 d.userCode).toNat / 256 = if d.strapBoard then 1 else 0 := by
  obtain ⟨b, hb, hle, hcode⟩ := userCode_eq d
  have hslot := d.strapSlot.isLt
  have hpos := d.strapPos.isLt
  rw [← hb, hcode, BitVec.toNat_ofNat]
  omega

theorem testBit_two_bits (r q : Bool) (k : Nat) : let n := (if r then 1 else 0) + 2 * (if q then 1 else 0) + 4 * k
    n.testBit 0 = r ∧ n.testBit 1 = q := by
  dsimp only
  rw [Nat.testBit_eq_decide_div_mod_eq, Nat.testBit_eq_decide_div_mod_eq]
  cases r <;> cases q <;> simp <;> omega

/-- RESET_N stands in bit 0 of the sampled pins, PWR_OK in bit 1 (Table 17-3). -/
theorem pins_low (d : Device) : (d.pins.setWidth 32).getLsbD 0 = d.resetN ∧ (d.pins.setWidth 32).getLsbD 1 = d.pwrOk := by
  obtain ⟨k, hk⟩ : ∃ k, d.pins = BitVec.ofNat 13 ((if d.resetN then 1 else 0) + 2 * (if d.pwrOk then 1 else 0) + 4 * k) :=
    ⟨(if d.rd fAlert = 0 then 1 else 0) + 2 * (if d.thermTrip then 0 else 1) + 4 * ((Config.freeWord d.free).toNat % 512), by
      unfold Device.pins
      dsimp only
      congr 1
      by_cases halert : d.rd fAlert = 0 <;> cases d.thermTrip <;> simp [halert] <;> omega⟩
  obtain ⟨h0, h1⟩ := testBit_two_bits d.resetN d.pwrOk k
  rw [hk]
  simp only [BitVec.getLsbD_setWidth, BitVec.getLsbD_ofNat, h0, h1]
  simp

/-- Settles O58: the TAP of a powered module takes the instruction (`onTap_powered`), and no command lets the cells drive under another one than
EXTEST (`exec_next`). -/
theorem testAccessPort : Obligations.TestAccessPort := by
  unfold Obligations.TestAccessPort
  refine ⟨fun s hon => ⟨?reset, ?idcode, ?usercode, fun code => ?bypass, fun cells => ?sample, fun cells => ⟨fun hopen => ?extest, fun hshut => ?noExtest⟩,
    fun code => ⟨fun hopen hlo hhi => ?tlanea, fun hshut => ?noTlanea⟩⟩, fun s t hs ht => ?driving⟩
  case reset => rw [exec_tapReset, onTap_powered hon]
  case idcode => rw [exec_idcode, onTap_powered hon]
  case usercode => exact ⟨_, by rw [exec_usercode, onTap_powered hon], userCode_fields s.dev⟩
  case bypass => rw [exec_bypass, onTap_powered hon]
  case sample => exact ⟨_, by rw [exec_samplePreload, onTap_powered hon], pins_low s.dev⟩
  case extest => exact ⟨_, by rw [exec_extest, onTap_powered hon, if_pos hopen]⟩
  case noExtest => rw [exec_extest, onTap_powered hon, if_neg (by simp [hshut])]
  case tlanea => exact ⟨_, by rw [exec_tlaneaTest, onTap_powered hon, if_pos (by simp [hopen, hlo, hhi])]⟩
  case noTlanea => rw [exec_tlaneaTest, onTap_powered hon, if_neg (by simp [hshut])]
  case driving =>
    rcases step_cases ht with rfl | ⟨c, cs, -, hc⟩
    · exact hs
    · obtain ⟨-, -, hobeys⟩ := follows_of_exec hc
      exact hobeys hs

end Sys2Proof.Machine
end

section
/-! SUPPORT. Weneus sessions: how one is found, changed, answered and ended, and a request that is answered later (R395 to R397). -/
namespace Sys2Proof.Machine

section
variable {d : Device} {id : BitVec 32} {x : Sess}

/-- The session found under a number bears it. -/
theorem id_of_session (h : d.session id = some x) : x.id = id := by simpa using List.find?_some h

theorem session_of_id (h : d.session id = some x) : d.session x.id = some x := by rw [id_of_session h]; exact h

/-- A session that is changed is found under its number. -/
theorem session_modSess {f : Sess → Sess} (hf : ∀ y, (f y).id = y.id) (h : d.session id = some x) :
    (modSess d id f).session id = some (f x) := by
  have hsame : (fun y : Sess => decide (y.id = id)) ∘ (fun y => if y.id = id then f y else y) = fun y => decide (y.id = id) := by
    funext y
    by_cases hy : y.id = id <;> simp [hy, hf]
  unfold Device.session at h
  unfold Device.session modSess
  dsimp only
  rw [List.find?_map, hsame, h, Option.map_some, if_pos (by simpa using List.find?_some h)]

/-- A session that has ended is found no more. -/
theorem session_endSess (d : Device) (id : BitVec 32) : (endSess d id).session id = none := by
  simp [Device.session, endSess]

/-- The others are. -/
theorem session_endSess_other (d : Device) {id j : BitVec 32} (h : j ≠ id) : (endSess d id).session j = d.session j := by
  unfold Device.session endSess
  dsimp only
  rw [List.find?_filter]
  congr 1
  funext y
  by_cases hy : y.id = j <;> simp [hy, h]

/-- A reply is kept for a repeated SEQ, and sent (R397). -/
theorem replyTo_of_session (h : d.session id = some x) (typ code : Nat) (body : List Byte) : replyTo d id typ code body =
    sendSealed (modSess d id (fun y => { y with last := some (typ, code, body) })) x (typ, code, body) := by
  unfold replyTo; rw [h]

theorem session_replyTo (h : d.session id = some x) (typ code : Nat) (body : List Byte) :
    (replyTo d id typ code body).session id = some { x with last := some (typ, code, body) } := by
  rw [replyTo_of_session h]
  exact session_modSess (f := fun y => { y with last := some (typ, code, body) }) (fun _ => rfl) h

theorem out_replyTo (h : d.session id = some x) (typ code : Nat) (body : List Byte) :
    (replyTo d id typ code body).out.length = d.out.length + 1 := by
  rw [replyTo_of_session h]
  exact List.length_append

/-- The session of a request as it waits for the reply. -/
theorem session_begun (m : WenMsg) (h : d.session m.session = some x) :
    (d.begun m x).session x.id = some { x with seq := m.seq.toNat, last := none } :=
  session_modSess (f := fun y => { y with seq := m.seq.toNat, last := none }) (fun _ => rfl) (session_of_id h)

end

/-- A request whose own rule answers later has that rule's effect, and no reply. -/
theorem wenRequest_of_asked_later {d e : Device} {typ : Nat} {roles : List Nat} {adm : Bool} {m : WenMsg} {x : Sess}
    {f : WenMsg → Sess → Device → Answer × Device} (h : d.asked typ roles adm m x)
    (hf : f (x.plain m) x (d.begun m x) = (none, e)) : wenRequest typ roles adm m f d = e := by
  obtain ⟨hsess, hmgt, hver, hopen, hlen, htag, hseq, hlast, hgate⟩ := h
  have htaken : ¬ (!d.mgtTakes m || m.ver ≠ 1 || !x.opened || 4096 < m.body.length ||
      m.tag ≠ Config.gcmTag x.kcd (wenNonce x.id.toNat m.seq.toNat) (headerOf typ m) (x.plain m).body) = true := by
    simp [hmgt, hver, hopen, hlen, ← htag]
  have hnew : m.seq.toNat ≠ x.seq := by omega
  have hturn : ¬ (m.seq.toNat ≠ x.seq + 1 || (x.last.isNone && x.seq ≠ 0)) = true := by
    cases hfirst : x.last <;> simp_all
  have hpass : gateCode (d.begun m x) m x typ roles adm = 0 := (gateCode_begun d m x typ roles adm).trans hgate
  unfold wenRequest
  simp only [hsess, if_neg htaken, if_neg hnew, if_neg hturn]
  rw [show modSess d x.id _ = d.begun m x from rfl, if_neg (not_not.mpr hpass), hf]

end Sys2Proof.Machine
end

section
/-! PROOF. Weneus sessions open and end (R395, R397). -/
namespace Sys2Proof.Machine

theorem exec_weneusHello (m : WenMsg) (s : State) : exec (.weneusHello m) s = .next (s.withDev (hello m s.dev)) := rfl
theorem exec_weneusResponse (m : WenMsg) (s : State) : exec (.weneusResponse m) s = .next (s.withDev (response m s.dev)) := rfl
theorem exec_weneusClose (m : WenMsg) (s : State) : exec (.weneusClose m) s = .next (s.withDev (wenClose m s.dev)) := rfl
theorem exec_sessionTimeout (id : BitVec 32) (s : State) : exec (.sessionTimeout id) s = .next (s.withDev (endSess s.dev id)) := rfl
theorem exec_lockoutExpiry (role part : Byte) (s : State) :
    exec (.lockoutExpiry role part) s = .next (s.withDev (lockoutExpiry role.toNat part.toNat s.dev)) := rfl

/-- A HELLO that nothing forbids gets a new session, half open, and the CHALLENGE with its nonce (R395). -/
theorem hello_allowed {d : Device} {m : WenMsg} (htakes : d.mgtTakes m = true) (hver : m.ver = 1) (hnone : m.session = 0)
    (hcode : helloCode d m = 0) : ∃ (e : Device) (x : Sess), e.out = d.out ∧
      hello m d = sendPlain { e with sess := d.sess ++ [x] } 2 0 x.id.toNat m.seq.toNat (x.dnonce ++ toLe 8 Config.serial.toNat) ∧
      x.role = fld m.body 0 1 ∧ x.part = fld m.body 1 1 ∧ x.opened = false ∧ x.seq = 0 ∧ x.hello = m.body := by
  unfold hello
  rw [if_neg (by simp [htakes, hver, hnone])]
  dsimp only
  rw [if_neg (not_not.mpr hcode)]
  exact ⟨d.random.2.random.2, ⟨newSession d (fld d.random.2.random.1 0 4), _, _, false, _, d.random.1, [], [], 0, none⟩, rfl, rfl, rfl, rfl, rfl, rfl, rfl⟩

/-- A failed proof ends the session (R395). -/
theorem session_failProof (d : Device) (x : Sess) (seq : Nat) : (failProof d x seq).session x.id = none := by
  unfold failProof
  exact session_endSess _ x.id

section
variable {m : WenMsg} {d : Device} {x : Sess} {key : List Byte}

/-- What a RESPONSE without fault comes to: its proof is checked against the role's key (R395). -/
theorem response_of_half (hsess : d.session m.session = some x) (htakes : d.mgtTakes m = true) (hver : m.ver = 1) (hhalf : x.opened = false)
    (hkey : d.roleKey (roleSlot x.role x.part) = some key) (hrsvd : m.rsvd = 0) (hcode : m.code = 0) :
    (m.body ≠ kdf key x.transcript 256 "Weneus client" → response m d = failProof d x m.seq.toNat) ∧
    (m.body = kdf key x.transcript 256 "Weneus client" → ∃ kcd kdc body, response m d =
      sendPlain { modSess d x.id (fun y => { y with opened := true, kcd := kcd, kdc := kdc }) with
        fails := tset 0 d.fails (roleSlot x.role x.part) 0 } 4 0 x.id.toNat m.seq.toNat body) := by
  have hgo : ¬ (!d.mgtTakes m || m.ver ≠ 1 || x.opened) = true := by simp [htakes, hver, hhalf]
  have hfields : ¬ (m.rsvd ≠ 0 || m.code ≠ 0) = true := by simp [hrsvd, hcode]
  unfold response
  simp only [hsess, if_neg hgo, if_neg hfields, hkey]
  exact ⟨fun hbad => if_pos hbad, fun hgood => ⟨_, _, _, if_neg (not_not.mpr hgood)⟩⟩

end

/-- A CLOSE that passes its checks is answered, and its session ends (R397). -/
theorem wenClose_of_asked {d : Device} {m : WenMsg} {x : Sess} (h : d.asked 0x41 [0, 1, 2] false m x) (hbody : (x.plain m).body = []) :
    wenClose m d = endSess (replyTo (d.begun m x) x.id 0x41 0 []) m.session := by
  have hdone : wenRequest 0x41 [0, 1, 2] false m (fun m _ d => if m.body = [] then done d else refuse 4 d) d =
      replyTo (d.begun m x) x.id 0x41 0 [] := wenRequest_of_asked h (if_pos hbody)
  have hsess := session_replyTo (session_begun m h.1) 0x41 0 []
  obtain ⟨hfound, -, -, hopen, -⟩ := h
  rw [id_of_session hfound] at hdone hsess ⊢
  unfold wenClose
  simp only [hdone, hsess, hopen, decide_true, Bool.and_self, if_true]

/-- Settles O52, each command by what it makes of the sessions. -/
theorem sessionsOpenAndEnd : Obligations.SessionsOpenAndEnd := by
  unfold Obligations.SessionsOpenAndEnd
  refine ⟨fun m s htakes hver hnone hcode => ?hello,
    fun m s x key hsess htakes hver hhalf hkey hrsvd hcode => ⟨fun hgood => ?right, fun hbad => ?wrong⟩,
    fun m s x h hbody => ?close, fun id s => ?timeout, fun role part s => ?lockout⟩
  case hello =>
    obtain ⟨e, x, hout, hhello, hrole, hpart, hhalf, hseq, hbody⟩ := hello_allowed htakes hver hnone hcode
    refine ⟨_, x, exec_weneusHello m s, ?_, hrole, hpart, hhalf, hseq, hbody, ?_⟩
    · rw [hhello]; rfl
    · rw [hhello, sendPlain, List.length_append, length_toLe, ← hout]; rfl
  case right =>
    obtain ⟨kcd, kdc, body, hresp⟩ := (response_of_half hsess htakes hver hhalf hkey hrsvd hcode).2 hgood
    rw [id_of_session hsess] at hresp
    refine ⟨_, { x with opened := true, kcd := kcd, kdc := kdc }, exec_weneusResponse m s, ?_, rfl, ?_⟩
    · rw [hresp]
      exact session_modSess (f := fun y => { y with opened := true, kcd := kcd, kdc := kdc }) (fun _ => rfl) hsess
    · rw [hresp]
      exact tget_tset_same 0 s.dev.fails (roleSlot x.role x.part) 0
  case wrong =>
    refine ⟨_, exec_weneusResponse m s, ?_⟩
    rw [(response_of_half hsess htakes hver hhalf hkey hrsvd hcode).1 hbad, ← id_of_session hsess]
    exact session_failProof _ _ _
  case close =>
    refine ⟨_, exec_weneusClose m s, ?_⟩
    rw [wenClose_of_asked h hbody]
    exact ⟨session_endSess _ _, out_replyTo (session_begun m h.1) _ _ _⟩
  case timeout => exact ⟨_, exec_sessionTimeout id s, session_endSess _ _, fun j hj => session_endSess_other _ hj⟩
  case lockout => exact ⟨_, exec_lockoutExpiry role part s, tget_tset_same false s.dev.locked _ false⟩

end Sys2Proof.Machine
end

section
/-! PROOF. Drop checks, verdicts, the log and fatal mesh errors (R367, R371 to R375). -/
namespace Sys2Proof.Machine

theorem exec_dropCheckStart (s : State) : exec .dropCheckStart s = .next (s.withDev (dropCheckStart s.dev)) := rfl
theorem exec_dropCheckVerdict (seq : BitVec 64) (fails : Bool) (s : State) :
    exec (.dropCheckVerdict seq fails) s = .next (s.withDev (retryAll (dropCheckVerdict seq.toNat fails s.dev))) := rfl
theorem exec_errorLogCommit (s : State) : exec .errorLogCommit s = .next (tapFollows s (logCommit s.dev)) := rfl
theorem exec_fabricRetryExhausted (die : Fin 6) (x : LinkRetry) (s : State) :
    exec (.fabricRetryExhausted die x) s = .next (s.withDev (fabricRetry die x s.dev)) := rfl

/-- The first waiting check starts where nothing stands in its way (R371, R372). -/
theorem startFirst_free {d : Device} {r : ERec} {rs : List ERec} (hgone : r.gone d = false) (hheld : r.heldOff d = false)
    (hwaits : r.waits d = false) (hunit : ∀ x ∈ d.checks, x.running = true → sharesUnit x.req r = false)
    (hpower : ∀ n, r.needs = some n → d.domOn n = true) : startFirst (r :: rs) d = beginCheck d r := by
  have hfree : d.checks.any (fun c => c.running && sharesUnit c.req r) = false := by
    simpa [List.any_eq_false] using hunit
  unfold startFirst
  rw [if_neg (by simp [hgone, hheld]), if_neg (by simp [hwaits, hfree])]
  cases hn : r.needs with
  | none => rfl
  | some n => exact if_pos (hpower n hn)

/-- A verdict that need not wait takes effect (R371, R373). -/
theorem dropCheckVerdict_found {d : Device} {seq : Nat} {fails : Bool} {c : Check}
    (hfound : d.checks.find? (fun c => c.running && decide (c.req.seq = seq)) = some c)
    (hwaits : verdictWaits d c.req (fails || c.hit || decide (4 ≤ tget 0 d.transients c.req.key)) = false) :
    dropCheckVerdict seq fails d = endCheck (if fails || c.hit || decide (4 ≤ tget 0 d.transients c.req.key) then lastingVerdict d c.req
      else verdictRec { d with transients := tset 0 d.transients c.req.key (tget 0 d.transients c.req.key + 1) } c.req 2 0) c.req := by
  unfold dropCheckVerdict
  simp only [hfound, hwaits, Bool.false_eq_true, if_false]
  exact (apply_ite (fun e => endCheck e c.req) _ _ _).symm

/-- The oldest record reaches the log; D.X0 goes OFF at the record of a trip alone (R375, R404). -/
theorem logCommit_cool {d : Device} {r : ERec} {rs : List ERec} (hstaged : d.staged = r :: rs) (hcool : d.thermTrip = false) :
    logCommit d = { d with log := putLog d.log r, staged := rs } := by
  unfold logCommit
  rw [hstaged]
  exact if_neg (by simp [hcool])

-- Fatal errors: the hold and ALERT_N (R368, R374).

/-- No post and no cause touches ALERT. -/
theorem faultKeeps_alert (v : Nat) : FaultKeeps (fun d => d.rd fAlert = v) where
  wake d m c hm hd := by
    have hreg : fAlert.addr ≠ 0x20100 + 8 * m := by unfold plainDom at hm; simp only [fAlert]; omega
    exact ((onlyDoms_wakeOne d m c hm).rd fun _ he => he ▸ hreg).trans hd
  part _ _ _ hd := hd
  tile _ _ _ _ hd := hd
  pool d p w hd := (rd_wr_disjoint (f := fPool p) rfl d w).trans hd

/-- A FATAL record asserts ALERT_N (R368). -/
theorem alert_addRecord {d : Device} {r : ERec} (h : r.cls = 2) : (addRecord d r).rd fAlert = 1 := by
  unfold addRecord
  dsimp only
  simp only [Device.stamp, h]
  exact rd_wr_fits (by decide) _

theorem reg_refuseDom (d : Device) (n r a : Nat) : (refuseDom d n r).reg a = d.reg a := by unfold refuseDom; split <;> rfl

/-- One of another class than UE and FATAL leaves the registers of RAS_STAT alone. -/
theorem ras_addRecord {d : Device} {r : ERec} (h1 : r.cls ≠ 1) (h2 : r.cls ≠ 2) : (addRecord d r).reg 0x600000 = d.reg 0x600000 := by
  have hother (e : Device) (f : Fld) (v : Nat) (hf : f.addr ≠ 0x600000) : (e.wr f v).reg 0x600000 = e.reg 0x600000 := reg_wr_other hf v
  unfold addRecord
  dsimp only
  simp only [Device.stamp, h1, h2, if_false, apply_ite (fun e : Device => e.reg 0x600000), Device.inc, hother _ fCntCe _ (by decide), ite_self]
  split
  · rw [apply_ite (fun e : Device => e.reg 0x600000), reg_refuseDom, hother _ fNextSeq _ (by decide), ite_self]; rfl
  · exact hother _ fNextSeq _ (by decide)

/-- A request for a check changes of RAS_STAT the numbers of checks alone. -/
theorem rd_requestCheck (d : Device) (r : ERec) {g : Fld} (haddr : g.addr = 0x600000) (hlo : g.lo ≤ g.hi) (hhi : g.hi < 32) :
    (requestCheck d r).rd g = d.rd g := by
  have hdrop (e : Device) (cs : List Check) : (setChecks e cs).rd g = e.rd g := by
    unfold setChecks
    dsimp only
    rw [rd_wr_apart _ fDropQueued g _ (by unfold Fld.ok; decide) ⟨hlo, by omega⟩ (.inr (.inr (by simp only [fDropQueued]; omega))),
      rd_wr_apart _ fDropRun g _ (by unfold Fld.ok; decide) ⟨hlo, by omega⟩ (.inr (.inr (by simp only [fDropRun]; omega)))]
    rfl
  unfold requestCheck
  split
  · rfl
  · split
    · refine rd_of_reg ?_
      rw [haddr, Device.inc, reg_wr_other (by decide)]
      exact ras_addRecord (by simp) (by simp)
    · exact hdrop _ _

/-- A FATAL error that also gets a check sets the hold and asserts ALERT_N (R367, R374). -/
theorem fatalCheck_holds (d : Device) (r : ERec) : (fatalCheck d r).rd fHold = 1 ∧ (fatalCheck d r).rd fAlert = 1 := by
  unfold fatalCheck
  dsimp only
  rw [rd_requestCheck _ _ rfl (by decide) (by decide), rd_requestCheck _ _ rfl (by decide) (by decide)]
  unfold fatalHold
  dsimp only
  refine ⟨rd_wr_fits (by decide) _, (rd_wr_disjoint (by decide) _ _).trans ?_⟩
  refine List.foldlRecOn (motive := fun d : Device => d.rd fAlert = 1) _ _ (alert_addRecord rfl) fun d hd p _ => ?_
  exact (faultKeeps_alert 1).recordFault p _ hd

/-- A die's link reports while its domain is ON. -/
theorem fabricRetry_on {die : Nat} {d : Device} (h : d.domOn (if die < 4 then 74 + die else 68 + die) = true) (x : LinkRetry) :
    fabricRetry die x d = if x.ok then errorCheck d { mkRec 0 8 1 (die + 256 * x.link.val) with detail := x.attempts.val + 1, action := 1 }
      else fatalCheck d { mkRec 2 8 2 (die + 256 * x.link.val) with detail := 8 } := if_pos h

/-- Settles O43, each command by its effect on the checks, the log and RAS_STAT. -/
theorem checksAndLog : Obligations.ChecksAndLog := by
  unfold Obligations.ChecksAndLog
  refine ⟨?start, ?verdict, ?commit, fun die link attempts s hon => ⟨?fatal, fun hnone => ?corrected⟩⟩
  case start =>
    intro s c cs
    dsimp only
    intro hroom hfirst hgone hheld hwaits hunit hpower
    rw [exec_dropCheckStart, dropCheckStart, if_neg (by omega), hfirst]
    exact congrArg (fun e => Host.Outcome.next (s.withDev e)) (startFirst_free hgone hheld hwaits hunit hpower)
  case verdict =>
    intro seq fails s c
    dsimp only
    intro hfound hwaits
    rw [exec_dropCheckVerdict, dropCheckVerdict_found hfound hwaits]
    rfl
  case commit =>
    intro s r rs hstaged hcool
    rw [exec_errorLogCommit, logCommit_cool hstaged hcool]
  case fatal =>
    refine ⟨_, exec_fabricRetryExhausted _ _ _, ?_⟩
    rw [fabricRetry_on hon, if_neg Bool.false_ne_true]
    exact fatalCheck_holds _ _
  case corrected =>
    refine ⟨_, s.dev.stamp { mkRec 0 8 1 (die.val + 256 * link.val) with detail := attempts.val + 1, action := 1, verdict := 1 },
      exec_fabricRetryExhausted _ _ _, ?_, rfl, rfl, rfl, rfl, rfl, rfl⟩
    rw [fabricRetry_on hon, if_pos rfl]
    exact staged_errorCheck hnone _

end Sys2Proof.Machine
end

section
/-! PROOF. Links and exchanges complete (R165, R168, R169, R186, R267, R371). -/
namespace Sys2Proof.Machine

theorem exec_cableComplete (p : Fin 8) (l : Fin 32) (x : ExchEnd) (s : State) :
    exec (.cableComplete p l x) s = .next (s.withDev (cableComplete p l x s.dev)) := rfl
theorem exec_skeinComplete (p : Fin 8) (l : Fin 32) (x : ExchEnd) (s : State) :
    exec (.skeinComplete p l x) s = .next (s.withDev (skeinComplete p l x s.dev)) := rfl

theorem tileCount_host {d : Device} {p l h : Nat} (hh : d.hostOf p l = some h) (f : Nat → Fld) (n : Nat := 1) :
    tileCount d p l f n = d.inc (f h) n := by
  unfold tileCount; rw [hh]

section
variable {d : Device} {p l op h : Nat}

/-- The link of an operation leaves the partition, and the operation its tile. -/
def Device.linkFreed (d : Device) (p l op : Nat) : Device :=
  (d.modPart p (fun P => { P with links := dropFirst (fun x => decide (x.lt = l) && decide (x.op = op)) P.links })).modLt p l
    (fun t => { t with xch := t.xch.filter (fun o => decide (o.id ≠ op)) })

/-- A link that may complete is counted on its physical tile, freed, and posts (R165, R169). -/
theorem cableComplete_over {k : Link} (hh : d.hostOf p l = some h) (hfree : d.exchOut = false) (hlink : (d.part p).link l op = some k)
    (hover : k.over = true) (hzero : k.zero = false) :
    cableComplete p l ⟨op, none⟩ d = complete ((d.inc (fLinksDone h)).linkFreed p l op) p l op k.cf := by
  unfold cableComplete
  simp only [hfree, Bool.false_eq_true, if_false, hlink, canMeet_none, Bool.false_and, hover, Bool.not_true, hzero, tileCount_host hh]
  rfl

/-- A word that ECC cannot correct faults the tile, and makes the link's part zero (R168, R267). -/
theorem cableComplete_ue {k : Link} {b : WordFind} (hfree : d.exchOut = false) (hlink : (d.part p).link l op = some k)
    (hbad : b.corrected = false) (hmeet : d.canMeet p k.reads (some b) = true) :
    cableComplete p l ⟨op, some b⟩ d = zeroLink p k (readUe p b.handle.toNat b.off.toNat (some [l]) d) := by
  have hamong : k.reads.contains b.handle.toNat = true := by
    simp only [Device.canMeet, Option.any_some, Bool.and_eq_true] at hmeet
    exact hmeet.1.1
  unfold cableComplete
  simp only [hfree, Bool.false_eq_true, if_false, hlink, hmeet, findBad, hbad, hamong, Bool.not_false, Bool.and_self, if_true, metWord, metBy,
    occurs, metOff]

end

-- Exchanges (R186).

/-- The same of an exchange. -/
def Device.exchFreed (d : Device) (p l op : Nat) : Device :=
  (d.modPart p (fun P => { P with exchs := dropFirst (fun y => decide (y.lt = l) && decide (y.op = op)) P.exchs })).modLt p l
    (fun t => { t with xch := t.xch.filter (fun o => decide (o.id ≠ op)) })

/-- Index in UPD_INST that entry `i` of an exchange's plan names. -/
def Exch.inst (x : Exch) (i : Nat) : Nat := fld x.ents (32 * i + 2) 2

/-- VISITED is set at that index, and noted for the step (R186). -/
def markVisit (p : Nat) (x : Exch) (d : Device) (i : Nat) : Device :=
  (d.wr (fVisited (x.inst i)) 1).modPart p (fun P =>
    { P with visitedNow := (if P.visitedNow.contains (x.inst i) then P.visitedNow else x.inst i :: P.visitedNow) })

/-- Entries of a dispatch with rows. -/
def Exch.seen (x : Exch) : List Nat := if x.mode = 0 then (List.range x.nent).filter (fun i => decide (0 < x.landed i)) else []

/-- The exchange is counted on its physical tile. -/
def countExchange (p l : Nat) (x : Exch) (d : Device) : Device :=
  let d := tileCount d p l fExchanges
  if x.srcs.any (·.void) then tileCount d p l fSkeinVoids else d

/-- The machine just before the operation of an exchange that has landed completes. -/
def exchLanded (p l op : Nat) (x : Exch) (d : Device) : Device :=
  countExchange p l x (x.seen.foldl (markVisit p x) ((writeParts p l (planWrites x d p) d).1.exchFreed p l op))

section
variable {d : Device} {p l op : Nat} {x : Exch}

/-- An exchange that has landed and delivered everything writes its plan, marks its visits, is counted, freed and posts (R186). -/
theorem skeinComplete_landed (hfree : d.exchOut = false) (hexch : (d.part p).exchOf l op = some x) (hland : x.srcs.all (·.landed) = true)
    (hsent : d.delivered p x = true) (hread : d.readable p [(locOf x.planAt).h, fld x.plan 0x1C 4] = true)
    (hwrite : (writeParts p l (planWrites x d p) d).2 = none) :
    skeinComplete p l ⟨op, none⟩ d = complete (exchLanded p l op x d) p l op x.cf := by
  unfold skeinComplete
  simp only [hfree, Bool.false_eq_true, if_false, hexch, canMeet_none, hland, hsent, hread, Bool.not_true, Bool.or_self, hwrite]
  rfl

-- What the marks and counts leave alone.

theorem mem_tileCount (f : Nat → Fld) (n : Nat := 1) : (tileCount d p l f n).mem = d.mem := by unfold tileCount; split <;> rfl
theorem parts_tileCount (f : Nat → Fld) (n : Nat := 1) : (tileCount d p l f n).parts = d.parts := by unfold tileCount; split <;> rfl

theorem mem_markVisit (e : Device) (i : Nat) : (markVisit p x e i).mem = e.mem := rfl
theorem mem_exchFreed (e : Device) : (e.exchFreed p l op).mem = e.mem := rfl

theorem mem_exchLanded : (exchLanded p l op x d).mem = (writeParts p l (planWrites x d p) d).1.mem := by
  unfold exchLanded countExchange
  dsimp only
  rw [apply_ite Device.mem, mem_tileCount, mem_tileCount, ite_self, foldl_keeps Device.mem (markVisit p x) mem_markVisit, mem_exchFreed]

/-- The exchanges of a partition. -/
def Device.exchsOf (p : Nat) (d : Device) : List Exch := (d.part p).exchs

theorem exchsOf_modPart (d : Device) (q : Nat) {f : Part → Part} (hf : ∀ P, (f P).exchs = P.exchs) : (d.modPart q f).exchsOf p = d.exchsOf p :=
  part_setPart_keeps Part.exchs (hf _) p

theorem exchsOf_hStore (d : Device) (q k off : Nat) (bs : List Byte) : (d.hStore q k off bs).exchsOf p = d.exchsOf p := by
  unfold Device.hStore
  dsimp only
  rw [apply_ite (Device.exchsOf p), exchsOf_modPart _ q (fun _ => by rfl), ite_self]
  rfl

theorem exchsOf_writeAt (d : Device) (q m : Nat) (y : Loc) (bs : List Byte) : (d.writeAt q m y bs).exchsOf p = d.exchsOf p := by
  unfold Device.writeAt
  split
  · rfl
  · refine (exchsOf_modPart (d.hStore q y.h y.pos bs) q ?_).trans (exchsOf_hStore d q y.h y.pos bs)
    exact fun _ => rfl

theorem exchsOf_touch (d : Device) (q m : Nat) (y : Loc) (n : Nat) : (d.touch q m y n).exchsOf p = d.exchsOf p := by
  unfold Device.touch Device.scramble
  split
  · split
    · rfl
    · refine exchsOf_modPart (d.openRegion q m) q (f := fun P => { P with walks := P.walks.map (Walk.spoil m) }) ?_
      exact fun _ => rfl
  · rfl

theorem exchsOf_writeParts (q m : Nat) (ws : List (Loc × List Byte)) (d : Device) : (writeParts q m ws d).1.exchsOf p = d.exchsOf p := by
  induction ws generalizing d with
  | nil => rfl
  | cons w ws ih =>
    unfold writeParts
    split
    · rfl
    · rw [ih, exchsOf_touch, exchsOf_writeAt]

/-- The exchange is freed, and no other. -/
theorem exchs_exchLanded : ((exchLanded p l op x d).part p).exchs =
    dropFirst (fun y => decide (y.lt = l) && decide (y.op = op)) (d.part p).exchs := by
  have hcount (e : Device) (f : Nat → Fld) : (tileCount e p l f).exchsOf p = e.exchsOf p := by
    unfold Device.exchsOf Device.part; rw [parts_tileCount]
  have hmark (e : Device) (i : Nat) : (markVisit p x e i).exchsOf p = e.exchsOf p := by
    refine exchsOf_modPart (e.wr (fVisited (x.inst i)) 1) p ?_
    exact fun _ => rfl
  show (exchLanded p l op x d).exchsOf p = _
  unfold exchLanded countExchange
  dsimp only
  rw [apply_ite (Device.exchsOf p), hcount, hcount, ite_self, foldl_keeps (Device.exchsOf p) (markVisit p x) hmark]
  unfold Device.exchFreed Device.exchsOf
  rw [part_modLt, part_modPart_same]
  exact congrArg _ (exchsOf_writeParts p l _ d)

-- Visits.

theorem rd_markVisit_same (e : Device) (i : Nat) : (markVisit p x e i).rd (fVisited (x.inst i)) = 1 := rd_wr_fits (f := fVisited (x.inst i)) rfl e

/-- A mark once set stays. -/
theorem rd_markVisit {e : Device} {n : Nat} (h : e.rd (fVisited n) = 1) (i : Nat) : (markVisit p x e i).rd (fVisited n) = 1 := by
  by_cases hn : n = x.inst i
  · subst hn; exact rd_markVisit_same e i
  · exact (rd_wr_addr (by simp only [fVisited]; omega) e 1).trans h

/-- Every entry with rows leaves its mark. -/
theorem rd_visited_foldl {e : Device} {is : List Nat} {i : Nat} (h : i ∈ is) : (is.foldl (markVisit p x) e).rd (fVisited (x.inst i)) = 1 := by
  induction is generalizing e with
  | nil => simp at h
  | cons j is ih =>
    rw [List.foldl_cons]
    rcases List.mem_cons.mp h with rfl | h
    · exact List.foldlRecOn (motive := fun e : Device => e.rd (fVisited (x.inst i)) = 1) _ _ (rd_markVisit_same e i) fun _ he k _ => rd_markVisit he k
    · exact ih h

/-- The counts of a tile are none of the marks (Tables 7-16, 8-13). -/
theorem rd_visited_tileCount {f : Nat → Fld} (hf : ∀ t, t < 32 → (f t).addr < 0x300000) (e : Device) (n : Nat) :
    (tileCount e p l f).rd (fVisited n) = e.rd (fVisited n) := by
  unfold tileCount
  split
  · rfl
  · next t hh =>
    have := hf t (hostOf_lt hh)
    exact rd_wr_addr (by simp only [fVisited]; omega) e _

theorem rd_visited_exchLanded (hmode : x.mode = 0) {i : Nat} (hi : i < x.nent) (hrows : 0 < x.landed i) :
    (exchLanded p l op x d).rd (fVisited (x.inst i)) = 1 := by
  have hcount (e : Device) : (countExchange p l x e).rd (fVisited (x.inst i)) = e.rd (fVisited (x.inst i)) := by
    unfold countExchange
    dsimp only
    rw [apply_ite (fun e : Device => e.rd (fVisited (x.inst i))), rd_visited_tileCount (fun t ht => by simp only [fSkeinVoids, tileReg]; omega),
      rd_visited_tileCount (fun t ht => by simp only [fExchanges, tileReg]; omega), ite_self]
  have hseen : i ∈ x.seen := by unfold Exch.seen; rw [if_pos hmode]; simp [hi, hrows]
  unfold exchLanded
  rw [hcount]
  exact rd_visited_foldl hseen

end

/-- Settles O22: a link that is over (`cableComplete_over`), one with a bad word (`cableComplete_ue`), an exchange that has landed
(`skeinComplete_landed`). -/
theorem exchangesComplete : Obligations.ExchangesComplete := by
  unfold Obligations.ExchangesComplete
  intro p l op h s hh hfree
  refine ⟨fun k hlink hover hzero => ?ended, fun k b hlink hbad hmeet => ?bad, fun x hexch hland hsent hread hwrite => ?landed⟩
  case ended => rw [exec_cableComplete, cableComplete_over hh hfree hlink hover hzero]; rfl
  case bad => rw [exec_cableComplete, cableComplete_ue hfree hlink hbad hmeet]
  case landed =>
    refine ⟨exchLanded p l op x s.dev, ?_, mem_exchLanded, exchs_exchLanded, fun hmode i hi hrows _ => rd_visited_exchLanded hmode hi hrows⟩
    rw [exec_skeinComplete, skeinComplete_landed hfree hexch hland hsent hread hwrite]

end Sys2Proof.Machine
end

section
/-! PROOF. Writes by the access type of each field (R5, R6), and the shadow set (R388). -/
namespace Sys2Proof.Machine

theorem exec_shadowWrite (a : BitVec 32) (w : Word) (s : State) : exec (.shadowWrite a w) s = .next (s.withDev (shadowWrite a.toNat w s.dev)) := rfl
theorem exec_registerWrite (a : BitVec 32) (w : Word) (s : State) : exec (.registerWrite a w) s = .next (s.withDev (writeReg a.toNat w s.dev)) := rfl

-- Words under a mask.

theorem merge_and (x w m : Word) : ((x &&& ~~~m) ||| (w &&& m)) &&& m = w &&& m := by
  ext i hi; simp; cases m[i] <;> simp
theorem merge_and_not (x w m : Word) : ((x &&& ~~~m) ||| (w &&& m)) &&& ~~~m = x &&& ~~~m := by
  ext i hi; simp; cases m[i] <;> simp
theorem merge_and_apart {m k : Word} (x w : Word) (h : m &&& k = 0) : ((x &&& ~~~m) ||| (w &&& m)) &&& k = x &&& k := by
  ext i hi
  have hbit : (m &&& k)[i] = false := by rw [h]; simp
  simp at hbit ⊢
  cases hm : m[i] <;> simp_all
theorem whole_and (x : Word) : BitVec.ofNat 64 (maskOf 63 0) &&& x = x := by
  rw [show BitVec.ofNat 64 (maskOf 63 0) = BitVec.allOnes 64 by decide, BitVec.allOnes_and]
theorem and_within {f m : Word} (x : Word) (h : f &&& m = m) : x &&& f &&& m = x &&& m := by rw [BitVec.and_assoc, h]

-- Where the fields of each access type stand.

/-- Registers with RW fields. -/
theorem rwMask_cases {n : Nat} (h : rwMask n ≠ 0) : n = 0x20 ∨ n = 0x10100 ∨ n = 0x40200 ∨ n = 0x40480 ∨ n = 0x80000 ∨ n = 0x81000 ∨
    (0x300000 ≤ n ∧ n < 0x500000 ∧ n % 0x10000 = 8) ∨ (0x500200 ≤ n ∧ n < 0x500240 ∧ n % 8 = 0) ∨ n = 0x600018 := by
  by_contra hno
  simp only [not_or] at hno
  obtain ⟨h1, h2, h3, h4, h5, h6, h7, h8, h9⟩ := hno
  exact h (by unfold rwMask; rw [if_neg h1, if_neg h2, if_neg h3, if_neg h4, if_neg h5, if_neg h6, if_neg h7, if_neg h8, if_neg h9])

/-- Registers with RWS fields. -/
theorem rwsMask_cases {n : Nat} (h : rwsMask n ≠ 0) : n = 0x10010 ∨ (n = 0x10018 ∨ n = 0x10020 ∨ n = 0x10030 ∨ n = 0x10038) ∨ n = 0x10028 ∨
    n = 0x20008 ∨ n = 0x20010 ∨ (0x50000 ≤ n ∧ n < 0x50080 ∧ n % 16 = 0) ∨ n = 0x80000 ∨ (0x80100 ≤ n ∧ n < 0x80180 ∧ n % 8 = 0) ∨
    (0x80200 ≤ n ∧ n < 0x80280 ∧ n % 8 = 0) ∨ (0x80300 ≤ n ∧ n < 0x80340 ∧ n % 8 = 0) := by
  by_contra hno
  obtain ⟨h1, hno⟩ := not_or.mp hno
  obtain ⟨h2, hno⟩ := not_or.mp hno
  obtain ⟨h3, hno⟩ := not_or.mp hno
  obtain ⟨h4, hno⟩ := not_or.mp hno
  obtain ⟨h5, hno⟩ := not_or.mp hno
  obtain ⟨h6, hno⟩ := not_or.mp hno
  obtain ⟨h7, hno⟩ := not_or.mp hno
  obtain ⟨h8, hno⟩ := not_or.mp hno
  obtain ⟨h9, h10⟩ := not_or.mp hno
  exact h (by unfold rwsMask; rw [if_neg h1, if_neg h2, if_neg h3, if_neg h4, if_neg h5, if_neg h6, if_neg h7, if_neg h8, if_neg h9, if_neg h10])

/-- A register with RWS fields stands in a block, at an aligned address below the tiles'. -/
theorem rwsMask_at {n : Nat} (h : rwsMask n ≠ 0) : n % 8 = 0 ∧ inBlock n = true ∧ n < 0x90000 ∧ n ≠ 0x10008 ∧ n ≠ 0x40480 := by
  have hat : n % 8 = 0 ∧ (n < 0x60000 ∨ 0x80000 ≤ n) ∧ n < 0x90000 ∧ n ≠ 0x10008 ∧ n ≠ 0x40480 := by
    rcases rwsMask_cases h with h | h | h | h | h | h | h | h | h | h <;> omega
  obtain ⟨halign, hblock, hlt, hrest⟩ := hat
  refine ⟨halign, ?_, hlt, hrest⟩
  simp only [inBlock, Bool.or_eq_true, Bool.and_eq_true, decide_eq_true_eq]
  omega

theorem w1cMask_at {n : Nat} (h : w1cMask n ≠ 0) : n = 0x600000 := by
  by_contra hn
  exact h (if_neg hn)

theorem w1cMask_zero {n : Nat} (h : n ≠ 0x600000) : w1cMask n = 0 := if_neg h

theorem scrubAddr_none {n : Nat} (h : n < 0x300000 ∨ 0x500000 ≤ n ∨ n % 0x10000 ≠ 0x10) : scrubAddr n = none := by
  unfold scrubAddr
  rw [if_neg]
  simp only [Bool.and_eq_true, decide_eq_true_eq]
  omega

-- Writes of the shadow set and of plain registers.

section
variable (d : Device) (n : Nat) (w : Word)

theorem shadowOf_putShadow_same : (putShadow d n w).shadowOf n = w &&& BitVec.ofNat 64 (rwsMask n) := tget_tset_same 0 d.shadow n _
theorem shadowOf_putShadow_other {b : Nat} (h : b ≠ n) : (putShadow d n w).shadowOf b = d.shadowOf b := tget_tset_other 0 0 d.shadow _ h
theorem reg_putShadow (b : Nat) : (putShadow d n w).reg b = d.reg b := rfl

theorem reg_writeRw_same : (writeRw d n w).reg n =
    (d.reg n &&& ~~~(BitVec.ofNat 64 (rwMask n))) ||| (w &&& BitVec.ofNat 64 (rwMask n)) := reg_setReg_same d n _
theorem reg_writeRw_other {b : Nat} (h : b ≠ n) : (writeRw d n w).reg b = d.reg b := reg_setReg_other d _ h

/-- RW and RWS bits of a register are apart. -/
theorem rw_and_rws : BitVec.ofNat 64 (rwMask n) &&& BitVec.ofNat 64 (rwsMask n) = 0 := by
  by_cases hrws : rwsMask n = 0
  · rw [hrws]; simp
  by_cases hrw : rwMask n = 0
  · rw [hrw]; simp
  obtain ⟨-, -, hlt, -, hsec⟩ := rwsMask_at hrws
  have hn : n = 0x80000 ∨ n = 0x20 ∨ n = 0x10100 ∨ n = 0x40200 ∨ n = 0x81000 := by
    have := rwMask_cases hrw
    omega
  rcases hn with rfl | rfl | rfl | rfl | rfl
  · decide
  all_goals exact absurd rfl hrws

theorem active_writeRw (b : Nat) : (writeRw d n w).active b = d.active b := by
  unfold Device.active
  by_cases hb : b = n
  · subst hb; rw [reg_writeRw_same]; exact merge_and_apart _ _ (rw_and_rws b)
  · rw [reg_writeRw_other d n w hb]

/-- What a write makes of a register without commands: its RW bits, and its RWS bits of the shadow set. -/
def writePlain : Device :=
  let d := if rwMask n = 0 then d else writeRw d n w
  if rwsMask n = 0 then d else putShadow d n w

theorem active_writePlain (b : Nat) : (writePlain d n w).active b = d.active b := by
  have hput (e : Device) : (putShadow e n w).active b = e.active b := rfl
  unfold writePlain
  dsimp only
  rw [apply_ite (fun e : Device => e.active b), hput, ite_self, apply_ite (fun e : Device => e.active b), active_writeRw, ite_self]

theorem shadow_writePlain (h : rwsMask n ≠ 0) : (writePlain d n w).shadow = (putShadow d n w).shadow := by
  unfold writePlain
  dsimp only
  rw [if_neg h]
  split <;> rfl

theorem reg_writePlain (h : rwMask n ≠ 0) (b : Nat) : (writePlain d n w).reg b = (writeRw d n w).reg b := by
  unfold writePlain
  dsimp only
  rw [if_neg h]
  split <;> rfl

variable {d n}

/-- Nothing is written while X0 is not ON, at a misaligned address or outside the blocks, or, while a swap is pending, to a register with RWS
fields (R388, R405). -/
theorem writeReg_open (hon : d.domOn 72 = true) (halign : n % 8 = 0) (hblock : inBlock n = true) (hidle : rwsMask n = 0 ∨ d.rd fCfgState ≠ 1) :
    ¬ (n % 8 ≠ 0 || !inBlock n || !d.domOn 72 || (rwsMask n ≠ 0 && d.rd fCfgState = 1)) = true := by
  rcases hidle with h | h <;> simp [halign, hblock, hon, h]

theorem writeReg_plain (hon : d.domOn 72 = true) (halign : n % 8 = 0) (hblock : inBlock n = true) (hidle : rwsMask n = 0 ∨ d.rd fCfgState ≠ 1)
    (hcfg : n ≠ 0x10008) (htest : n ≠ 0x700000) (halert : n ≠ 0x600000) (hsec : n = 0x40480 → d.rd fMode = 0) (hscrub : scrubAddr n = none) :
    writeReg n w d = writePlain d n w := by
  have hopen : ¬ (n = 0x40480 && d.rd fMode ≠ 0) = true := by simpa using hsec
  unfold writeReg
  rw [if_neg (writeReg_open hon halign hblock hidle), if_neg hcfg, if_neg htest, if_neg (not_not.mpr (w1cMask_zero halert)), if_neg hopen, hscrub]
  rfl

/-- A register with RWS fields has no command and is no other kind. -/
theorem writeReg_rws (hon : d.domOn 72 = true) (hrws : rwsMask n ≠ 0) (hidle : d.rd fCfgState ≠ 1) : writeReg n w d = writePlain d n w := by
  obtain ⟨halign, hblock, hlt, hcfg, hsec⟩ := rwsMask_at hrws
  exact writeReg_plain w hon halign hblock (.inr hidle) hcfg (by omega) (by omega) (absurd · hsec) (scrubAddr_none (by omega))

theorem writeReg_pending (hpend : d.rd fCfgState = 1) (hrws : rwsMask n ≠ 0) : writeReg n w d = d := if_pos (by simp [hpend, hrws])

theorem shadowWrite_idle (hon : d.domOn 72 = true) (hrws : rwsMask n ≠ 0) (hidle : d.rd fCfgState ≠ 1) : shadowWrite n w d = putShadow d n w :=
  if_neg (by simp [hon, hrws, hidle])
theorem shadowWrite_pending (hpend : d.rd fCfgState = 1) : shadowWrite n w d = d := if_pos (by simp [hpend])

/-- A register with RW fields, written as such. -/
theorem writeReg_rw (hon : d.domOn 72 = true) (halign : n % 8 = 0) (hblock : inBlock n = true) (hrw : rwMask n ≠ 0)
    (hidle : rwsMask n = 0 ∨ d.rd fCfgState ≠ 1) (hsec : n = 0x40480 → d.rd fMode = 0) : writeReg n w d = writePlain d n w := by
  have hat := rwMask_cases hrw
  exact writeReg_plain w hon halign hblock hidle (by omega) (by omega) (by omega) hsec (scrubAddr_none (by omega))

end

-- Reads (R5, R6).

/-- A read shows no reserved bit and none of access WO. -/
theorem readReg_and_not (d : Device) (b : Nat) : d.readReg b &&& ~~~(BitVec.ofNat 64 (fieldBits b)) = 0 := by
  unfold Device.readReg
  ext i hi
  simp

/-- A register with RW fields, outside the blocks of tiles and stacks, shows itself. -/
theorem shownReg_rw {n : Nat} (hrw : rwMask n ≠ 0) (hout : n < 0x100000 ∨ 0x500000 ≤ n) (d : Device) : d.shownReg n = d.reg n := by
  have hat := rwMask_cases hrw
  unfold Device.shownReg
  rw [if_neg (by omega), if_neg (by omega), if_neg (by omega), if_neg, if_neg (by omega), if_neg, if_neg, if_neg, if_neg, if_neg]
  all_goals
    simp only [Bool.and_eq_true, decide_eq_true_eq]
    omega

/-- Its RW fields are fields that a read shows. -/
theorem fieldBits_rw {n : Nat} (hrw : rwMask n ≠ 0) (hout : n < 0x100000 ∨ 0x500000 ≤ n) :
    BitVec.ofNat 64 (fieldBits n) &&& BitVec.ofNat 64 (rwMask n) = BitVec.ofNat 64 (rwMask n) := by
  rcases rwMask_cases hrw with rfl | rfl | rfl | rfl | rfl | rfl | h | h | rfl
  · decide
  · decide
  · decide
  · decide
  · decide
  · decide
  · omega
  · obtain ⟨hlo, hhi, -⟩ := h
    have hall : fieldBits n = maskOf 63 0 := by
      unfold fieldBits
      dsimp only
      rw [if_neg (by omega), if_neg (by omega), if_neg (by omega), if_neg (by omega), if_neg (by omega), if_neg (by omega), if_neg (by omega),
        if_neg (by omega), if_neg (by omega), if_pos (by omega), if_neg (by omega), if_neg (by omega), if_neg (by omega), if_pos (by omega)]
    rw [hall, whole_and]
  · decide

/-- CFG_SH_DATA shows the shadow set's register that CFG_SH_ADDR names (R388). -/
theorem readReg_shadow (d : Device) : d.readReg 0x10108 = d.shadowOf (bits (d.reg 0x10100).toNat 23 0) := by
  have hshown : d.shownReg 0x10108 = d.shadowOf (bits (d.reg 0x10100).toNat 23 0) := by
    unfold Device.shownReg
    rw [if_neg (by decide), if_neg (by decide), if_pos rfl]
  unfold Device.readReg
  rw [hshown, BitVec.and_comm]
  exact whole_and _

/-- Settles O56: a register with RWS or RW fields is written as such (`writeReg_rws`, `writeReg_rw`), and every other kind by its own rule. -/
theorem shadowWrites : Obligations.ShadowWrites := by
  unfold Obligations.ShadowWrites
  refine ⟨?shadow, ?access⟩
  case shadow =>
    intro a w s
    dsimp only
    intro hon hrws
    refine ⟨fun hidle => ⟨?direct, ?byRegister⟩, fun hpend => ⟨?direct', ?byRegister', fun m x h hlen hzero haddr => ?weneus⟩, ?data⟩
    case direct =>
      refine ⟨_, exec_shadowWrite a w s, ?_⟩
      rw [shadowWrite_idle w hon hrws hidle]
      exact ⟨shadowOf_putShadow_same _ _ _, fun b hb => shadowOf_putShadow_other _ _ _ hb, fun b => rfl, rfl, rfl⟩
    case byRegister =>
      refine ⟨_, exec_registerWrite a w s, ?_⟩
      rw [writeReg_rws w hon hrws hidle]
      have hshadow := shadow_writePlain s.dev a.toNat w hrws
      refine ⟨?_, fun b hb => ?_, fun b => active_writePlain _ _ _ b⟩
      · unfold Device.shadowOf; rw [hshadow]; exact shadowOf_putShadow_same _ _ _
      · unfold Device.shadowOf; rw [hshadow]; exact shadowOf_putShadow_other _ _ _ hb
    case direct' => rw [exec_shadowWrite, shadowWrite_pending w hpend]; rfl
    case byRegister' => rw [exec_registerWrite, writeReg_pending w hpend hrws]; rfl
    case weneus =>
      obtain ⟨halign, hblock, -, -, -⟩ := rwsMask_at hrws
      rw [exec_weneusWrite, weneusWrite, wenRequest_of_asked h]
      dsimp only
      have hpend : (s.dev.begun m x).rd fCfgState = 1 := hpend
      rw [haddr, if_neg (by simp [hlen, hzero, halign, hblock]), if_pos (by simp [hrws, hpend])]
      rfl
    case data => exact readReg_shadow s.dev
  case access =>
    intro a w s
    dsimp only
    refine ⟨exec_registerWrite a w s, readReg_and_not s.dev, fun hon halign hblock => ⟨?readOnly, ?plain, ?clear, ?secured⟩⟩
    case readOnly =>
      intro hrw hrws hw1c hcfg htest hscrub
      rw [writeReg_plain w hon halign hblock (.inl hrws) hcfg htest (fun h => by rw [h] at hw1c; contradiction) (fun h => by rw [h] at hrw; contradiction) hscrub]
      unfold writePlain
      dsimp only
      rw [if_pos hrws, if_pos hrw]
    case plain =>
      intro hrw hidle hsec
      rw [writeReg_rw w hon halign hblock hrw hidle hsec]
      simp only [reg_writePlain _ _ _ hrw]
      rw [reg_writeRw_same]
      refine ⟨merge_and _ _ _, merge_and_not _ _ _, fun b hb => reg_writeRw_other _ _ _ hb, fun hout => ?_⟩
      unfold Device.readReg
      rw [shownReg_rw hrw hout, reg_writePlain _ _ _ hrw, and_within _ (fieldBits_rw hrw hout), reg_writeRw_same, merge_and]
    case clear =>
      intro hw1c
      have ha := w1cMask_at hw1c
      rw [ha] at halign hblock ⊢
      have hopen := writeReg_open hon halign hblock (.inl rfl)
      unfold writeReg
      rw [if_neg hopen, if_neg (by decide), if_neg (by decide), if_pos (by decide)]
      exact ⟨fun h => if_pos h, fun h => if_neg (by simp [h])⟩
    case secured =>
      intro ha hmode
      rw [ha] at halign hblock ⊢
      have hopen := writeReg_open hon halign hblock (.inl rfl)
      unfold writeReg
      rw [if_neg hopen, if_neg (by decide), if_neg (by decide), if_neg (by decide), if_pos (by simpa using hmode)]

end Sys2Proof.Machine
end

section
/-! PROOF. Start-up steps, input power, RESET_N and TEST_EN (R384, R413, R414, R417). -/
namespace Sys2Proof.Machine

theorem exec_startupStepDone (r : BootReport) (s : State) :
    exec (.startupStepDone r) s = .next (s.withDev (startupStep r s.dev)) := rfl
theorem exec_vinRise (mv : Nat) (s : State) : exec (.vinRise mv) s = .next (tapFollows s (vinRise mv s.dev)) := rfl
theorem exec_vinLow (mv : Nat) (s : State) : exec (.vinLow mv) s = .next (tapFollows s (vinLow mv s.dev)) := rfl
theorem exec_vinOver (mv : Nat) (s : State) : exec (.vinOver mv) s = .next (tapFollows s (vinOver mv s.dev)) := rfl
theorem exec_overVoltageLockoutEnd (mv : Nat) (s : State) :
    exec (.overVoltageLockoutEnd mv) s = .next (tapFollows s (lockoutEnd mv s.dev)) := rfl
theorem exec_resetNFall (s : State) : exec .resetNFall s = .next (tapFollows s (resetFall s.dev)) := rfl
theorem exec_resetNRise (st : Straps) (s : State) : exec (.resetNRise st) s = .next (tapFollows s (resetRise st s.dev)) := rfl
theorem exec_testEnRise (s : State) : exec .testEnRise s = .next (s.withDev (testRise s.dev)) := rfl

-- What a record leaves alone (R369).

/-- A part of the state that posts keep, and that holds no record on its way to the log, is kept by a record. -/
theorem keeps_addRecord {γ : Type} {π : Device → γ} (h : PostKeeps π)
    (hstage : ∀ (e : Device) l n k, π { e with staged := l, seqNv := n, free := k } = π e) (d : Device) (r : ERec) : π (addRecord d r) = π d := by
  have hinc (e : Device) (f : Fld) (n : Nat) : π (e.inc f n) = π e := h.wr e f _
  have hrefuse (e : Device) (n k : Nat) : π (refuseDom e n k) = π e := by
    unfold refuseDom
    split
    · exact h.dom e n _
    · rfl
  unfold addRecord
  dsimp only
  simp only [apply_ite π, hinc, h.wr, ite_self]
  split
  · rw [apply_ite π, hrefuse, ite_self, h.wr, hstage]
  · rw [h.wr, hstage]

/-- So is it by a fatal error, which also ends running work items and sets the hold (R374). -/
theorem keeps_fatalHold {γ : Type} {π : Device → γ} (h : PostKeeps π)
    (hstage : ∀ (e : Device) l n k, π { e with staged := l, seqNv := n, free := k } = π e) (d : Device) (r : ERec) : π (fatalHold d r) = π d := by
  unfold fatalHold
  dsimp only
  rw [h.wr, foldl_keeps π _ (fun d p => h.recordFault d p _), keeps_addRecord h hstage]

-- Errors of support units leave alone what start-up goes on from (R367).

/-- What start-up keeps beside registers: BOOT_COUNT and the active set in MRAM, and whether step 7 is done. -/
def Device.bootKept (d : Device) : Nat × Tab Word × Bool := (d.bootNv, d.mramActive, d.step7)

theorem bootKept_postKeeps : PostKeeps Device.bootKept where
  wr _ _ _ := rfl
  dom _ _ _ := rfl
  port _ _ _ := rfl
  part _ _ _ := rfl
  tile _ _ _ _ _ _ := rfl

section
variable (d : Device)

theorem bootKept_addRecord (r : ERec) : (addRecord d r).bootKept = d.bootKept :=
  keeps_addRecord bootKept_postKeeps (fun _ _ _ _ => rfl) d r

theorem bootKept_requestCheck (r : ERec) : (requestCheck d r).bootKept = d.bootKept := by
  unfold requestCheck
  split
  · rfl
  · split
    · exact bootKept_addRecord d _
    · rfl

theorem bootKept_errorCheck (r : ERec) : (errorCheck d r).bootKept = d.bootKept :=
  (bootKept_requestCheck _ _).trans (bootKept_addRecord d _)

theorem bootKept_fatalCheck (r : ERec) : (fatalCheck d r).bootKept = d.bootKept := by
  unfold fatalCheck
  dsimp only
  rw [bootKept_requestCheck, keeps_fatalHold bootKept_postKeeps fun _ _ _ _ => rfl]

theorem bootKept_ueFault (p : Nat) (ls : List Nat) (r : ERec) : (ueFault d p ls r).bootKept = d.bootKept := by
  unfold ueFault
  dsimp only
  rw [bootKept_postKeeps.tilesFault, bootKept_errorCheck]

theorem bootKept_supportFound (x : SupportFind) : (supportFound d x).bootKept = d.bootKept := by
  unfold supportFound
  dsimp only
  split
  · rw [apply_ite Device.bootKept, bootKept_fatalCheck, ite_self]
  · split
    · exact bootKept_errorCheck d _
    · split
      · exact bootKept_errorCheck d _
      · exact bootKept_ueFault d _ _ _

theorem bootKept_supportFounds (xs : List SupportFind) : (supportFounds d xs).bootKept = d.bootKept :=
  foldl_keeps Device.bootKept supportFound bootKept_supportFound _ _

-- The steps (Table 16-1).

/-- A domain that comes ON is ON. -/
theorem domOn_comeOn (n : Nat) : (comeOn d n).domOn n = true := by
  unfold Device.domOn comeOn
  rw [rd_wr_disjoint rfl, rd_wr_fits rfl]
  rfl

/-- The phase is none of a domain's fields. -/
theorem domOn_wr_phase (n v : Nat) : (d.wr fPhase v).domOn n = d.domOn n := by
  unfold Device.domOn
  rw [rd_wr_addr (by simp only [fPhase, fDom]; omega)]

theorem domOn_comeOn_other {n m : Nat} (h : n ≠ m) : (comeOn d m).domOn n = d.domOn n := by
  unfold Device.domOn comeOn
  rw [rd_wr_addr (by simp only [fDomReady, fDom]; omega), rd_wr_addr (by simp only [fDom]; omega)]

/-- Step 3 counts the boot (R384). -/
theorem bootNv_bootRom : (bootRom d).bootNv = (d.bootNv + 1) % 2 ^ 32 := rfl

/-- Step 5: a register with RWS fields takes its active value (R387). -/
theorem active_putActive_same (a : Nat) (w : Word) : (putActive d a w).active a = w &&& BitVec.ofNat 64 (rwsMask a) := by
  show (d.setReg a ((d.reg a &&& ~~~(BitVec.ofNat 64 (rwsMask a))) ||| (w &&& BitVec.ofNat 64 (rwsMask a)))).reg a &&&
    BitVec.ofNat 64 (rwsMask a) = _
  rw [reg_setReg_same, merge_and]

theorem active_putActive_other {a b : Nat} (h : b ≠ a) (w : Word) : (putActive d a w).active b = d.active b :=
  congrArg (· &&& BitVec.ofNat 64 (rwsMask b)) (reg_setReg_other d _ h)

theorem mram_putActive_other {a b : Nat} (h : b ≠ a) (w : Word) : tget 0 (putActive d a w).mramActive b = tget 0 d.mramActive b :=
  tget_tset_other 0 0 d.mramActive _ h

theorem mram_putActive_same (a : Nat) (w : Word) : tget 0 (putActive d a w).mramActive a = w &&& BitVec.ofNat 64 (rwsMask a) :=
  tget_tset_same 0 d.mramActive a _

/-- A register takes its active value from MRAM. -/
def loadActive (d : Device) (a : Nat) : Device := putActive d a (tget 0 d.mramActive a)

variable {d}

theorem active_loadActive {b : Nat} {w : Word} (hmram : tget 0 d.mramActive b &&& BitVec.ofNat 64 (rwsMask b) = w) (a : Nat) :
    tget 0 (loadActive d a).mramActive b &&& BitVec.ofNat 64 (rwsMask b) = w ∧ (a = b ∨ d.active b = w → (loadActive d a).active b = w) := by
  unfold loadActive
  by_cases hb : b = a
  · subst hb
    rw [mram_putActive_same, active_putActive_same, hmram, ← hmram, BitVec.and_assoc, BitVec.and_self]
    exact ⟨rfl, fun _ => rfl⟩
  · rw [mram_putActive_other _ hb, active_putActive_other _ hb]
    exact ⟨hmram, fun h => h.resolve_left (Ne.symm hb)⟩

/-- Each register of a list does. -/
theorem active_loadActive_foldl {b : Nat} {w : Word} {as : List Nat} (hmram : tget 0 d.mramActive b &&& BitVec.ofNat 64 (rwsMask b) = w)
    (h : b ∈ as ∨ d.active b = w) : (as.foldl loadActive d).active b = w := by
  induction as generalizing d with
  | nil => exact h.resolve_left (by simp)
  | cons a as ih =>
    obtain ⟨hkept, hset⟩ := active_loadActive hmram a
    refine ih hkept ?_
    rcases h with h | h
    · rcases List.mem_cons.mp h with h | h
      · exact .inr (hset (.inl h.symm))
      · exact .inl h
    · exact .inr (hset (.inr h))

theorem active_loadSets {a : Nat} (ha : a ∈ rwsRegs) : (loadSets true true d).active a = tget 0 d.mramActive a &&& BitVec.ofNat 64 (rwsMask a) :=
  active_loadActive_foldl rfl (.inl ha)

/-- The phase stands in no register with RWS fields. -/
theorem active_wr_phase {a : Nat} (ha : a ∈ rwsRegs) (e : Device) (v : Nat) : (e.wr fPhase v).active a = e.active a := by
  have hall : ∀ a ∈ rwsRegs, a ≠ 8 := by decide
  exact congrArg (· &&& BitVec.ofNat 64 (rwsMask a)) (reg_setReg_other e _ (hall a ha))

end

section
variable (d : Device)

/-- What start-up makes of the device once the support units' errors are recorded. -/
theorem startupStep_due {d : Device} {r : BootReport} (h : d.stepDue r.step = true) :
    startupStep r d = startupEnd r.step r (supportFounds d r.support) := if_pos h

theorem step1_done (r : BootReport) : (startupEnd 1 r d).rd fPhase = 2 ∧ (startupEnd 1 r d).pwrOk = true ∧ (startupEnd 1 r d).domOn 79 = true ∧
    (startupEnd 1 r d).strapPos = r.straps.brdPos ∧ (startupEnd 1 r d).strapSlot = r.straps.slotId ∧
    (startupEnd 1 r d).strapBoard = r.straps.boardMode :=
  ⟨rd_wr_fits rfl _, rfl, (domOn_wr_phase _ 79 2).trans (domOn_comeOn _ 79), rfl, rfl, rfl⟩

theorem step2_done (r : BootReport) : (startupEnd 2 r d).rd fPhase = 3 ∧ (startupEnd 2 r d).domOn 72 = true ∧ (startupEnd 2 r d).domOn 78 = true :=
  ⟨rd_wr_fits rfl _, (domOn_wr_phase _ 72 3).trans ((domOn_comeOn_other _ (by decide)).trans (domOn_comeOn d 72)),
    (domOn_wr_phase _ 78 3).trans (domOn_comeOn _ 78)⟩

/-- Where component 1 is not VERIFIED in ADMITTED, the recovery service runs (R384). -/
def afterRom (e : Device) : Device :=
  if e.rd (fFwStatus 1) ≠ 1 && e.rd fMode = 0 then { e with recovery := true } else e.wr fPhase 4
theorem startupEnd_3 (r : BootReport) : startupEnd 3 r d = afterRom (bootRom d) := by
  unfold startupEnd; rw [if_neg (by decide), if_neg (by decide), if_pos rfl]; rfl
theorem startupEnd_5 (r : BootReport) : startupEnd 5 r d = (loadSets r.activeOk r.shadowOk d).wr fPhase 6 := by
  unfold startupEnd; rw [if_neg (by decide), if_neg (by decide), if_neg (by decide), if_neg (by decide), if_pos rfl]
theorem startupEnd_8 (r : BootReport) : startupEnd 8 r d = finishBoot { d with step8 := true } := by
  unfold startupEnd
  rw [if_neg (by decide), if_neg (by decide), if_neg (by decide), if_neg (by decide), if_neg (by decide), if_neg (by decide), if_neg (by decide)]

/-- Step 3 goes on to step 4, or ends in the recovery service. -/
theorem afterRom_done (e : Device) : (afterRom e).bootNv = e.bootNv ∧ ((afterRom e).rd fPhase = 4 ∨ (afterRom e).recovery = true) := by
  unfold afterRom
  split
  · exact ⟨rfl, .inr rfl⟩
  · exact ⟨rfl, .inl (rd_wr_fits rfl _)⟩

theorem step3_done (r : BootReport) : (startupEnd 3 r d).bootNv = (d.bootNv + 1) % 2 ^ 32 ∧
    ((startupEnd 3 r d).rd fPhase = 4 ∨ (startupEnd 3 r d).recovery = true) := by
  obtain ⟨hboot, hphase⟩ := afterRom_done (bootRom d)
  rw [startupEnd_3]
  exact ⟨hboot.trans (bootNv_bootRom d), hphase⟩

theorem step5_done {r : BootReport} (hactive : r.activeOk = true) (hshadow : r.shadowOk = true) : (startupEnd 5 r d).rd fPhase = 6 ∧
    ∀ a ∈ rwsRegs, (startupEnd 5 r d).active a = tget 0 d.mramActive a &&& BitVec.ofNat 64 (rwsMask a) := by
  have hend : startupEnd 5 r d = (loadSets true true d).wr fPhase 6 := by
    rw [startupEnd_5, hactive, hshadow]
  rw [hend]
  exact ⟨rd_wr_fits rfl _, fun a ha => (active_wr_phase ha _ 6).trans (active_loadSets ha)⟩

theorem step8_done {d : Device} (r : BootReport) (h7 : d.step7 = true) :
    (startupEnd 8 r d).rd fPhase = 9 ∧ (startupEnd 8 r d).rd fReady = 1 ∧ (startupEnd 8 r d).rd fMode = 0 := by
  have hend : startupEnd 8 r d = ((({ d with step8 := true } : Device).wr fMode 0).wr fPhase 9).wr fReady 1 := by
    rw [startupEnd_8, finishBoot, if_pos (by simp [h7])]
  rw [hend]
  refine ⟨?_, rd_wr_fits rfl _, ?_⟩
  · rw [rd_wr_disjoint rfl, rd_wr_fits rfl]
  · rw [rd_wr_addr (by decide), rd_wr_addr (by decide), rd_wr_fits rfl]

-- Input power (R414).

/-- Between 40 V and 60 V, with RESET_N high and no lockout, the input stage starts with step 1. -/
theorem tryStart_starts {d : Device} (hoff : d.powered = false) (hreset : d.resetN = true) (hlock : d.lockout = false)
    (hlo : 40000 ≤ d.vinMv) (hhi : d.vinMv ≤ 60000) : tryStart d = coldStart d :=
  if_pos (by simp [hoff, hreset, Device.vinStarts, within, hlock, hlo, hhi])

theorem coldStart_state : (coldStart d).powered = true ∧ (coldStart d).rd fPhase = 1 ∧ (coldStart d).vinMv = d.vinMv ∧ (coldStart d).lockout = d.lockout :=
  ⟨rfl, rd_wr_fits rfl _, rfl, rfl⟩

/-- A start leaves the TAP in Test-Logic-Reset (R416). -/
theorem tapFollows_start {s : State} {d : Device} (hoff : s.dev.powered = false) (hon : d.powered = true) :
    tapFollows s d = { s with dev := d, tap := Tap.reset } := by
  unfold tapFollows
  rw [if_pos (by simp [hoff, hon])]

/-- At `mv` millivolts, 62 V at most, the command's own rule decides. -/
theorem vinAt_low {mv : Nat} (h : mv ≤ 62000) (f : Device → Device) :
    vinAt mv f d = f { d with vinMv := mv, lockout := d.lockout && decide (60000 ≤ mv) } := if_neg (by omega)

/-- Above 62 V the input stage stops and is locked out. -/
theorem vinOver_stops {mv : Nat} (h : 62000 < mv) : vinOver mv d = { powerLoss { d with vinMv := mv } with lockout := true } := if_neg (by omega)
theorem vinRise_over {mv : Nat} (h : 62000 < mv) : vinRise mv d = vinOver mv d := if_pos h

/-- Every domain but D.AON is OFF after a reset by RESET_N or by request (R384, R413). -/
theorem dom_logicReset {n : Nat} (h : n < 79) : (logicReset d).rd (fDom n) = 2 := by
  unfold logicReset
  rw [rd_wr_addr (by simp only [fDom]; omega)]
  show (Device.reset.wr fTestEn (if d.testEn then 1 else 0)).rd (fDom n) = 2
  rw [rd_wr_addr (by simp only [fTestEn, fDom]; omega), rd_reset_dom (by omega), if_neg (by omega)]

theorem resetRise_powered {d : Device} (hlow : d.resetN = false) (hon : d.powered = true) (st : Straps) : resetRise st d =
    (comeOn { sampleStraps { d with resetN := true } st with pwrOk := true } 79).wr fPhase 2 := by
  unfold resetRise
  rw [if_neg (by simp [hlow])]
  exact if_pos hon

/-- The mode is none of what TEST_EN writes. -/
theorem mode_testEn (v : Nat) : (({ d with testEn := true } : Device).wr fTestEn v).rd fMode = d.rd fMode := rd_wr_disjoint rfl _ v

end

/-- Settles O57, step by step and pin by pin. -/
theorem startAndPins : Obligations.StartAndPins := by
  unfold Obligations.StartAndPins
  refine ⟨fun r s hdue => ?steps, fun mv s => ⟨?rise, ?low, fun hover => ⟨?overVin, ?riseOver⟩, ?lockoutEnd⟩, fun s => ?fall, fun st s hlow hon => ?risen,
    fun s => ?testEn⟩
  case steps =>
    have hkept := bootKept_supportFounds s.dev r.support
    simp only [Device.bootKept, Prod.mk.injEq] at hkept
    obtain ⟨hboot, hmram, h7⟩ := hkept
    refine ⟨_, exec_startupStepDone r s, ?_⟩
    rw [startupStep_due hdue]
    refine ⟨fun h => ?_, fun h => ?_, fun h => ?_, fun h ha hs => ?_, fun h hs => ?_⟩ <;> rw [h]
    · exact step1_done _ r
    · exact step2_done _ r
    · exact hboot ▸ step3_done _ r
    · exact hmram ▸ step5_done _ ha hs
    · exact step8_done r (h7.trans hs)
  case rise =>
    intro hoff hreset hlock hlo hhi
    have hstart : vinRise mv s.dev = coldStart { s.dev with vinMv := mv, lockout := s.dev.lockout && decide (60000 ≤ mv) } :=
      (vinAt_low _ (by omega) _).trans (tryStart_starts hoff hreset (by simp [hlock]) hlo hhi)
    obtain ⟨hpowered, hphase, hvin, -⟩ := coldStart_state { s.dev with vinMv := mv, lockout := s.dev.lockout && decide (60000 ≤ mv) }
    refine ⟨_, ?_, hpowered, hphase, hvin⟩
    rw [exec_vinRise, hstart, tapFollows_start hoff hpowered]
  case low =>
    intro hon hlow
    refine ⟨_, exec_vinLow mv s, ?_⟩
    unfold vinLow
    rw [vinAt_low _ (by omega)]
    dsimp only
    rw [if_neg (by simp [hon]), if_neg (by omega)]
    exact ⟨rfl, rfl, rfl, rfl, rfl, rfl⟩
  case overVin =>
    refine ⟨_, exec_vinOver mv s, ?_⟩
    rw [vinOver_stops _ hover]
    exact ⟨rfl, rfl, rfl⟩
  case riseOver =>
    refine ⟨_, exec_vinRise mv s, ?_⟩
    rw [vinRise_over _ hover, vinOver_stops _ hover]
    exact ⟨rfl, rfl, rfl⟩
  case lockoutEnd =>
    intro hoff hreset hlo hhi
    have hopen : (s.dev.lockout && decide (60000 ≤ mv)) = false := by simp; omega
    have hstart : lockoutEnd mv s.dev = coldStart { s.dev with vinMv := mv, lockout := s.dev.lockout && decide (60000 ≤ mv) } :=
      (vinAt_low _ (by omega) _).trans ((if_pos hhi).trans (tryStart_starts hoff hreset hopen hlo (by show mv ≤ 60000; omega)))
    obtain ⟨hpowered, -, -, hlock⟩ := coldStart_state { s.dev with vinMv := mv, lockout := s.dev.lockout && decide (60000 ≤ mv) }
    refine ⟨_, ?_, hlock.trans hopen, hpowered⟩
    rw [exec_overVoltageLockoutEnd, hstart, tapFollows_start hoff hpowered]
  case fall => exact ⟨_, exec_resetNFall s, rfl, rfl, rfl, rfl, rfl, fun n hn => dom_logicReset s.dev hn⟩
  case risen =>
    refine ⟨_, exec_resetNRise st s, ?_⟩
    rw [resetRise_powered hlow hon]
    exact ⟨rfl, rfl, rd_wr_fits rfl _, rfl, rfl⟩
  case testEn =>
    dsimp only
    refine ⟨fun hmode => ?_, fun hmode => ?_, rfl⟩ <;> rw [exec_testEnRise, testRise]
    · rw [if_neg (by rw [mode_testEn]; omega), if_neg (by simp [mode_testEn, hmode])]
    · rw [if_pos (by rw [mode_testEn]; exact hmode)]

end Sys2Proof.Machine
end

section
/-! PROOF. Swaps, passages, self-tests, resets and ALERT's clearing (R311, R368, R378, R381, R384, R385, R389 to R391). -/
namespace Sys2Proof.Machine

theorem exec_swap_cmd (s : State) : exec (.swap none) s = .next (s.withDev (occurs (s.dev.domOn 72) swapCmd s.dev)) := rfl
theorem exec_cancel_cmd (s : State) : exec (.cancel none) s = .next (s.withDev (occurs (s.dev.domOn 72) cancelCmd s.dev)) := rfl
theorem exec_revert_cmd (s : State) : exec (.revert none) s = .next (s.withDev (occurs (s.dev.domOn 72) revertCmd s.dev)) := rfl
theorem exec_swap_req (m : WenMsg) (s : State) : exec (.swap (some m)) s = .next (s.withDev (config 1 m s.dev)) := rfl
theorem exec_cancel_req (m : WenMsg) (s : State) : exec (.cancel (some m)) s = .next (s.withDev (config 2 m s.dev)) := rfl
theorem exec_revert_req (m : WenMsg) (s : State) : exec (.revert (some m)) s = .next (s.withDev (config 3 m s.dev)) := rfl
theorem exec_enterService (m : WenMsg) (s : State) : exec (.enterService m) s = .next (s.withDev (enterService m s.dev)) := rfl
theorem exec_enterAdmitted (m : WenMsg) (s : State) : exec (.enterAdmitted m) s = .next (s.withDev (enterAdmitted m s.dev)) := rfl
theorem exec_test_req (m : WenMsg) (s : State) : exec (.test (.weneus m)) s = .next (s.withDev (testReq m s.dev)) := rfl
theorem exec_test_reg (w : Word) (s : State) : exec (.test (.reg w)) s = .next (s.withDev (testCmd w s.dev)) := rfl
theorem exec_selfTestDone (s : State) : exec .selfTestDone s = .next (s.withDev (selfTestDone s.dev)) := rfl
theorem exec_warmReset (m : WenMsg) (s : State) : exec (.warmReset m) s = .next (s.withDev (warmResetReq m s.dev)) := rfl
theorem exec_fullReset (m : WenMsg) (s : State) : exec (.fullReset m) s = .next (tapFollows s (fullResetReq m s.dev)) := rfl

-- The configuration sets (R389 to R391).

/-- A set that passes its checks is applied at once where no work item runs (R390). -/
theorem swapCmd_idle {d : Device} (hidle : d.rd fCfgState = 0) (hchecks : d.setReason = 0) (hstill : ∀ p, p < 8 → (d.part p).isRunning = false) :
    swapCmd d = applySet d := by
  have hreason : d.swapReason = 0 := by unfold Device.swapReason; simp [hidle, hchecks]
  have hmask : ((List.range 8).map (fun p => if (d.part p).isRunning then 2 ^ p else 0)).sum = 0 := by
    refine List.sum_eq_zero fun v hv => ?_
    obtain ⟨p, hp, rfl⟩ := List.mem_map.mp hv
    rw [hstill p (List.mem_range.mp hp)]
    rfl
  unfold swapCmd
  dsimp only
  rw [if_neg (not_not.mpr hreason), hmask]
  exact if_pos rfl

/-- Copying a register's active value changes no active value. -/
theorem active_putShadow (d : Device) (a b : Nat) (w : Word) : (putShadow d a w).active b = d.active b := rfl

theorem shadowOf_copy {d : Device} {b : Nat} {as : List Nat} (h : b ∈ as ∨ d.shadowOf b = d.active b) :
    (as.foldl (fun d a => putShadow d a (d.active a)) d).shadowOf b = d.active b := by
  induction as generalizing d with
  | nil => exact h.resolve_left (by simp)
  | cons a as ih =>
    rw [List.foldl_cons, ← active_putShadow d a b (d.active a)]
    refine ih ?_
    rw [active_putShadow]
    by_cases hb : b = a
    · subst hb
      right
      rw [shadowOf_putShadow_same]
      unfold Device.active
      rw [BitVec.and_assoc, BitVec.and_self]
    · rw [shadowOf_putShadow_other _ _ _ hb]
      exact h.imp_left fun h => (List.mem_cons.mp h).resolve_left hb

/-- REVERT copies the active set into the shadow set (R389). -/
theorem shadowOf_revertCmd {d : Device} (hidle : d.rd fCfgState ≠ 1) {a : Nat} (ha : a ∈ rwsRegs) : (revertCmd d).shadowOf a = d.active a := by
  unfold revertCmd
  rw [if_neg hidle]
  exact shadowOf_copy (.inl ha)

/-- CONFIG runs its command and answers CFG_STAT, with REFUSED where the command was refused (R389). -/
theorem config_of_asked {d : Device} {m : WenMsg} {x : Sess} {c : Nat} (h : d.asked 0x12 [0] false m x) (hbody : (x.plain m).body = toLe 1 c)
    {e : Device} (he : cfgCommand c (d.begun m x) = e) :
    config c m d = replyTo e x.id 0x12 (if c ≠ 2 ∧ e.rd fCfgResult = 2 then 7 else 0) (toLe 8 (e.reg 0x10000).toNat) := by
  subst he
  unfold config
  refine (wenRequest_of_asked h (if_neg (not_not.mpr hbody))).trans ?_
  simp only [Bool.and_eq_true, decide_eq_true_eq]

-- Passages (R311).

theorem enterService_of_asked {d : Device} {m : WenMsg} {x : Sess} (h : d.asked 0x20 [0] false m x) (hmode : d.rd fMode = 0)
    (hready : d.rd fReady = 1) (hbody : (x.plain m).body = []) (hserve : d.mayServe = true) :
    enterService m d = beginPassage { d.begun m x with passageVia := some (x.id, 0x20) } true false 1 := by
  have hmode : (d.begun m x).rd fMode = 0 := hmode
  have hready : (d.begun m x).rd fReady = 1 := hready
  have hserve : (d.begun m x).mayServe = true := hserve
  refine wenRequest_of_asked_later h ?_
  rw [if_neg (by omega), if_neg (by simp [hmode, hready]), if_neg (not_not.mpr hbody), if_neg (by simp [hserve])]

theorem enterAdmitted_of_asked {d : Device} {m : WenMsg} {x : Sess} (h : d.asked 0x21 [0] false m x) (hmode : d.rd fMode = 2)
    (hlen : (x.plain m).body.length = 1) (hforce : fld (x.plain m).body 0 1 ≤ 1)
    (hjob : d.anyJob = false ∨ bit (fld (x.plain m).body 0 1) 0 = true) :
    let force := bit (fld (x.plain m).body 0 1) 0
    enterAdmitted m d = beginPassage { d.begun m x with passageVia := some (x.id, 0x21) } false force (if force then 2 else 1) := by
  have hmode : (d.begun m x).rd fMode = 2 := hmode
  have hjob : ¬ ((d.begun m x).anyJob && !bit (fld (x.plain m).body 0 1) 0) = true := by
    rcases hjob with h | h
    · simp [show (d.begun m x).anyJob = false from h]
    · simp [h]
  refine wenRequest_of_asked_later h ?_
  dsimp only
  rw [if_neg (by omega), if_neg (by omega), if_neg (by simp [hlen]; omega), if_neg hjob]

-- The self-test (R378, R381).

/-- No wake of a domain writes a register of the RAS and TEST blocks. -/
theorem reg_startExit_high (d : Device) {n a : Nat} (hn : n < 80) (ha : 0x600000 ≤ a) (c : Nat) : (startExit d n c).reg a = d.reg a := by
  have hlow (e : Device) (f : Fld) (v : Nat) (hf : f.addr < 0x600000) : (e.wr f v).reg a = e.reg a := reg_wr_other (by omega) v
  have hexit : (d.exiting n c).reg a = d.reg a := reg_exiting_other d n c (by omega)
  have hlink : (fLink (n - 64)).addr < 0x600000 := by simp only [fLink]; omega
  have hsrc : (fWakeSrc (n - 64)).addr < 0x600000 := by simp only [fWakeSrc]; omega
  have htrain : (fTrain (n - 32)).addr < 0x600000 := by simp only [fTrain, stkReg]; omega
  unfold Device.exiting at hexit
  unfold startExit
  dsimp only
  split
  · rw [reg_modPort, apply_ite (fun e : Device => e.reg a), hlow _ _ _ hlink, hlow _ _ _ hsrc, hexit, ite_self]
  · rw [apply_ite (fun e : Device => e.reg a), hlow _ _ _ htrain, hexit, ite_self]

theorem reg_wakeOne_high (d : Device) {n a : Nat} (hn : n < 80) (ha : 0x600000 ≤ a) (c : Nat) : (wakeOne d n c).reg a = d.reg a := by
  unfold wakeOne
  simp only [apply_ite (fun e : Device => e.reg a), reg_modDom, reg_startExit_high d hn ha, ite_self]

theorem reg_wakeDom_high (d : Device) {n a : Nat} (hn : n < 80) (ha : 0x600000 ≤ a) (c : Nat) : (wakeDom d n c).reg a = d.reg a := by
  rw [wakeDom_eq, reg_wakeOne_high _ hn ha, apply_ite (fun e : Device => e.reg a),
    (onlyDoms_wakeFabric d).reg a (fun m hm => by omega), ite_self]

/-- The self-test under way is none of a wake's business. -/
theorem bist_postKeeps : PostKeeps Device.bist where
  wr _ _ _ := rfl
  dom _ _ _ := rfl
  port _ _ _ := rfl
  part _ _ _ := rfl
  tile _ _ _ _ _ _ := rfl

/-- The domains of the targets that a command names (Table 15-7). -/
theorem bistDoms_lt {kind idx n : Nat} (h : n ∈ (bistTargets kind idx).flatMap (fun t => bistDoms t.1 t.2)) : n < 80 := by
  have hall : ∀ m ∈ (bistTargets 7 0).flatMap (fun t => bistDoms t.1 t.2), m < 80 := by decide
  unfold bistTargets at h hall
  dsimp only at h hall
  split at h
  · rw [if_pos rfl] at hall
    exact hall n h
  · split at h
    · simp only [List.flatMap_cons, List.flatMap_nil, List.append_nil] at h
      simp only [Bool.or_eq_true, Bool.and_eq_true, decide_eq_true_eq] at *
      unfold bistDoms at h
      split_ifs at h <;> simp only [List.mem_singleton, List.not_mem_nil] at h <;> omega
    · simp at h

/-- A self-test that the table covers starts, in ADMITTED (R378). -/
theorem startTest_covered {d : Device} {kind idx mode : Nat} (hmode : d.rd fMode = 0) (hcovers : d.tableCovers (bistTargets kind idx) mode = true)
    (via : Option (BitVec 32)) : (startTest kind idx mode via d).rd fTestStatus = 1 ∧ (startTest kind idx mode via d).bist =
      some { targets := bistTargets kind idx, mode := mode, failed := false, via := via.map (fun i => (i, 0x34)) } := by
  unfold startTest
  dsimp only
  rw [if_neg (by omega), if_neg (by simp [hcovers])]
  refine ⟨?_, foldl_keeps Device.bist _ (fun d n => bist_postKeeps.wakeDom d n 12) _ _⟩
  rw [foldl_keeps_of_mem (fun e : Device => e.rd fTestStatus) (fun n hn e => rd_of_reg (reg_wakeDom_high e (bistDoms_lt hn) (by decide) 12))]
  exact rd_wr_fits rfl _

theorem testCmd_starts {d : Device} {w : Word} (hstart : bit w.toNat 0 = true) (hfree : d.rd fTestStatus ≠ 1) (hon : d.domOn 72 = true) :
    testCmd w d = startTest (bits w.toNat 31 24) (bits w.toNat 23 16) (bits w.toNat 9 8) none d := by
  unfold testCmd
  exact if_neg (by simp [hstart, hfree, hon])

theorem testReq_starts {d : Device} {m : WenMsg} {x : Sess} (h : d.asked 0x34 [0] false m x) (hmode : d.rd fMode = 0)
    (hlen : (x.plain m).body.length = 3) (hnamed : bistTargets (fld (x.plain m).body 0 1) (fld (x.plain m).body 1 1) ≠ [])
    (hlo : 1 ≤ fld (x.plain m).body 2 1) (hhi : fld (x.plain m).body 2 1 ≤ 3) (hfree : d.rd fTestStatus ≠ 1)
    (hcovers : d.tableCovers (bistTargets (fld (x.plain m).body 0 1) (fld (x.plain m).body 1 1)) (fld (x.plain m).body 2 1) = true) :
    testReq m d = startTest (fld (x.plain m).body 0 1) (fld (x.plain m).body 1 1) (fld (x.plain m).body 2 1) (some x.id) (d.begun m x) := by
  have hmode : (d.begun m x).rd fMode = 0 := hmode
  have hfree : (d.begun m x).rd fTestStatus ≠ 1 := hfree
  have hstarted := (startTest_covered hmode (show (d.begun m x).tableCovers _ _ = true from hcovers) (some x.id)).1
  refine wenRequest_of_asked_later h ?_
  rw [if_neg (by omega), if_neg (by simp [hlen, hnamed]; omega), if_neg hfree]
  exact if_pos hstarted

/-- Results of I/O dies change no self-test under way. -/
theorem bist_applyTest {t : Nat × Nat} (ht : t.1 = 2) (d : Device) (mode : Nat) : (applyTest d mode t).bist = d.bist := by
  have hbad (e : Device) (l : List (Nat × Nat)) : ({ e with badTargets := l } : Device).bist = e.bist := rfl
  unfold applyTest
  split
  · rfl
  · unfold failTarget
    dsimp only
    rw [if_neg (by omega), if_neg (by omega), if_neg (by omega)]
    exact (hbad _ _).trans (keeps_fatalHold bist_postKeeps (fun _ _ _ _ => rfl) d _)

/-- The self-test of I/O dies ends with its status (R381). -/
theorem selfTestDone_dies {d : Device} {b : Bist} (hbist : d.bist = some b) (hvia : b.via = none) (hdies : ∀ t ∈ b.targets, t.1 = 2) :
    (selfTestDone d).bist = none ∧ (selfTestDone d).rd fTestStatus =
      if (b.targets.flatMap (testTarget d b.mode)).any (fun r => r.bad) then 3 else 2 := by
  have hdoms : b.targets.flatMap (fun t => bistDoms t.1 t.2) = [] := by
    rw [List.flatMap_eq_nil_iff]
    intro t ht
    rw [hdies t ht]
    rfl
  unfold selfTestDone
  simp only [hbist, hdoms, hvia, List.all_nil, Bool.not_true, Bool.false_eq_true, if_false, List.filter_nil, List.foldl_nil]
  refine ⟨foldl_keeps_of_mem Device.bist (fun t ht e => bist_applyTest (hdies t ht) e b.mode) _, ?_⟩
  unfold Device.inc
  rw [rd_wr_disjoint rfl, List.isSome_find?]
  have hfits (c : Bool) : fTestStatus.fits (if c then 3 else 2) = true := by cases c <;> rfl
  exact rd_wr_fits (hfits _) _

-- Resets by request (R384, R385).

/-- A warm reset runs steps 3 to 6 again. -/
theorem warmReset_phase (d : Device) : (warmReset d).rd fPhase = 3 ∧ (warmReset d).rd fWarm = 1 := by
  unfold warmReset
  dsimp only
  refine ⟨rd_wr_fits rfl _, ?_⟩
  rw [rd_wr_disjoint rfl, rd_wr_fits rfl]

/-- A full reset starts again with step 2. -/
theorem fullReset_state (d : Device) : (fullReset d).rd fPhase = 2 ∧ (fullReset d).sess = [] ∧ ∀ n, n < 79 → (fullReset d).rd (fDom n) = 2 := by
  unfold fullReset
  refine ⟨rd_wr_fits rfl _, rfl, fun n hn => ?_⟩
  rw [rd_wr_addr (by simp only [fPhase, fDom]; omega)]
  exact dom_logicReset d hn

theorem warmResetReq_of_asked {d : Device} {m : WenMsg} {x : Sess} (h : d.asked 0x35 [0] false m x) (hbody : (x.plain m).body = toLe 1 0) :
    warmResetReq m d = warmReset (replyTo (d.begun m x) x.id 0x35 0 []) := wenRequest_of_asked_later h (if_neg (not_not.mpr hbody))
theorem fullResetReq_of_asked {d : Device} {m : WenMsg} {x : Sess} (h : d.asked 0x35 [0] false m x) (hbody : (x.plain m).body = toLe 1 1) :
    fullResetReq m d = fullReset (replyTo (d.begun m x) x.id 0x35 0 []) := wenRequest_of_asked_later h (if_neg (not_not.mpr hbody))

/-- Settles O55, each request by its own rule. -/
theorem controlRequests : Obligations.ControlRequests := by
  unfold Obligations.ControlRequests
  refine ⟨fun s hon => ⟨?swap, ?cancel, ?revert, swapCmd_idle, fun hidle a ha => shadowOf_revertCmd hidle ha⟩, ?requests, ?command, ?tested,
    fun s => rfl⟩
  case swap => rw [exec_swap_cmd, hon]; rfl
  case cancel => rw [exec_cancel_cmd, hon]; rfl
  case revert => rw [exec_revert_cmd, hon]; rfl
  case requests =>
    intro m s x
    dsimp only
    refine ⟨fun h => ⟨fun hbody => ?_, fun hbody => ?_, fun hbody => ?_⟩, ?service, ?admitted, ?test, ?warm, ?full⟩
    · rw [exec_swap_req, config_of_asked h hbody rfl]; rfl
    · rw [exec_cancel_req, config_of_asked h hbody rfl]; rfl
    · rw [exec_revert_req, config_of_asked h hbody rfl]; rfl
    case service =>
      intro h hmode hready hbody hserve
      rw [exec_enterService, enterService_of_asked h hmode hready hbody hserve]
    case admitted =>
      intro h hmode hlen hforce hjob
      rw [exec_enterAdmitted, enterAdmitted_of_asked h hmode hlen hforce hjob]
    case test =>
      intro h hmode hlen hnamed hlo hhi hfree hcovers
      refine ⟨_, exec_test_req m s, ?_⟩
      rw [testReq_starts h hmode hlen hnamed hlo hhi hfree hcovers]
      exact startTest_covered (d := s.dev.begun m x) hmode hcovers (some x.id)
    case warm =>
      intro h hbody
      exact ⟨_, exec_warmReset m s, warmResetReq_of_asked h hbody, by rw [warmResetReq_of_asked h hbody]; exact warmReset_phase _⟩
    case full =>
      intro h hbody
      exact ⟨_, exec_fullReset m s, fullResetReq_of_asked h hbody, by rw [fullResetReq_of_asked h hbody]; exact fullReset_state _⟩
  case command =>
    intro w s
    dsimp only
    intro hstart hfree hon hmode hcovers
    obtain ⟨hstatus, hbist⟩ := startTest_covered hmode hcovers none
    refine ⟨_, { targets := bistTargets (bits w.toNat 31 24) (bits w.toNat 23 16), mode := bits w.toNat 9 8, failed := false, via := none },
      exec_test_reg w s, ?_⟩
    rw [testCmd_starts hstart hfree hon]
    exact ⟨hstatus, hbist, rfl, rfl, rfl⟩
  case tested =>
    intro s b hbist hvia hdies
    exact ⟨_, exec_selfTestDone s, selfTestDone_dies hbist hvia hdies⟩

end Sys2Proof.Machine
end
